-- ==== Sys2Proof/Word.lean ====
section
/-! DEFINITION. The word types of the block: the register word, the byte, and the plain names of the other widths. -/

namespace Sys2Proof

/-- One byte (R10: multi-byte fields are little-endian sequences of these). -/
abbrev Byte := BitVec 8

/-- A register word (R370: every register access is one 32-bit access). -/
abbrev Word := BitVec 32

/-- A run of bytes in ascending address order. -/
abbrev Blob := List Byte

/-- A SHA-512 digest. Byte `k` of the digest string is bits `[8k+7:8k]`. -/
abbrev Digest := BitVec 512

end Sys2Proof
end

