-- ==== Sys2Proof/Machine/Types.lean ====
section
/-! DEFINITION. The operand types of the commands: what a command names besides plain numbers. -/

namespace Sys2Proof.Machine

/-- The blocks that have a lock register (R75, R109, R139, R221, R251, R276, R277, R319, R320, R419, R447, R475, R497, R514). -/
inductive LockBlock | tb | sht | grd | vec | tier | bnk | nmd | tnt | ses | mbx | reel | sec | saf | pwr
  deriving DecidableEq, Repr

/-- The key of a descriptor: ring set (0-31 partitions, 32 manager), submission ring and slot index. -/
structure ItemKey where
  set : Nat
  sq : Nat
  idx : Nat
  deriving DecidableEq, Repr

/-- The operand fields of a vector instruction (R193, Table 7.3). -/
structure VFields where
  /-- Guard predicate. -/
  pg : BitVec 3
  /-- Destination register. -/
  d : BitVec 6
  /-- First source register. -/
  a : BitVec 6
  /-- Second source register. -/
  b : BitVec 6
  /-- Third source register. -/
  c : BitVec 6
  /-- Immediate or modifiers. -/
  imm : BitVec 29
  deriving DecidableEq, Repr

/-- A track of a sheet (R80). -/
inductive Track | a | v | m | l
  deriving DecidableEq, Repr

/-- A source of tick words (R62, R75): TICK_IN, or the beacon of a reel-link port 0-7. -/
inductive TickSource
  | tickIn
  | beacon (port : Nat)
  deriving DecidableEq, Repr

/-- The kinds of maintenance access of an NMD (R270, R271, R273). -/
inductive Maint | rewrite | reread | patrol
  deriving DecidableEq, Repr

/-- What an error-correcting read found: nothing, a corrected error, or an uncorrectable one (R264, R269). -/
inductive EccResult | clean | corrected | uncorrectable
  deriving DecidableEq, Repr

/-- Where an MCTP packet or message comes from (R466). -/
inductive MctpPath | ucl | smbus
  deriving DecidableEq, Repr

/-- One bay binding of a commit record (Table 3.4) with the items its tokens come from. -/
structure Binding where
  /-- Bay index. -/
  bay : Nat
  /-- Tint ID (03, R92). -/
  tint : Nat
  /-- Tint generation committed (03, R92). -/
  gen : BitVec 16
  /-- Tier F address of the token list, in 64-byte units (03, R92). -/
  tokenRef : Word
  /-- Token count (03, R92). -/
  count : Nat
  /-- Pending items that the bay carries (03, R92, R101). -/
  items : List ItemKey
  deriving DecidableEq, Repr

/-- A commit record for one segment (Table 3.4). -/
structure CommitRec where
  /-- Slot of the sheet to play (03, R92). -/
  slot : Nat
  /-- Bay bindings (03, R92). -/
  bindings : List Binding
  /-- Flex bays that carry their training variant (03, R92). -/
  training : List Nat
  /-- House record only: the profile to commit (03, R92, R53). -/
  profile : BitVec 2
  deriving DecidableEq, Repr

end Sys2Proof.Machine
end

