-- ==== Sys2Proof/Syntax.lean ====
section
/-! DEFINITION. The commands of the block: one constructor for each row of spec/opcode_table.json, in its order. -/

namespace Sys2Proof

open Sys2Proof.Machine

/-- The commands (opcode_table.json). Each constructor names its row and the rule that the row cites. -/
inductive Instr
  /-- REGISTER_WRITE (R369). -/
  | registerWrite (fn off : Nat) (v : Word)
  /-- REGISTER_ACCESS_ERROR (R370). -/
  | registerAccessError (fn off size : Nat)
  /-- LOCK_WRITE (R75). -/
  | lockWrite (block : LockBlock)
  /-- TB_NOW_READ (R75). -/
  | tbNowRead
  /-- TICK_LAST_READ (R75). -/
  | tickLastRead
  /-- CLG_COUNT_READ (R498). -/
  | clgCountRead
  /-- RUN_START (R58). -/
  | runStart
  /-- RUN_STOP (R59). -/
  | runStop
  /-- FRAMES_STOP (R59). -/
  | framesStop
  /-- SET_CADENCE (R55). -/
  | setCadence (c : BitVec 2)
  /-- SYNC_ARM (R72). -/
  | syncArm
  /-- PROFILE_WRITE (R54). -/
  | profileWrite (n : BitVec 2) (house : Bool) (v : Word)
  /-- REHEARSE_ARM (R74). -/
  | rehearseArm (epochValue : BitVec 16) (epochEn : Bool)
  /-- TICK (R45). -/
  | tick
  /-- SEGMENT_START (R95). -/
  | segmentStart (owner : Nat)
  /-- LONGER_PROFILE (R102). -/
  | longerProfile
  /-- POLICY_REVIEW (R337). -/
  | policyReview
  /-- COMMIT_POINT (R21). -/
  | commitPoint
  /-- DIRECTOR_COMMIT (R92). -/
  | directorCommit (recs : List (Nat × CommitRec))
  /-- TICK_WORD (R65). -/
  | tickWord (src : TickSource) (word : BitVec 128) (arrival : BitVec 64)
  /-- MISSED_TICK (R65). -/
  | missedTick (src : TickSource)
  /-- SRC_RETURN (R68). -/
  | srcReturn
  /-- FOLLOWER_LOCK (R67). -/
  | followerLock
  /-- ALIGN_ERR (R67). -/
  | alignErr
  /-- TICK_LOST (R69). -/
  | tickLost
  /-- HOLDOVER_EXIT (R71). -/
  | holdoverExit
  /-- DELAY_EXCHANGE (R64). -/
  | delayExchange (port : Nat)
  /-- DELAY_FLIT (R436). -/
  | delayFlit (port : Nat) (flit : Blob) (arrival : BitVec 64)
  /-- INSERT_WINDOW (R56). -/
  | insertWindow (owner : Nat)
  /-- SHEET_LOAD (R84). -/
  | sheetLoad (owner slot : Nat)
  /-- SHEET_LOAD_DONE (R84). -/
  | sheetLoadDone (img : Option Blob)
  /-- PLAYER_ENABLE (R109). -/
  | playerEnable (atFn : Bool)
  /-- PLAYER_DISABLE (R109). -/
  | playerDisable
  /-- SET_SHEET_STORE (R109). -/
  | setSheetStore (mib : Nat)
  /-- FALLBACK_DESIGNATE (R78). -/
  | fallbackDesignate (owner : Nat) (v : Word)
  /-- HOLD_RESUME (R96). -/
  | holdResume (owner : Nat)
  /-- CUE_END (R236). -/
  | cueEnd (owner : Nat) (track : Track) (idx : Nat)
  /-- MMA (R116). -/
  | mma (owner idx : Nat)
  /-- SHOT_END (R124). -/
  | shotEnd (owner idx : Nat)
  /-- DRAIN_END (R133). -/
  | drainEnd (tile : Nat) (differs : List Nat)
  /-- ARRAY_FENCE_REQ (R115). -/
  | arrayFenceReq (logical : Nat)
  /-- CHECK_DISABLE (R137). -/
  | checkDisable
  /-- RUN (R211). -/
  | run (owner idx : Nat)
  /-- KAT (R216). -/
  | kat (owner idx : Nat)
  /-- KAT_VERDICT (R217). -/
  | katVerdict (sig : Digest) (part : Nat)
  /-- METER_SHOT (R213). -/
  | meterShot (owner idx : Nat)
  /-- NOP (R195). -/
  | vNop (u : Nat) (f : VFields)
  /-- END (R192). -/
  | vEnd (u : Nat) (f : VFields)
  /-- LOOP (R192). -/
  | vLoop (u : Nat) (f : VFields)
  /-- SLI (R195). -/
  | vSli (u : Nat) (f : VFields)
  /-- SLH (R195). -/
  | vSlh (u : Nat) (f : VFields)
  /-- SADD (R195). -/
  | vSadd (u : Nat) (f : VFields)
  /-- SSUB (R195). -/
  | vSsub (u : Nat) (f : VFields)
  /-- SMUL (R195). -/
  | vSmul (u : Nat) (f : VFields)
  /-- SAND (R195). -/
  | vSand (u : Nat) (f : VFields)
  /-- SOR (R195). -/
  | vSor (u : Nat) (f : VFields)
  /-- SXOR (R195). -/
  | vSxor (u : Nat) (f : VFields)
  /-- SSHL (R195). -/
  | vSshl (u : Nat) (f : VFields)
  /-- SSHR (R195). -/
  | vSshr (u : Nat) (f : VFields)
  /-- SADDI (R195). -/
  | vSaddi (u : Nat) (f : VFields)
  /-- SLD (R195). -/
  | vSld (u : Nat) (f : VFields)
  /-- SST (R195). -/
  | vSst (u : Nat) (f : VFields)
  /-- IADD (R195). -/
  | vIadd (u : Nat) (f : VFields)
  /-- ISUB (R195). -/
  | vIsub (u : Nat) (f : VFields)
  /-- IMUL (R199). -/
  | vImul (u : Nat) (f : VFields)
  /-- IMAX (R181). -/
  | vImax (u : Nat) (f : VFields)
  /-- IMIN (R181). -/
  | vImin (u : Nat) (f : VFields)
  /-- IAND (R195). -/
  | vIand (u : Nat) (f : VFields)
  /-- IOR (R195). -/
  | vIor (u : Nat) (f : VFields)
  /-- IXOR (R195). -/
  | vIxor (u : Nat) (f : VFields)
  /-- ISHL (R195). -/
  | vIshl (u : Nat) (f : VFields)
  /-- ISRA (R199). -/
  | vIsra (u : Nat) (f : VFields)
  /-- ISHR (R199). -/
  | vIshr (u : Nat) (f : VFields)
  /-- ICMP (R197). -/
  | vIcmp (u : Nat) (f : VFields)
  /-- FADD (R196). -/
  | vFadd (u : Nat) (f : VFields)
  /-- FSUB (R196). -/
  | vFsub (u : Nat) (f : VFields)
  /-- FMUL (R196). -/
  | vFmul (u : Nat) (f : VFields)
  /-- FFMA (R196). -/
  | vFfma (u : Nat) (f : VFields)
  /-- FMAX (R181). -/
  | vFmax (u : Nat) (f : VFields)
  /-- FMIN (R181). -/
  | vFmin (u : Nat) (f : VFields)
  /-- FABS (R195). -/
  | vFabs (u : Nat) (f : VFields)
  /-- FNEG (R195). -/
  | vFneg (u : Nat) (f : VFields)
  /-- FTSUM (R199). -/
  | vFtsum (u : Nat) (f : VFields)
  /-- FCMP (R197). -/
  | vFcmp (u : Nat) (f : VFields)
  /-- FEXP2 (R196). -/
  | vFexp2 (u : Nat) (f : VFields)
  /-- FLOG2 (R196). -/
  | vFlog2 (u : Nat) (f : VFields)
  /-- FRCP (R196). -/
  | vFrcp (u : Nat) (f : VFields)
  /-- FSQRT (R196). -/
  | vFsqrt (u : Nat) (f : VFields)
  /-- FRSQ (R196). -/
  | vFrsq (u : Nat) (f : VFields)
  /-- SEL (R195). -/
  | vSel (u : Nat) (f : VFields)
  /-- BCAST (R195). -/
  | vBcast (u : Nat) (f : VFields)
  /-- LIDX (R195). -/
  | vLidx (u : Nat) (f : VFields)
  /-- ROT (R195). -/
  | vRot (u : Nat) (f : VFields)
  /-- VMOV (R195). -/
  | vVmov (u : Nat) (f : VFields)
  /-- WEXT (R195). -/
  | vWext (u : Nat) (f : VFields)
  /-- PAND (R195). -/
  | vPand (u : Nat) (f : VFields)
  /-- POR (R195). -/
  | vPor (u : Nat) (f : VFields)
  /-- PNOT (R195). -/
  | vPnot (u : Nat) (f : VFields)
  /-- PFIRST (R195). -/
  | vPfirst (u : Nat) (f : VFields)
  /-- REDADD (R198). -/
  | vRedadd (u : Nat) (f : VFields)
  /-- REDMAX (R198). -/
  | vRedmax (u : Nat) (f : VFields)
  /-- REDMIN (R198). -/
  | vRedmin (u : Nat) (f : VFields)
  /-- IREDADD (R198). -/
  | vIredadd (u : Nat) (f : VFields)
  /-- CVTN (R201). -/
  | vCvtn (u : Nat) (f : VFields)
  /-- CVTW (R200). -/
  | vCvtw (u : Nat) (f : VFields)
  /-- ITOF (R201). -/
  | vItof (u : Nat) (f : VFields)
  /-- FTOI (R201). -/
  | vFtoi (u : Nat) (f : VFields)
  /-- TLD (R203). -/
  | vTld (u : Nat) (f : VFields)
  /-- TST (R203). -/
  | vTst (u : Nat) (f : VFields)
  /-- TFIN (R204). -/
  | vTfin (u : Nat) (f : VFields)
  /-- RNG (R202). -/
  | vRng (u : Nat) (f : VFields)
  /-- KSEED (R202). -/
  | vKseed (u : Nat) (f : VFields)
  /-- VECTOR_FENCE_REQ (R218). -/
  | vectorFenceReq (u : Nat)
  /-- KAT_DISABLE (R221). -/
  | katDisable
  /-- PROGRAM_LOAD (R207). -/
  | programLoad (slot : Nat)
  /-- PROGRAM_LOAD_DONE (R207). -/
  | programLoadDone (img : Option Blob)
  /-- PROGRAM_SLOT_CLEAR (R208). -/
  | programSlotClear (slot : Nat)
  /-- REEL (R547). -/
  | reel (owner idx : Nat)
  /-- LAYER_FETCH_DONE (R240). -/
  | layerFetchDone (rev bad : Bool)
  /-- GATHER (R249). -/
  | gather (owner idx : Nat)
  /-- SCATTER (R249). -/
  | scatter (owner idx : Nat)
  /-- MIGRATE (R225). -/
  | migrate (owner idx : Nat)
  /-- HOST (R234). -/
  | host (owner idx : Nat)
  /-- UPDATE (R34). -/
  | update (owner idx : Nat)
  /-- TINT (R295). -/
  | tint (owner idx : Nat)
  /-- BANK_REQUEST (R258). -/
  | bankRequest (b : Nat) (v : Word)
  /-- BANK_REQUEST_EFFECT (R256). -/
  | bankRequestEffect (b : Nat)
  /-- BANK_TRANSITION_DONE (R257). -/
  | bankTransitionDone (b : Nat)
  /-- PATROL_SCRUB (R265). -/
  | patrolScrub (b : Nat) (found : EccResult)
  /-- MAINTENANCE_ACCESS (R271). -/
  | maintenanceAccess (n : Nat) (kind : Maint) (addr : Nat) (found : EccResult)
  /-- TIER_S_PATROL (R273). -/
  | tierSPatrol (n : Nat) (addr : Nat) (found : EccResult)
  /-- PATROL_LATE (R273). -/
  | patrolLate (n : Nat)
  /-- DQ_OSC_CHECK (R272). -/
  | dqOscCheck (n : Nat) (drift : Bool)
  /-- DQ_RETRAIN (R272). -/
  | dqRetrain (n gapNs : Nat) (ok : Bool)
  /-- RETRAIN_LATE (R272). -/
  | retrainLate (n : Nat)
  /-- ROW_RETIRE (R274). -/
  | rowRetire (n row : Nat)
  /-- NMD_FENCE_REQ (R274). -/
  | nmdFenceReq (n : Nat)
  /-- STACK_LOST (R244). -/
  | stackLost (n : Nat)
  /-- PASS1 (R352). -/
  | pass1 (n : Nat)
  /-- PASS2 (R354). -/
  | pass2 (n : Nat)
  /-- DROP (R360). -/
  | drop (n : Nat)
  /-- UPDATE_PASS_DONE (R361). -/
  | updatePassDone (n : Nat) (unread : Bool)
  /-- UPDATE_DEADLINE (R362). -/
  | updateDeadline (n : Nat)
  /-- PLATE_LOAD (R282). -/
  | plateLoad (manifest : Option Blob)
  /-- PLATE_PART_ARRIVED (R284). -/
  | platePartArrived (part : Nat) (data : Option Blob)
  /-- PLATE_LOAD_END (R284). -/
  | plateLoadEnd
  /-- PLATE_UNLOAD (R285). -/
  | plateUnload
  /-- TINT_REGISTER (R290). -/
  | tintRegister (k : ItemKey) (wrapped image : Option Blob)
  /-- TINT_REGISTER_DONE (R290). -/
  | tintRegisterDone (t : Nat)
  /-- TINT_LOAD (R294). -/
  | tintLoad (k : ItemKey)
  /-- TINT_PIN (R297). -/
  | tintPin (k : ItemKey)
  /-- TINT_HOT (R295). -/
  | tintHot (t : Nat)
  /-- TINT_EVICT (R298). -/
  | tintEvict (k : ItemKey)
  /-- EVICTION_EFFECT (R298). -/
  | evictionEffect (t : Nat)
  /-- EVICTION_COMPLETE (R298). -/
  | evictionComplete (t : Nat)
  /-- TINT_WITHDRAW (R312). -/
  | tintWithdraw (k : ItemKey)
  /-- WITHDRAW_EFFECT (R312). -/
  | withdrawEffect (t : Nat)
  /-- WITHDRAW_COMPLETE (R312). -/
  | withdrawComplete (t : Nat)
  /-- SESSION_OPEN (R306). -/
  | sessionOpen (k : ItemKey)
  /-- SESSION_CLOSE (R310). -/
  | sessionClose (k : ItemKey)
  /-- SESSION_CLOSE_EFFECT (R310). -/
  | sessionCloseEffect (ctx : Nat)
  /-- SESSION_SCRUB_DONE (R310). -/
  | sessionScrubDone (ctx : Nat)
  /-- SERVE_STEP (R31). -/
  | serveStep (k : ItemKey)
  /-- SERVE_PREFILL (R309). -/
  | servePrefill (k : ItemKey) (tokens : Option Blob)
  /-- TRAIN_SAMPLE (R321). -/
  | trainSample (k : ItemKey) (tokens targets : Option Blob)
  /-- INSERT (R316). -/
  | insert (k : ItemKey)
  /-- INSERT_COMPLETE (R317). -/
  | insertComplete
  /-- INSERT_PIN (R315). -/
  | insertPin (slot owner : Nat)
  /-- INSERT_UNPIN (R315). -/
  | insertUnpin (slot : Nat)
  /-- METER (R184). -/
  | meter (k : ItemKey)
  /-- SNAPSHOT (R340). -/
  | snapshot (k : ItemKey)
  /-- AUTO_SNAPSHOT (R340). -/
  | autoSnapshot (t : Nat)
  /-- SNAPSHOT_COPY_DONE (R340). -/
  | snapshotCopyDone (t : Nat)
  /-- RESTORE (R342). -/
  | restore (k : ItemKey)
  /-- ROLLBACK (R342). -/
  | rollback (t : Nat)
  /-- COMPLETION_RELEASE (R343). -/
  | completionRelease (k : ItemKey)
  /-- RETAKE_HOLD (R337). -/
  | retakeHold (t layer level : Nat)
  /-- TRAINING_PAUSE (R339). -/
  | trainingPause (t : Nat)
  /-- DOORBELL_OBSERVED (R374). -/
  | doorbellObserved (line : Nat) (words : List Word)
  /-- DESCRIPTOR_FETCH (R380). -/
  | descriptorFetch (set sq : Nat) (bytes : Option Blob)
  /-- COMPLETION_WRITE (R386). -/
  | completionWrite (k : ItemKey)
  /-- SQ_ENABLE (R397). -/
  | sqEnable (set n : Nat) (v : Word)
  /-- SQ_DISABLE (R397). -/
  | sqDisable (set n : Nat)
  /-- SQ_DRAIN_DONE (R396). -/
  | sqDrainDone (set n : Nat)
  /-- CQ_ENABLE (R397). -/
  | cqEnable (set n : Nat) (v : Word)
  /-- CQ_DISABLE (R397). -/
  | cqDisable (set n : Nat)
  /-- DAILIES_ARM (R392). -/
  | dailiesArm (k : ItemKey)
  /-- UCL_PORT_FENCE (R366). -/
  | uclPortFence (n : Nat)
  /-- CREATE (R402). -/
  | create (p : Nat)
  /-- CREATE_DONE (R402). -/
  | createDone (p : Nat)
  /-- RESIZE (R405). -/
  | resize (p : Nat)
  /-- ACTIVATE (R403). -/
  | activate (p : Nat)
  /-- ACTIVATE_EFFECT (R404). -/
  | activateEffect (p : Nat)
  /-- DEACTIVATE (R403). -/
  | deactivate (p : Nat)
  /-- DEACTIVATE_EFFECT (R403). -/
  | deactivateEffect (p : Nat)
  /-- TEARDOWN (R407). -/
  | teardown (p : Nat)
  /-- TEARDOWN_EFFECT (R407). -/
  | teardownEffect (p : Nat)
  /-- TEARDOWN_DONE (R407). -/
  | teardownDone (p : Nat)
  /-- FREEZE (R412). -/
  | freeze (k : ItemKey)
  /-- FREEZE_EFFECT (R412). -/
  | freezeEffect (p : Nat)
  /-- FREEZE_DONE (R412). -/
  | freezeDone (k : ItemKey)
  /-- SAVE (R413). -/
  | save (k : ItemKey)
  /-- LOAD_IMAGE (R415). -/
  | loadImage (k : ItemKey) (img : Option Blob)
  /-- MBX_BIND_WRITE (R408). -/
  | mbxBindWrite (c : Nat) (v : Word)
  /-- MBX_DATA_WRITE (R409). -/
  | mbxDataWrite (m c w : Nat) (v : Word)
  /-- MBX_SEND (R409). -/
  | mbxSend (m c : Nat)
  /-- MBX_DONE (R409). -/
  | mbxDone (m c : Nat)
  /-- MBX_ABORT_CLEAR (R411). -/
  | mbxAbortClear (m c : Nat)
  /-- SEND (R428). -/
  | send (owner idx : Nat)
  /-- RECV (R428). -/
  | recv (owner idx : Nat)
  /-- PASS (R432). -/
  | pass (owner idx : Nat)
  /-- VERDICT (R439). -/
  | verdict (owner idx : Nat)
  /-- TINT_DIVERGED (R440). -/
  | tintDiverged (t : Nat)
  /-- IDLE_FLIT (R422). -/
  | idleFlit (port : Nat) (flit : Blob)
  /-- DATA_FLIT (R428). -/
  | dataFlit (port : Nat) (flit : Blob)
  /-- VOID_FLIT (R433). -/
  | voidFlit (port : Nat) (flit : Blob)
  /-- PLATE_REQ (R441). -/
  | plateReq (port : Nat) (flit : Blob)
  /-- PLATE_ACK (R441). -/
  | plateAck (port : Nat) (flit : Blob)
  /-- NACK (R445). -/
  | nack (port : Nat) (flit : Blob)
  /-- DONE (R445). -/
  | done (port : Nat) (flit : Blob)
  /-- BULK_OFFER (R445). -/
  | bulkOffer (port : Nat) (flit : Blob)
  /-- BULK_ACCEPT (R445). -/
  | bulkAccept (port : Nat) (flit : Blob)
  /-- BULK_DONE (R445). -/
  | bulkDone (port : Nat) (flit : Blob)
  /-- ABORT (R445). -/
  | abort (port : Nat) (flit : Blob)
  /-- TAG (R461). -/
  | tag (port : Nat) (flit : Blob)
  /-- DIST_TIMEOUT (R441). -/
  | distTimeout (port : Nat)
  /-- PORT_TRAIN_RETRY (R423). -/
  | portTrainRetry (port : Nat)
  /-- PORT_TRAINED (R423). -/
  | portTrained (port : Nat) (lanes : BitVec 4)
  /-- REEL_PORT_FENCE (R424). -/
  | reelPortFence (port : Nat)
  /-- REEL_FENCE_REQ (R424). -/
  | reelFenceReq (port : Nat)
  /-- BULK_TX (R444). -/
  | bulkTx (port : Nat) (data : Option Blob)
  /-- BULK_RX (R444). -/
  | bulkRx (port : Nat)
  /-- BULK_ABORT_WRITE (R444). -/
  | bulkAbortWrite
  /-- TAKE (R451). -/
  | take (block : Option Blob)
  /-- TRANSFER (R451). -/
  | transfer (block : Option Blob)
  /-- RELEASE (R451). -/
  | release (block : Option Blob)
  /-- PUB_ADD (R451). -/
  | pubAdd (block : Option Blob)
  /-- PUB_REMOVE (R451). -/
  | pubRemove (block : Option Blob)
  /-- CDK (R451). -/
  | cdk (block : Option Blob)
  /-- WIPE_DONE (R452). -/
  | wipeDone
  /-- PLATE_KEY_IMPORT (R457). -/
  | plateKeyImport (wrapped : Option Blob)
  /-- GROUP_KEY_IMPORT (R457). -/
  | groupKeyImport (wrapped : Option Blob)
  /-- GROUP_KEY_ACTIVATE (R462). -/
  | groupKeyActivate
  /-- GROUP_KEY_RETIRE (R462). -/
  | groupKeyRetire
  /-- IMPORT_KEY_READY (R455). -/
  | importKeyReady (p : Nat)
  /-- RNG_FAIL (R454). -/
  | rngFail
  /-- ATTEST (R467). -/
  | attest (k : ItemKey)
  /-- GET_VERSION (R465). -/
  | getVersion (path : MctpPath) (req : Blob)
  /-- GET_CAPABILITIES (R465). -/
  | getCapabilities (path : MctpPath) (req : Blob)
  /-- NEGOTIATE_ALGORITHMS (R465). -/
  | negotiateAlgorithms (path : MctpPath) (req : Blob)
  /-- GET_DIGESTS (R465). -/
  | getDigests (path : MctpPath) (req : Blob)
  /-- GET_CERTIFICATE (R465). -/
  | getCertificate (path : MctpPath) (req : Blob)
  /-- CHALLENGE (R465). -/
  | challenge (path : MctpPath) (req : Blob)
  /-- GET_MEASUREMENTS (R465). -/
  | getMeasurements (path : MctpPath) (req : Blob)
  /-- SET_ENDPOINT_ID (R466). -/
  | setEndpointId (path : MctpPath) (req : Blob)
  /-- GET_ENDPOINT_ID (R466). -/
  | getEndpointId (path : MctpPath) (req : Blob)
  /-- GET_MCTP_VERSION_SUPPORT (R466). -/
  | getMctpVersionSupport (path : MctpPath) (req : Blob)
  /-- GET_MESSAGE_TYPE_SUPPORT (R466). -/
  | getMessageTypeSupport (path : MctpPath) (req : Blob)
  /-- MCTP_TX (R466). -/
  | mctpTx
  /-- MCTP_RX_RELEASE (R466). -/
  | mctpRxRelease
  /-- PLDM_REQUEST (R512). -/
  | pldmRequest (path : MctpPath) (req : Blob)
  /-- SMBUS_PACKET (R531). -/
  | smbusPacket (addr : BitVec 7) (bytes : Blob)
  /-- SENSOR_UPDATE (R512). -/
  | sensorUpdate (values : List Int)
  /-- LIFECYCLE_RETURN (R471). -/
  | lifecycleReturn
  /-- SAFE_REQ (R477). -/
  | safeReq
  /-- UCL_PORT_FENCE_REQ (R489). -/
  | uclPortFenceReq (n : Nat)
  /-- PARTITION_FENCE_REQ (R489). -/
  | partitionFenceReq (p : Nat)
  /-- TINT_FENCE_REQ (R489). -/
  | tintFenceReq (t : Nat)
  /-- SESSION_FENCE_REQ (R489). -/
  | sessionFenceReq (ctx : Nat)
  /-- PARTITION_FENCE (R486). -/
  | partitionFence (p : Nat)
  /-- TINT_FENCE (R487). -/
  | tintFence (t : Nat)
  /-- SESSION_FENCE (R488). -/
  | sessionFence (ctx : Nat)
  /-- SAF_CTRL_WRITE (R497). -/
  | safCtrlWrite (v : Word)
  /-- SAF_PROMOTE_WRITE (R478). -/
  | safPromoteWrite (v : Word)
  /-- DIRECTOR_HANG (R477). -/
  | directorHang
  /-- NMD_HANG (R477). -/
  | nmdHang (n : Nat)
  /-- REFCLK_LOSS (R508). -/
  | refclkLoss
  /-- SUPPLY_FAULT (R509). -/
  | supplyFault (rail : Nat)
  /-- THERMAL_SAMPLE (R506). -/
  | thermalSample (temps : List Int)
  /-- DROOP_TRIP (R501). -/
  | droopTrip (level : Nat)
  /-- FADE_RELEASE (R502). -/
  | fadeRelease (stableSince : Nat)
  /-- LOG_COMMIT (R491). -/
  | logCommit
  /-- MAIN_POWER_FAIL (R494). -/
  | mainPowerFail
  /-- VAUX_FAIL (R494). -/
  | vauxFail
  /-- STANDBY_POWER_ON (R515). -/
  | standbyPowerOn (straps : BitVec 2)
  /-- COLD_RESET (R517). -/
  | coldReset (aux recoveryLow slotHigh : Bool) (straps : BitVec 2)
  /-- DIRECTOR_READY (R517). -/
  | directorReady
  /-- BOOT_WATCHDOG (R517). -/
  | bootWatchdog
  /-- WARM_RESET (R515). -/
  | warmReset
  /-- FUNCTION_LEVEL_RESET (R515). -/
  | functionLevelReset (fn : Nat)
  /-- BOOT_COMMIT (R519). -/
  | bootCommit
  /-- TRIAL_MASK_WRITE (R520). -/
  | trialMaskWrite (mask : BitVec 5)
  /-- FLASH_ERASE (R520). -/
  | flashErase
  /-- FLASH_PROGRAM (R520). -/
  | flashProgram (data : Option Blob)
  /-- FLASH_OP_DONE (R520). -/
  | flashOpDone (ok : Bool)
  /-- RECOVERY_BEGIN (R522). -/
  | recoveryBegin (bmc : Bool) (slot comp : Nat)
  /-- RECOVERY_DATA (R522). -/
  | recoveryData (bmc : Bool) (off : Nat) (data : Blob)
  /-- RECOVERY_END (R522). -/
  | recoveryEnd (bmc : Bool) (total : Nat)
  /-- RECOVERY_EXIT (R522). -/
  | recoveryExit (bmc : Bool)
  /-- EXTEST (R532). -/
  | extest
  /-- IDCODE (R532). -/
  | idcode
  /-- SAMPLE_PRELOAD (R532). -/
  | samplePreload
  /-- VTARGET (R532). -/
  | vtarget
  /-- BYPASS (R532). -/
  | bypass (code : Byte)
  /-- JTAG_DEBUG (R532). -/
  | jtagDebug (code : Byte)
  /-- JTAG_TRST (R544). -/
  | jtagTrst
  /-- DIRECTOR_CLAIM (R294). -/
  | directorClaim (t : Nat) (slot : Option Nat)
  /-- INSERT_PIN_DONE (R315). -/
  | insertPinDone (img : Option Blob)
  /-- MBX_DENIED_READ (R410). -/
  | mbxDeniedRead (m c off : Nat)
  /-- CLG_SLOT_READOUT (R495). -/
  | clgSlotReadout (slot : Nat)
  deriving DecidableEq, Repr

end Sys2Proof
end

