-- ==== Sys2Proof/Config.lean ====
section
/-! DEFINITION. What the spec leaves to the part, and the values that it leaves open: constants without a body, so that no
statement can rest on a value of theirs. -/

namespace Sys2Proof

/-- Free 32-bit values, by the count of free values drawn so far (log entry 3). -/
opaque Config.free32 : Nat → BitVec 32

/-- Free choices between two allowed outcomes, by the count of free values drawn so far (log entry 3). -/
opaque Config.freeBool : Nat → Bool

/-- The device's serial number, 16 bytes, from fuses (R449). -/
opaque Config.serial : BitVec 128

/-- VDD_CMP target of the part in mV, from fuses (R514). -/
opaque Config.vddTarget : BitVec 10

/-- The certificate chain of slot 0, ending in the identity certificate (R465). -/
opaque Config.certChain : Blob

/-- The identity certificate (R465). -/
opaque Config.identityCert : Blob

/-- Modulus of the transport key (Table 16.5). -/
opaque Config.transportKey : BitVec 4096

/-- SHA-512 of the modulus of the vendor firmware key, from fuses (R516). -/
opaque Config.vendorKeyDigest : BitVec 512

/-- Modulus of the vendor firmware key (R516). -/
opaque Config.vendorKey : BitVec 4096

/-- The identity key's modulus (Table 16.5). -/
opaque Config.identityKey : BitVec 4096

/-- The RSA private-key operation of a key pair that the key store holds (R14, RFC 8017): modulus, representative. -/
opaque Config.rsaPrivate : BitVec 4096 → BitVec 4096 → BitVec 4096

/-- The 64-byte salt of a signature (R14), by the count of free values drawn so far. -/
opaque Config.salt : Nat → BitVec 512

/-- A freshly generated RSA-4096 modulus (R455), by the count of free values drawn so far. -/
opaque Config.newModulus : Nat → BitVec 4096

/-- A freshly generated AES-256 key (R454), by the count of free values drawn so far. -/
opaque Config.newKey : Nat → BitVec 256

/-- The stored signature of the known-answer test of a vector unit (R217). -/
opaque Config.katSignature : BitVec 512

/-- Words repaired by fuses in each bank (BNK_INFO.repaired, R276). -/
opaque Config.repaired : Nat → BitVec 8

/-- Offset, in units of 64 bytes, in a partition's tier H area at which the device keeps a tile where it may: object handle, tile index
(R226; log entry 3). -/
opaque Config.hPlace : Nat → Nat → Nat

/-- The bank lies in the sheet store of the given size in MiB: the spec does not say which banks it takes (R76; log entry 3). -/
opaque Config.storeBank : Nat → Nat → Bool

/-- Format and blk code of KV tiles, by their place among the permitted ones: no rule names them (R247; log entry 3). -/
opaque Config.kvFormat : Nat
opaque Config.kvBlk : Nat

/-- Rank of a tile in a bay's stage area: handle, tile index; the spec does not say in which order they lie (R249; log entry 3). -/
opaque Config.stageKey : Nat → Nat → Nat

/-- A byte that the host holds at an address, by the count of free values drawn so far (R230; log entry 3). -/
opaque Config.hostData : Nat → Nat → Byte

/-- Arrangement of the tiles of an MX transfer: columns of tiles, by host address and number of tiles (R230; log entry 3). -/
opaque Config.mxCols : Nat → Nat → Nat

/-- Format among the rows of Table 5.9, and valid rows and columns of the last tiles, of an MX import, by host address (R230; log entry 3). -/
opaque Config.mxForm : Nat → Nat × Nat × Nat

/-- Granule of a stack at which a tile of a plate part begins: part, stripe (R239; log entry 3). -/
opaque Config.stripeAt : Nat → Nat → Nat

/-- Granule of a stack at which a tile of an object begins: handle, tile index, 0 on the primary stack, 1 on the mirror (log entry 3). -/
opaque Config.tileGranule : Nat → Nat → Nat → Nat

/-- An upset of a word of tier F, if one happens, by the count of free values drawn so far: word number, more than one bit (R264; log
entry 3). -/
opaque Config.wordUpset : Nat → Option (Nat × Bool)

/-- An upset of a granule of a stack: stack, granule, beyond correction (R269; log entry 3). -/
opaque Config.granuleUpset : Nat → Option (Nat × Nat × Bool)

/-- A link error that the next transfer on a stack meets: stack, kind (R270; log entry 3). -/
opaque Config.linkUpset : Nat → Option (Nat × Nat)

/-- The row of a stack in which a granule lies: the spec does not say how rows are numbered (R274; log entry 3). -/
opaque Config.dramRow : Nat → Nat

end Sys2Proof
end

