-- ==== Sys2Proof/Machine/Bits.lean ====
section
/-! DEFINITION. Bit fields, bytes in little-endian order, serial-number comparison and rounding divisions: the small
functions that every family uses. -/

namespace Sys2Proof.Machine

/-- Bits `[lo + len - 1 : lo]` of a bit vector, as a number. -/
def fld {n : Nat} (w : BitVec n) (lo len : Nat) : Nat := w.toNat / 2 ^ lo % 2 ^ len

/-- Bit `i` of a word. -/
def bitOf {n : Nat} (w : BitVec n) (i : Nat) : Bool := w.toNat.testBit i

/-- A word with bits `[lo + len - 1 : lo]` replaced. -/
def putFld (w : Word) (lo len v : Nat) : Word :=
  let m : Word := BitVec.ofNat 32 ((2 ^ len - 1) * 2 ^ lo)
  (w &&& ~~~m) ||| (BitVec.ofNat 32 (v % 2 ^ len * 2 ^ lo))

/-- One bit as a word. -/
def bitMask (i : Nat) : Word := BitVec.ofNat 32 (2 ^ i)

/-- A Bool as a number. -/
def b2n (b : Bool) : Nat := if b then 1 else 0

/-- The `n` low bytes of a number, least significant first (R10). -/
def leBytes : Nat → Nat → Blob
  | 0, _ => []
  | n + 1, v => BitVec.ofNat 8 v :: leBytes n (v / 256)

/-- The number that bytes spell, least significant first (R10). -/
def leNat : Blob → Nat
  | [] => 0
  | b :: bs => b.toNat + 256 * leNat bs

/-- The number that bytes spell, most significant first. -/
def beNat (bs : Blob) : Nat := bs.foldl (fun a b => a * 256 + b.toNat) 0

/-- `n` bytes of a number, most significant first. -/
def beBytes (n v : Nat) : Blob := (leBytes n v).reverse

/-- Bytes `[off, off + len)` of a run; bytes beyond its end read as zero. -/
def slice (bs : Blob) (off len : Nat) : Blob :=
  let t := (bs.drop off).take len
  t ++ List.replicate (len - t.length) 0

/-- A little-endian field of a run of bytes. -/
def leAt (bs : Blob) (off len : Nat) : Nat := leNat ((bs.drop off).take len)

/-- A run of bytes padded with zeros to a length. -/
def padTo (n : Nat) (bs : Blob) : Blob := bs ++ List.replicate (n - bs.length) 0

/-- All bytes are zero. -/
def allZero (bs : Blob) : Bool := bs.all fun b => b = 0

/-- The serial difference of R48: positive when `b` is later than `a`. -/
def sdiff {w : Nat} (a b : BitVec w) : Int := (b - a).toInt

/-- `b` is at or later than `a` (R48). -/
def fnLe {w : Nat} (a b : BitVec w) : Bool := decide (0 ≤ sdiff a b)

/-- Division rounding up. -/
def cdiv (a b : Nat) : Nat := (a + b - 1) / b

/-- Adds with saturation at the field's greatest value. -/
def satAdd (w : Nat) (x : BitVec w) (n : Nat) : BitVec w :=
  if x.toNat + n < 2 ^ w then BitVec.ofNat w (x.toNat + n) else BitVec.allOnes w

/-- A signed number in two's complement. -/
def intWord (i : Int) : Word := BitVec.ofInt 32 i

/-- The values of a list of optional values, if all are there. -/
def allSome {α : Type} : List (Option α) → Option (List α)
  | [] => some []
  | none :: _ => none
  | some x :: xs => (allSome xs).map (x :: ·)

/-- Cuts a list into runs of `n`. -/
def chunks {α : Type} (n : Nat) : Nat → List α → List (List α)
  | 0, _ => []
  | k + 1, xs => xs.take n :: chunks n k (xs.drop n)

/-- Insertion into a list in ascending order of a key. -/
def insertBy {α : Type} (key : α → Nat) (x : α) : List α → List α
  | [] => [x]
  | y :: ys => if key x < key y then x :: y :: ys else y :: insertBy key x ys

/-- A list in ascending order of a key; equal keys keep their order. -/
def sortBy {α : Type} (key : α → Nat) : List α → List α
  | [] => []
  | x :: xs => insertBy' x (sortBy key xs)
where
  insertBy' (x : α) : List α → List α
    | [] => [x]
    | y :: ys => if key x ≤ key y then x :: y :: ys else y :: insertBy' x ys

/-- The list without repeats, first occurrences kept. -/
def dedup (xs : List Nat) : List Nat := xs.foldl (fun a x => if a.contains x then a else a ++ [x]) []

end Sys2Proof.Machine
end

