-- ==== Sys2Proof/Machine/Hash.lean ====
section
/-! DEFINITION. The checks and digests that the spec names by their standards: CRC-8 of tick words (R61), CRC-16 of cues (R81),
CRC-32 of flits and log records (R421, R492) and SHA-512 (R14: FIPS 180-4). -/

namespace Sys2Proof.Machine

/-- One step of a CRC with the most significant bit first: the register, then the message bit. -/
def crcMsbStep (w : Nat) (poly : BitVec w) (r : BitVec w) (b : Bool) : BitVec w :=
  if r.msb != b then (r <<< 1) ^^^ poly else r <<< 1

/-- The bits of a byte, most significant first. -/
def msbBits (b : Byte) : List Bool := [7, 6, 5, 4, 3, 2, 1, 0].map fun i => bitOf b i

/-- A CRC over bytes, most significant bit of each byte first. -/
def crcMsb (w : Nat) (poly init : BitVec w) (bs : Blob) : BitVec w :=
  bs.foldl (fun r b => (msbBits b).foldl (crcMsbStep w poly) r) init

/-- CRC-8, polynomial 0x07, initial value 0, over bytes given most significant first (R61). -/
def crc8 (bs : Blob) : BitVec 8 := crcMsb 8 0x07 0 bs

/-- CRC-16, polynomial 0x1021, initial value 0xFFFF (R81). -/
def crc16 (bs : Blob) : BitVec 16 := crcMsb 16 0x1021 0xFFFF bs

/-- One step of the reflected CRC-32. -/
def crc32Step (r : BitVec 32) (b : Bool) : BitVec 32 :=
  if (bitOf r 0) != b then (r >>> 1) ^^^ 0xEDB88320 else r >>> 1

/-- CRC-32: reflected polynomial 0xEDB88320, initial value and final exclusive-or all ones (R421). -/
def crc32 (bs : Blob) : BitVec 32 :=
  ~~~(bs.foldl (fun r b => (msbBits b).reverse.foldl crc32Step r) 0xFFFFFFFF)

/-! ### SHA-512 -/

/-- Round constants (FIPS 180-4). -/
def shaK1 : List (BitVec 64) :=
  [0x428A2F98D728AE22, 0x7137449123EF65CD, 0xB5C0FBCFEC4D3B2F, 0xE9B5DBA58189DBBC,
   0x3956C25BF348B538, 0x59F111F1B605D019, 0x923F82A4AF194F9B, 0xAB1C5ED5DA6D8118,
   0xD807AA98A3030242, 0x12835B0145706FBE, 0x243185BE4EE4B28C, 0x550C7DC3D5FFB4E2,
   0x72BE5D74F27B896F, 0x80DEB1FE3B1696B1, 0x9BDC06A725C71235, 0xC19BF174CF692694,
   0xE49B69C19EF14AD2, 0xEFBE4786384F25E3, 0x0FC19DC68B8CD5B5, 0x240CA1CC77AC9C65,
   0x2DE92C6F592B0275, 0x4A7484AA6EA6E483, 0x5CB0A9DCBD41FBD4, 0x76F988DA831153B5,
   0x983E5152EE66DFAB, 0xA831C66D2DB43210, 0xB00327C898FB213F, 0xBF597FC7BEEF0EE4,
   0xC6E00BF33DA88FC2, 0xD5A79147930AA725, 0x06CA6351E003826F, 0x142929670A0E6E70,
   0x27B70A8546D22FFC, 0x2E1B21385C26C926, 0x4D2C6DFC5AC42AED, 0x53380D139D95B3DF,
   0x650A73548BAF63DE, 0x766A0ABB3C77B2A8, 0x81C2C92E47EDAEE6, 0x92722C851482353B]

/-- Round constants, second half. -/
def shaK2 : List (BitVec 64) :=
  [0xA2BFE8A14CF10364, 0xA81A664BBC423001, 0xC24B8B70D0F89791, 0xC76C51A30654BE30,
   0xD192E819D6EF5218, 0xD69906245565A910, 0xF40E35855771202A, 0x106AA07032BBD1B8,
   0x19A4C116B8D2D0C8, 0x1E376C085141AB53, 0x2748774CDF8EEB99, 0x34B0BCB5E19B48A8,
   0x391C0CB3C5C95A63, 0x4ED8AA4AE3418ACB, 0x5B9CCA4F7763E373, 0x682E6FF3D6B2B8A3,
   0x748F82EE5DEFB2FC, 0x78A5636F43172F60, 0x84C87814A1F0AB72, 0x8CC702081A6439EC,
   0x90BEFFFA23631E28, 0xA4506CEBDE82BDE9, 0xBEF9A3F7B2C67915, 0xC67178F2E372532B,
   0xCA273ECEEA26619C, 0xD186B8C721C0C207, 0xEADA7DD6CDE0EB1E, 0xF57D4F7FEE6ED178,
   0x06F067AA72176FBA, 0x0A637DC5A2C898A6, 0x113F9804BEF90DAE, 0x1B710B35131C471B,
   0x28DB77F523047D84, 0x32CAAB7B40C72493, 0x3C9EBE0A15C9BEBC, 0x431D67C49C100D4C,
   0x4CC5D4BECB3E42B6, 0x597F299CFC657E2A, 0x5FCB6FAB3AD6FAEC, 0x6C44198C4A475817]

/-- Initial hash value. -/
def shaH0 : List (BitVec 64) :=
  [0x6A09E667F3BCC908, 0xBB67AE8584CAA73B, 0x3C6EF372FE94F82B, 0xA54FF53A5F1D36F1,
   0x510E527FADE682D1, 0x9B05688C2B3E6C1F, 0x1F83D9ABFB41BD6B, 0x5BE0CD19137E2179]

/-- Rotate right. -/
def ror64 (x : BitVec 64) (n : Nat) : BitVec 64 := x.rotateRight n

/-- The message schedule: the last 16 words, newest first, extended `n` times. -/
def shaSched : Nat → List (BitVec 64) → List (BitVec 64)
  | 0, ws => ws
  | n + 1, ws =>
    let w2 := ws.getD 1 0
    let w7 := ws.getD 6 0
    let w15 := ws.getD 14 0
    let w16 := ws.getD 15 0
    let s0 := ror64 w15 1 ^^^ ror64 w15 8 ^^^ (w15 >>> 7)
    let s1 := ror64 w2 19 ^^^ ror64 w2 61 ^^^ (w2 >>> 6)
    shaSched n ((s1 + w7 + s0 + w16) :: ws)

/-- One round on the eight working variables. -/
def shaRound (v : List (BitVec 64)) (kw : BitVec 64) : List (BitVec 64) :=
  match v with
  | [a, b, c, d, e, f, g, h] =>
    let s1 := ror64 e 14 ^^^ ror64 e 18 ^^^ ror64 e 41
    let ch := (e &&& f) ^^^ (~~~e &&& g)
    let t1 := h + s1 + ch + kw
    let s0 := ror64 a 28 ^^^ ror64 a 34 ^^^ ror64 a 39
    let maj := (a &&& b) ^^^ (a &&& c) ^^^ (b &&& c)
    [t1 + (s0 + maj), a, b, c, d + t1, e, f, g]
  | _ => v

/-- Eight bytes as a big-endian word. -/
def beWord (bs : Blob) : BitVec 64 := BitVec.ofNat 64 (beNat (bs.take 8))

/-- The compression of one 128-byte block. -/
def shaBlock (h : List (BitVec 64)) (blk : Blob) : List (BitVec 64) :=
  let ws := (shaSched 64 ((chunks 8 16 blk).map beWord).reverse).reverse
  let v := (List.zipWith (· + ·) (shaK1 ++ shaK2) ws).foldl shaRound h
  List.zipWith (· + ·) h v

/-- The padded message (FIPS 180-4). -/
def shaPad (bs : Blob) : Blob :=
  let l := bs.length
  bs ++ [0x80] ++ List.replicate ((239 - l % 128) % 128) 0 ++ beBytes 16 (8 * l)

/-- The SHA-512 digest, byte `k` of the digest string at bits `[8k+7:8k]`. -/
def sha512 (bs : Blob) : Digest :=
  let p := shaPad bs
  let h := (chunks 128 (p.length / 128) p).foldl shaBlock shaH0
  BitVec.ofNat 512 (leNat (h.flatMap fun w => beBytes 8 w.toNat))

/-- The 64 bytes of a digest. -/
def digestBytes (d : Digest) : Blob := leBytes 64 d.toNat

/-- A digest from 64 bytes. -/
def digestOf (bs : Blob) : Digest := BitVec.ofNat 512 (leNat (bs.take 64))

end Sys2Proof.Machine
end

