-- ==== Sys2Proof/Machine/Crypto.lean ====
section
/-! DEFINITION. The cryptographic standards of Table 0.4 (R14): AES-256-GCM (FIPS 197, SP 800-38D), RSASSA-PSS and RSA-OAEP with
SHA-512 and MGF1-SHA-512 (RFC 8017). Public operations are computed; the private-key operation is `Config.rsaPrivate`. -/

namespace Sys2Proof.Machine

/-! ### AES-256 -/

/-- Multiplication by x in the field of AES. -/
def xtime (a : Byte) : Byte := if a.msb then (a <<< 1) ^^^ 0x1B else a <<< 1

/-- Multiplication in the field of AES, over the low `n` bits of `b`. -/
def gfMul (a b : Byte) : Nat → Byte
  | 0 => 0
  | n + 1 => (if bitOf b 0 then a else 0) ^^^ gfMul (xtime a) (b >>> 1) n

/-- The product of two field elements. -/
def gmul (a b : Byte) : Byte := gfMul a b 8

/-- The inverse of a field element as its 254th power; the inverse of 0 is 0. -/
def gfInv (a : Byte) : Byte :=
  let a2 := gmul a a
  let a4 := gmul a2 a2
  let a8 := gmul a4 a4
  let a16 := gmul a8 a8
  let a32 := gmul a16 a16
  let a64 := gmul a32 a32
  let a128 := gmul a64 a64
  gmul a2 (gmul a4 (gmul a8 (gmul a16 (gmul a32 (gmul a64 a128)))))

/-- The S-box (FIPS 197). -/
def sbox (a : Byte) : Byte :=
  let b := gfInv a
  b ^^^ b.rotateLeft 1 ^^^ b.rotateLeft 2 ^^^ b.rotateLeft 3 ^^^ b.rotateLeft 4 ^^^ 0x63

/-- Exclusive-or of two runs of bytes, over the shorter. -/
def xorBytes (a b : Blob) : Blob := List.zipWith (· ^^^ ·) a b

/-- Key expansion: the words so far, newest first, extended `n` times. -/
def aesExpand : Nat → Nat → Byte → List Blob → List Blob
  | 0, _, _, ws => ws
  | n + 1, i, rc, ws =>
    let prev := ws.getD 0 []
    let back := ws.getD 7 []
    if i % 8 = 0 then
      let t := (prev.drop 1 ++ prev.take 1).map sbox
      aesExpand n (i + 1) (xtime rc) (xorBytes back (xorBytes t [rc, 0, 0, 0]) :: ws)
    else if i % 8 = 4 then aesExpand n (i + 1) rc (xorBytes back (prev.map sbox) :: ws)
    else aesExpand n (i + 1) rc (xorBytes back prev :: ws)

/-- The fifteen round keys of a 32-byte key. -/
def aesKeys (key : Blob) : List Blob :=
  chunks 16 15 ((aesExpand 52 8 1 (chunks 4 8 key).reverse).reverse.flatMap id)

/-- The row shift of a block held column by column. -/
def shiftRows (b : Blob) : Blob :=
  [0, 5, 10, 15, 4, 9, 14, 3, 8, 13, 2, 7, 12, 1, 6, 11].map fun i => b.getD i 0

/-- The column mix of one column. -/
def mixColumn (c : Blob) : Blob :=
  match c with
  | [a, b, c, d] =>
    [xtime a ^^^ (xtime b ^^^ b) ^^^ c ^^^ d, a ^^^ xtime b ^^^ (xtime c ^^^ c) ^^^ d,
     a ^^^ b ^^^ xtime c ^^^ (xtime d ^^^ d), (xtime a ^^^ a) ^^^ b ^^^ c ^^^ xtime d]
  | _ => c

/-- One AES-256 block under a 32-byte key. -/
def aesBlock (key blk : Blob) : Blob :=
  match aesKeys key with
  | [] => blk
  | k0 :: ks =>
    let mid := (ks.take 13).foldl
      (fun b k => xorBytes ((chunks 4 4 (shiftRows (b.map sbox))).flatMap mixColumn) k) (xorBytes blk k0)
    xorBytes (shiftRows (mid.map sbox)) (ks.getD 13 [])

/-! ### GCM -/

/-- The product of two blocks of GHASH, most significant bit first. -/
def ghMul (x y : BitVec 128) : BitVec 128 :=
  ((List.range 128).foldl (fun (zv : BitVec 128 × BitVec 128) i =>
    let z := if bitOf x (127 - i) then zv.1 ^^^ zv.2 else zv.1
    let v := if bitOf zv.2 0 then (zv.2 >>> 1) ^^^ (0xE1 <<< 120) else zv.2 >>> 1
    (z, v)) (0, y)).1

/-- Bytes padded with zeros to whole 16-byte blocks. -/
def pad16 (bs : Blob) : Blob := padTo ((bs.length + 15) / 16 * 16) bs

/-- GHASH of whole blocks under the hash key. -/
def ghash (h : BitVec 128) (bs : Blob) : BitVec 128 :=
  (chunks 16 (bs.length / 16) bs).foldl (fun y b => ghMul (y ^^^ BitVec.ofNat 128 (beNat b)) h) 0

/-- Keystream block `n` of a message with a 96-bit IV; data starts at block 2. -/
def gcmBlock (key iv : Blob) (n : Nat) : Blob := aesBlock key (iv ++ beBytes 4 n)

/-- The keystream of a message from its first byte. -/
def gcmStream (key iv : Blob) (len : Nat) : Blob :=
  ((List.range ((len + 15) / 16)).flatMap fun i => gcmBlock key iv (i + 2)).take len

/-- The tag of a ciphertext with its additional data. -/
def gcmTag (key iv aad ct : Blob) : Blob :=
  let h := BitVec.ofNat 128 (beNat (aesBlock key (List.replicate 16 0)))
  let s := ghash h (pad16 aad ++ pad16 ct ++ beBytes 8 (8 * aad.length) ++ beBytes 8 (8 * ct.length))
  xorBytes (beBytes 16 s.toNat) (gcmBlock key iv 1)

/-- AES-256-GCM encryption: ciphertext and 16-byte tag. -/
def gcmSeal (key : BitVec 256) (iv aad pt : Blob) : Blob × Blob :=
  let k := leBytes 32 key.toNat
  let ct := xorBytes pt (gcmStream k iv pt.length)
  (ct, gcmTag k iv aad ct)

/-- AES-256-GCM decryption: the plaintext where the tag verifies. -/
def gcmOpen (key : BitVec 256) (iv aad ct tag : Blob) : Option Blob :=
  let k := leBytes 32 key.toNat
  if gcmTag k iv aad ct = tag then some (xorBytes ct (gcmStream k iv ct.length)) else none

/-! ### RSA -/

/-- Modular square, `n` times. -/
def sqMod (m : Nat) : Nat → Nat → Nat
  | 0, x => x
  | n + 1, x => sqMod m n (x * x % m)

/-- The public-key operation with exponent 65,537 (R449). -/
def rsaPublic (modulus : BitVec 4096) (x : BitVec 4096) : BitVec 4096 :=
  let m := modulus.toNat
  BitVec.ofNat 4096 (sqMod m 16 x.toNat * x.toNat % m)

/-- Mask generation MGF1-SHA-512. -/
def mgf1 (seed : Blob) (len : Nat) : Blob :=
  ((List.range ((len + 63) / 64)).flatMap fun i => digestBytes (sha512 (seed ++ beBytes 4 i))).take len

/-- The encoded message of RSASSA-PSS for a 4096-bit modulus and a 64-byte salt. -/
def pssEncode (msg salt : Blob) : Blob :=
  let h := digestBytes (sha512 (List.replicate 8 0 ++ digestBytes (sha512 msg) ++ salt))
  let db := List.replicate 382 0 ++ [1] ++ salt
  let masked := xorBytes db (mgf1 h 447)
  (match masked with | [] => [] | b :: bs => (b &&& 0x7F) :: bs) ++ h ++ [0xBC]

/-- RSASSA-PSS verification with SHA-512 and a 64-byte salt. -/
def pssVerify (modulus : BitVec 4096) (msg sig : Blob) : Bool :=
  let s := beNat sig
  if sig.length = 512 ∧ s < modulus.toNat then
    let em := beBytes 512 (rsaPublic modulus (BitVec.ofNat 4096 s)).toNat
    let masked := em.take 447
    let h := (em.drop 447).take 64
    let db := match xorBytes masked (mgf1 h 447) with | [] => [] | b :: bs => (b &&& 0x7F) :: bs
    em.getD 511 0 = 0xBC ∧ (em.getD 0 0).toNat < 128 ∧ allZero (db.take 382) ∧ db.getD 382 0 = 1 ∧
      h = digestBytes (sha512 (List.replicate 8 0 ++ digestBytes (sha512 msg) ++ db.drop 383))
  else false

/-- A signature with the identity key (R465, R467); the salt is a free value. -/
def identitySign (msg : Blob) (n : Nat) : Blob :=
  beBytes 512 (Config.rsaPrivate Config.identityKey
    (BitVec.ofNat 4096 (beNat (pssEncode msg (leBytes 64 (Config.salt n).toNat))))).toNat

/-- The bytes after the padding of an OAEP data block: zeros, then a 1. -/
def oaepMessage : Blob → Option Blob
  | [] => none
  | b :: bs => if b = 1 then some bs else if b = 0 then oaepMessage bs else none

/-- RSA-OAEP decryption with SHA-512 (R456): the plaintext, or none where decryption fails. -/
def oaepDecrypt (modulus : BitVec 4096) (label ct : Blob) : Option Blob :=
  if ct.length = 512 ∧ beNat ct < modulus.toNat then
    let em := beBytes 512 (Config.rsaPrivate modulus (BitVec.ofNat 4096 (beNat ct))).toNat
    let seed := xorBytes ((em.drop 1).take 64) (mgf1 (em.drop 65) 64)
    let db := xorBytes (em.drop 65) (mgf1 seed 447)
    if em.getD 0 0 = 0 ∧ db.take 64 = digestBytes (sha512 label) then oaepMessage (db.drop 64) else none
  else none

/-- The bytes of an ASCII label. -/
def ascii (s : String) : Blob := s.toList.map fun c => BitVec.ofNat 8 c.toNat

/-- The digest of an RSA public key: SHA-512 of its big-endian modulus (R449). -/
def keyDigest (modulus : BitVec 4096) : Digest := sha512 (beBytes 512 modulus.toNat)

end Sys2Proof.Machine
end

