-- ==== Sys2Proof/Machine/Float.lean ====
section
/-! DEFINITION. Numbers: exact values of the stored formats (chapter 5), binary32 arithmetic with one rounding, the conversions
to narrow formats, block scales, lane generators and the meter's block (chapter 6). -/

namespace Sys2Proof.Machine

/-! ### Exact values -/

/-- The exact value of a code: a NaN, an infinity, or `(-1)^neg * m * 2^e`. -/
inductive Val
  | nan
  | inf (neg : Bool)
  | fin (neg : Bool) (m : Nat) (e : Int)
  deriving DecidableEq, Repr

/-- Bits of the exception nibble (Table 4.9). -/
abbrev Nib.invalid : BitVec 4 := 1
abbrev Nib.overflow : BitVec 4 := 2
abbrev Nib.nanIn : BitVec 4 := 4
abbrev Nib.sat : BitVec 4 := 8

/-- The value of an integer. -/
def Val.ofInt (i : Int) : Val := .fin (decide (i < 0)) i.natAbs 0

/-- The value is finite. -/
def Val.isFin : Val → Bool
  | .fin .. => true
  | _ => false

/-- The value with its sign inverted. -/
def Val.neg : Val → Val
  | .nan => .nan
  | .inf n => .inf !n
  | .fin n m e => .fin (!n) m e

/-- The value multiplied by a power of two, exactly. -/
def Val.scale (k : Int) : Val → Val
  | .fin n m e => .fin n m (e + k)
  | v => v

/-- `m * 2^(e - f)` for `f` at most `e`. -/
def alignTo (m : Nat) (e f : Int) : Nat := m * 2 ^ (e - f).toNat

/-- The exact sum of two finite values, with the sign of a zero sum as IEEE 754 has it under RNE (R127). -/
def addFin (n1 : Bool) (m1 : Nat) (e1 : Int) (n2 : Bool) (m2 : Nat) (e2 : Int) : Val :=
  let f := min e1 e2
  let a : Int := if n1 then -(alignTo m1 e1 f : Int) else alignTo m1 e1 f
  let b : Int := if n2 then -(alignTo m2 e2 f : Int) else alignTo m2 e2 f
  let c := a + b
  if c = 0 then .fin (n1 && n2 && m1 = 0 && m2 = 0) 0 0 else .fin (decide (c < 0)) c.natAbs f

/-- The sum of two values and the invalid bit of +inf + -inf (Table 4.8a). -/
def Val.add : Val → Val → Val × BitVec 4
  | .nan, _ => (.nan, 0)
  | _, .nan => (.nan, 0)
  | .inf a, .inf b => if a = b then (.inf a, 0) else (.nan, Nib.invalid)
  | .inf a, .fin .. => (.inf a, 0)
  | .fin .., .inf b => (.inf b, 0)
  | .fin n1 m1 e1, .fin n2 m2 e2 => (addFin n1 m1 e1 n2 m2 e2, 0)

/-- The exact product of two values, with the invalid bit of 0 x inf and the nan_in bit of a NaN operand (Table 4.8a). -/
def Val.mul : Val → Val → Val × BitVec 4
  | .nan, _ => (.nan, Nib.nanIn)
  | _, .nan => (.nan, Nib.nanIn)
  | .inf a, .inf b => (.inf (a != b), 0)
  | .inf a, .fin n m _ => if m = 0 then (.nan, Nib.invalid) else (.inf (a != n), 0)
  | .fin n m _, .inf b => if m = 0 then (.nan, Nib.invalid) else (.inf (n != b), 0)
  | .fin n1 m1 e1, .fin n2 m2 e2 => (.fin (n1 != n2) (m1 * m2) (e1 + e2), 0)

/-- A real comparison of two finite magnitudes with signs: -1, 0, 1. -/
def cmpFin (n1 : Bool) (m1 : Nat) (e1 : Int) (n2 : Bool) (m2 : Nat) (e2 : Int) : Int :=
  match addFin n1 m1 e1 (!n2) m2 e2 with
  | .fin n m _ => if m = 0 then 0 else if n then -1 else 1
  | _ => 0

/-- Comparison of two values that are not NaN: -1, 0, 1; a zero equals a zero. -/
def Val.cmp : Val → Val → Int
  | .inf a, .inf b => if a = b then 0 else if a then -1 else 1
  | .inf a, _ => if a then -1 else 1
  | _, .inf b => if b then 1 else -1
  | .fin n1 m1 e1, .fin n2 m2 e2 => cmpFin n1 m1 e1 n2 m2 e2
  | _, _ => 0

/-! ### Rounding (R164, R165) -/

/-- A magnitude as a count of quanta and the discarded fraction: `(i + num / den) * 2^q`. -/
structure Quanta where
  i : Nat
  num : Nat
  den : Nat
  q : Int

/-- floor(log2) of a nonzero magnitude. -/
def magLog (m : Nat) (e : Int) : Int := (Nat.log2 m : Int) + e

/-- Cuts a nonzero magnitude into quanta of a format with mantissa width `M` and least exponent `emin` (R164). -/
def quanta (m : Nat) (e : Int) (M : Nat) (emin : Int) : Quanta :=
  let E := max (magLog m e) emin
  let q := E - M
  if q ≤ e then { i := alignTo m e q, num := 0, den := 1, q := q }
  else
    let d := 2 ^ (q - e).toNat
    { i := m / d, num := m % d, den := d, q := q }

/-- The rounding of a conversion: to nearest even, or stochastic with `n` bits and a draw (R165). -/
inductive Rnd
  | rne
  | sr (n : Nat) (r : Nat)
  deriving DecidableEq, Repr

/-- rnd_up of R165. -/
def rndUp (x : Quanta) : Rnd → Nat
  | .rne => if x.den < 2 * x.num then 1 else if 2 * x.num < x.den then 0 else x.i % 2
  | .sr n r => if 2 ^ n ≤ x.num * 2 ^ n / x.den + r then 1 else 0

/-- Parameters of a floating-point format (Table 5.3): mantissa width, bias, code of the largest finite value, whether it has
infinities, the code of +inf and of the NaN that the device writes, and the bit of the sign. -/
structure FpFmt where
  M : Nat
  bias : Nat
  maxCode : Nat
  hasInf : Bool
  infCode : Nat
  nanCode : Nat
  signBit : Nat
  deriving DecidableEq, Repr

def fpFP4 : FpFmt := ⟨1, 1, 0x7, false, 0, 0, 3⟩
def fpE4M3 : FpFmt := ⟨3, 7, 0x7E, false, 0, 0x7F, 7⟩
def fpE5M2 : FpFmt := ⟨2, 15, 0x7B, true, 0x7C, 0x7E, 7⟩
def fpBF16 : FpFmt := ⟨7, 127, 0x7F7F, true, 0x7F80, 0x7FC0, 15⟩
def fpFP16 : FpFmt := ⟨10, 15, 0x7BFF, true, 0x7C00, 0x7E00, 15⟩
def fpF32 : FpFmt := ⟨23, 127, 0x7F7FFFFF, true, 0x7F800000, 0x7FC00000, 31⟩

/-- The finite value of a code without its sign, R141. -/
def FpFmt.magOf (f : FpFmt) (c : Nat) : Nat × Int :=
  let e := c / 2 ^ f.M
  let m := c % 2 ^ f.M
  if e = 0 then (m, 1 - (f.bias : Int) - f.M) else (2 ^ f.M + m, (e : Int) - f.bias - f.M)

/-- The value of a code (R141, R143, Table 5.4). -/
def FpFmt.value (f : FpFmt) (code : Nat) : Val :=
  let neg := code.testBit f.signBit
  let c := code % 2 ^ f.signBit
  if c ≤ f.maxCode then
    let (m, e) := f.magOf c
    .fin neg m e
  else if f.hasInf && c = f.infCode then .inf neg
  else .nan

/-- Code of `i` quanta of `2^q` in a format (R164): the exponent field follows from where the leading bit stands. -/
def FpFmt.codeOf (f : FpFmt) (i : Nat) (q : Int) : Nat :=
  -- i < 2^(M+1), or = 2^(M+1) after a carry
  let (i, q) := if 2 ^ (f.M + 1) ≤ i then (i / 2, q + 1) else (i, q)
  if i < 2 ^ f.M then i
  else (q + f.M + f.bias).toNat * 2 ^ f.M + (i - 2 ^ f.M)

/-- convert_fp of R164: the code, and whether it overflowed. `ieee` is the clamp code IEEE. -/
def FpFmt.convert (f : FpFmt) (v : Val) (rnd : Rnd) (ieee : Bool) : Nat × Bool :=
  let sgn := fun n : Bool => if n then 2 ^ f.signBit else 0
  match v with
  | .nan => (f.nanCode, false)
  | .inf n => if f.hasInf then (f.infCode + sgn n, false) else (f.nanCode, false)
  | .fin n m e =>
    if m = 0 then (sgn n, false)
    else
      let x := quanta m e f.M (1 - (f.bias : Int))
      let i := x.i + rndUp x rnd
      let (mi, qi) := f.magOf f.maxCode
      if 0 < cmpFin false i x.q false mi qi then
        if ieee then (if f.hasInf then f.infCode + sgn n else f.nanCode, true) else (f.maxCode + sgn n, true)
      else (f.codeOf i x.q + sgn n, false)

/-! ### binary32 -/

/-- The value of a binary32 word. -/
def f32v (w : Word) : Val := fpF32.value w.toNat

/-- RNE to binary32 with IEEE overflow (R127), and whether a finite value became infinite. -/
def toF32o (v : Val) : Word × Bool :=
  let (c, o) := fpF32.convert v .rne true
  (BitVec.ofNat 32 c, o)

/-- RNE to binary32. -/
def toF32 (v : Val) : Word := (toF32o v).1

/-- A binary32 result and the bits that it raises. -/
abbrev FRes := Word × BitVec 4

/-- Nibble bit of an overflow. -/
def ovf (b : Bool) : BitVec 4 := if b then Nib.overflow else 0

/-- nan_in if either operand is NaN. -/
def nanIn2 (a b : Val) : BitVec 4 := if a = .nan || b = .nan then Nib.nanIn else 0

/-- a + b in binary32 (R196). -/
def fadd (a b : Word) : FRes :=
  let x := f32v a; let y := f32v b
  let (s, n) := x.add y
  let (w, o) := toF32o s
  (w, n ||| ovf o ||| nanIn2 x y)

/-- The sign bit of a binary32 word inverted. -/
def fneg (a : Word) : Word := a ^^^ 0x80000000

/-- a - b in binary32 (R196). -/
def fsub (a b : Word) : FRes :=
  let x := f32v a; let y := f32v b
  let (s, n) := x.add y.neg
  let (w, o) := toF32o s
  (w, n ||| ovf o ||| nanIn2 x y)

/-- a * b in binary32 (R196). -/
def fmul (a b : Word) : FRes :=
  let (p, n) := (f32v a).mul (f32v b)
  let (w, o) := toF32o p
  (w, n ||| ovf o)

/-- a * b + c with one rounding (R196). -/
def ffma (a b c : Word) : FRes :=
  let (p, n) := (f32v a).mul (f32v b)
  let (s, n') := p.add (f32v c)
  let (w, o) := toF32o s
  (w, n ||| n' ||| ovf o ||| nanIn2 (f32v c) (f32v c))

/-- A quotient of naturals as a value that rounds as the exact quotient does: 64 bits and a sticky bit. -/
def quotVal (neg : Bool) (num den : Nat) (e : Int) : Val :=
  let k := 64 + Nat.log2 den
  let q := num * 2 ^ k / den
  .fin neg (2 * q + b2n (num * 2 ^ k % den ≠ 0)) (e - k - 1)

/-- a / b in binary32 for finite `b` that is not zero. -/
def fdiv (a b : Word) : Word :=
  match f32v a, f32v b with
  | .fin n1 m1 e1, .fin n2 m2 e2 => if m1 = 0 then toF32 (.fin (n1 != n2) 0 0) else toF32 (quotVal (n1 != n2) m1 m2 (e1 - e2))
  | .inf n1, .fin n2 _ _ => toF32 (.inf (n1 != n2))
  | _, _ => 0x7FC00000

/-- A binary32 word of a natural number. -/
def f32OfNat (n : Nat) : Word := toF32 (.fin false n 0)

/-- Integer square root, bit by bit from 2^k down. -/
def isqrtFrom (n : Nat) : Nat → Nat → Nat
  | 0, r => if (r + 1) * (r + 1) ≤ n then r + 1 else r
  | k + 1, r =>
    let r' := r + 2 ^ (k + 1)
    isqrtFrom n k (if r' * r' ≤ n then r' else r)

/-- Integer square root. -/
def isqrt (n : Nat) : Nat := isqrtFrom n (Nat.log2 n / 2 + 1) 0

/-- sqrt(m * 2^e) with a sticky bit. -/
def sqrtVal (m : Nat) (e : Int) : Val :=
  let (m, e) := if e % 2 = 0 then (m, e) else (2 * m, e - 1)
  let n := m * 2 ^ 128
  let i := isqrt n
  .fin false (2 * i + b2n (i * i ≠ n)) (e / 2 - 64 - 1)

/-- 1 / sqrt(m * 2^e) with a sticky bit. -/
def rsqrtVal (m : Nat) (e : Int) : Val :=
  let (m, e) := if e % 2 = 0 then (m, e) else (2 * m, e - 1)
  let k := 64 + Nat.log2 m
  let n := 2 ^ (2 * k)
  let i := isqrt (n / m)
  .fin false (2 * i + b2n (i * i * m ≠ n)) (-(e / 2) - k - 1)

/-- sqrt in binary32 of a value that is not negative. -/
def fsqrt (a : Word) : Word :=
  match f32v a with
  | .fin n m e => if m = 0 then toF32 (.fin n 0 0) else toF32 (sqrtVal m e)
  | .inf _ => 0x7F800000
  | .nan => 0x7FC00000

/-- Product of the roots 2^(2^-j) for the bits of a fraction, in fixed point with 256 bits; `c` is the present root. -/
def exp2Frac (c acc : Nat) : List Bool → Nat
  | [] => acc
  | b :: bs => exp2Frac (isqrt (c * 2 ^ 256)) (if b then acc * c / 2 ^ 256 else acc) bs

/-- Bits of a fraction `p / 2^k`, most significant first. -/
def fracBits (p : Nat) : Nat → List Bool
  | 0 => []
  | k + 1 => p.testBit k :: fracBits p k

/-- 2^x for a finite x as a value that rounds as the exact one does: 256 fraction bits and, where x is no integer, a sticky
bit (DEDUCED, log entry 12: no binary32 case lies nearer to a rounding boundary). -/
def exp2Val (neg : Bool) (m : Nat) (e : Int) : Val :=
  -- x = z + p / 2^k
  let k := if e < 0 then (-e).toNat else 0
  let x : Int := if neg then -(m * 2 ^ e.toNat : Int) else (m * 2 ^ e.toNat : Int)
  let z := x / 2 ^ k
  let p := (x % 2 ^ k).toNat
  if p = 0 then .fin false 1 z
  else
    let c := isqrt (2 * 2 ^ 512)
    let y := exp2Frac c (2 ^ 256) (fracBits p k)
    .fin false (2 * y + 1) (z - 257)

/-- Fraction bits of log2 of `y / 2^320` in [1, 2), most significant first, by repeated squaring. -/
def log2Bits (y acc : Nat) : Nat → Nat
  | 0 => acc
  | k + 1 =>
    let y2 := y * y / 2 ^ 320
    if 2 ^ 321 ≤ y2 then log2Bits (y2 / 2) (2 * acc + 1) k else log2Bits y2 (2 * acc) k

/-- log2 of a positive finite value, with 128 fraction bits and a sticky bit (log entry 12). -/
def log2Val (m : Nat) (e : Int) : Val :=
  let l := Nat.log2 m
  let z := (l : Int) + e
  if m = 2 ^ l then .ofInt z
  else
    let f := log2Bits (m * 2 ^ 320 / 2 ^ l) 0 128
    -- z + f / 2^128, sticky below
    let t : Int := z * 2 ^ 129 + (2 * f + 1 : Nat)
    .fin (decide (t < 0)) t.natAbs (-129)

/-! ### Formats (Tables 5.1, 5.2, 5.7, 5.8) -/

/-- Bits of an element of a format. -/
def fmtBits (f : Nat) : Nat := if f < 4 then 4 else if f < 8 then 8 else 16

/-- Operand class: 0 4-bit, 1 8-bit, 2 16-bit (Table 4.6). -/
def fmtClass (f : Nat) : Nat := if f < 3 then 0 else if f < 8 then 1 else 2

/-- The format holds integers. -/
def fmtInt (f : Nat) : Bool := f = 0 || f = 1 || f = 4 || f = 5 || f = 10

/-- The format is unsigned with a zero point. -/
def fmtUint (f : Nat) : Bool := f = 1 || f = 5

/-- The parameters of a floating-point format code. -/
def fpOf (f : Nat) : FpFmt :=
  match f with
  | 2 => fpFP4
  | 6 => fpE4M3
  | 7 => fpE5M2
  | 9 => fpFP16
  | 12 => fpF32
  | _ => fpBF16

/-- emax of a format (Tables 5.3, 5.6). -/
def fmtEmax (f : Nat) : Int :=
  match f with
  | 0 => 2
  | 1 => 2
  | 2 => 2
  | 4 => 6
  | 5 => 6
  | 6 => 8
  | 7 => 15
  | 9 => 15
  | 10 => 14
  | _ => 127

/-- Elements of a block; 0 for NONE (Table 5.7). -/
def blkLen (b : Nat) : Nat :=
  match b with
  | 1 => 16
  | 2 => 32
  | 3 => 64
  | 4 => 128
  | _ => 0

/-- Scale bytes of a tile row: the blocks that touch it. -/
def scalesPerRow (b : Nat) : Nat :=
  match b with
  | 1 => 4
  | 2 => 2
  | 3 => 1
  | 4 => 1
  | _ => 0

/-- Bytes of a tile row's elements (R227). -/
def rowBytes (f : Nat) : Nat := 8 * fmtBits f

/-- Bytes of a packed tile (Table 5.8, R153). -/
def packedSize (f b : Nat) : Nat := if f = 11 then 16384 else 64 * scalesPerRow b + 64 * rowBytes f

/-- Bytes of an engine-ready tile (Table 8.2). -/
def readySize (f b : Nat) : Nat := 64 + packedSize f b

/-- The value of an element code before its scale: integers less their zero point, LUT4 by its table (R122, R146, R149). -/
def elemVal (f zp : Nat) (lut : Nat → Nat) (code : Nat) : Val :=
  match f with
  | 0 => .ofInt (BitVec.ofNat 4 code).toInt
  | 1 => .ofInt ((code % 16 : Int) - zp)
  | 3 => fpFP16.value (lut (code % 16))
  | 4 => .ofInt (BitVec.ofNat 8 code).toInt
  | 5 => .ofInt ((code % 256 : Int) - zp)
  | 10 => .ofInt (BitVec.ofNat 16 code).toInt
  | _ => (fpOf f).value code

/-- expand of R122: an element with its block scale, if any. -/
def expand (f zp : Nat) (lut : Nat → Nat) (code : Nat) (scale : Option Nat) : Val :=
  match scale with
  | none => elemVal f zp lut code
  | some 255 => .nan
  | some c => (elemVal f zp lut code).scale ((c : Int) - 127)

/-! ### Conversion to stored formats (R164-R167, R176) -/

/-- choose_scale of R176. -/
def chooseScale (vs : List Val) (f : Nat) (headroom : Bool) : Nat :=
  if f = 2 && vs.any (fun v => !v.isFin) then 255
  else
    let logs := vs.filterMap fun v => match v with
      | .fin _ m e => if m = 0 then none else some (magLog m e)
      | _ => none
    match logs with
    | [] => 127
    | l :: ls =>
      let e := ls.foldl max l - fmtEmax f + (if headroom then 1 else 0)
      (min (max e (-127)) 127 + 127).toNat

/-- Least and greatest code of an integer format of width `w`. -/
def intRange (uns : Bool) (w : Nat) : Int × Int :=
  if uns then (0, 2 ^ w - 1) else (-(2 ^ (w - 1)), 2 ^ (w - 1) - 1)

/-- An integer brought into a range by saturation or wrapping, and whether it was outside. -/
def fitInt (uns : Bool) (w : Nat) (wrap : Bool) (y : Int) : Nat × Bool :=
  let (lo, hi) := intRange uns w
  if lo ≤ y ∧ y ≤ hi then ((BitVec.ofInt w y).toNat, false)
  else if wrap then ((BitVec.ofInt w y).toNat, true)
  else ((BitVec.ofInt w (if y < lo then lo else hi)).toNat, true)

/-- Conversion to an integer of width `w` (R167): the code and the sat bit. -/
def convertInt (v : Val) (uns : Bool) (w : Nat) (zp : Nat) (rnd : Rnd) (wrap : Bool) : Nat × BitVec 4 :=
  let z : Int := if uns then zp else 0
  match v with
  | .nan => ((BitVec.ofInt w z).toNat, 0)
  | .inf n =>
    let (lo, hi) := intRange uns w
    ((BitVec.ofInt w (if n then lo else hi)).toNat, Nib.sat)
  | .fin n m e =>
    let i : Nat := if m = 0 then 0
      else if 0 ≤ e then alignTo m e 0
      else
        let d := 2 ^ (-e).toNat
        let x : Quanta := { i := m / d, num := m % d, den := d, q := 0 }
        x.i + rndUp x rnd
    let (c, o) := fitInt uns w wrap ((if n then -(i : Int) else i) + z)
    (c, if o then Nib.sat else 0)

/-- One element written to a stored format: the value already divided by its scale (R164, R167). -/
def convertTo (f : Nat) (v : Val) (zp : Nat) (rnd : Rnd) (ieee wrap : Bool) : Nat × BitVec 4 :=
  if fmtInt f then convertInt v (fmtUint f) (fmtBits f) zp rnd wrap
  else
    let (c, o) := (fpOf f).convert v rnd ieee
    (c, ovf o)

/-- Codes of one block with the bits that each element raises, and the block's scale byte. FP4 carries a NaN in the scale (R157,
R166, R176). -/
def convertBlock (f : Nat) (useScale headroom : Bool) (vs : List (Val × Rnd)) (zp : Nat) (ieee wrap : Bool) :
    List (Nat × BitVec 4) × Nat :=
  let sc := if useScale then chooseScale (vs.map (·.1)) f headroom else 127
  if sc = 255 then (vs.map fun _ => (0, 0), 255)
  else
    let e : Int := (sc : Int) - 127
    let rs := vs.map fun x => convertTo f (x.1.scale (-e)) zp x.2 ieee wrap
    -- FP4 under the clamp IEEE: an overflow makes the whole block NaN (Table 6.1)
    if f = 2 && ieee && useScale && rs.any (fun r => (r.2 &&& Nib.overflow) ≠ 0) then (rs.map fun r => (0, r.2), 255)
    else (rs, sc)

/-- PAIR16 of a binary32 word: high and residual codes (R152). -/
def pair16 (acc : Word) : Nat × Nat :=
  match f32v acc with
  | .nan => (0x7FC0, 0)
  | .inf n => (if n then 0xFF80 else 0x7F80, 0)
  | .fin n m e =>
    let (h, _) := fpBF16.convert (.fin n m e) .rne false
    if m = 0 then (h, 0)
    else
      let r := ((Val.fin n m e).add (fpBF16.value h).neg).1
      (h, (fpBF16.convert (f32v (toF32 r)) .rne false).1)

/-- The BF16 code of a binary32 word by RNE. -/
def bf16Of (w : Word) : Nat := (fpBF16.convert (f32v w) .rne true).1

/-- A BF16 code widened to binary32, exactly. -/
def widenBf16 (c : Nat) : Word := BitVec.ofNat 32 (c % 65536 * 65536)

/-! ### Maximum and minimum (R181, Table 6.5) -/

/-- The larger of two binary32 words. -/
def fmax (a b : Word) : Word :=
  let x := f32v a; let y := f32v b
  if x = .nan || y = .nan then 0x7FC00000
  else if x.cmp y = 0 then (if a.toNat < b.toNat then a else b) else if 0 < x.cmp y then a else b

/-- The smaller of two binary32 words. -/
def fmin (a b : Word) : Word :=
  let x := f32v a; let y := f32v b
  if x = .nan || y = .nan then 0x7FC00000
  else if x.cmp y = 0 then (if a.toNat < b.toNat then b else a) else if x.cmp y < 0 then a else b

/-! ### Lane generators (R168, R169, R175) -/

/-- step of R168. -/
def lstep (x : BitVec 64) : BitVec 64 :=
  let x := x ^^^ (x <<< 13)
  let x := x ^^^ (x >>> 7)
  x ^^^ (x <<< 17)

/-- draw(n) of R168: the bits and the new state. -/
def ldraw (n : Nat) (x : BitVec 64) : Nat × BitVec 64 :=
  let y := lstep x
  (y.toNat / 2 ^ (64 - n), y)

/-- mix64 of R169. -/
def mix64 (z : BitVec 64) : BitVec 64 :=
  let z := (z ^^^ (z >>> 30)) * 0xBF58476D1CE4E5B9
  let z := (z ^^^ (z >>> 27)) * 0x94D049BB133111EB
  z ^^^ (z >>> 31)

/-- seed_lane of R169. -/
def seedLane (seed : BitVec 64) (l : Nat) : BitVec 64 :=
  let x := mix64 (seed ^^^ (BitVec.ofNat 64 (l + 1) * 0x9E3779B97F4A7C15))
  if x = 0 then 1 else x

/-! ### The divergence meter (R182) -/

/-- meter_block of R182: s, sx, nf and mse. -/
def meterBlock (ps : List (Word × Word)) : Word × Word × Nat × Word :=
  let (s, sx, nf) := ps.foldl (fun (a : Word × Word × Nat) p =>
    if (f32v p.1).isFin && (f32v p.2).isFin then
      let d := (fsub p.1 p.2).1
      ((fadd a.1 (fmul d d).1).1, (fadd a.2.1 (fmul p.1 p.1).1).1, a.2.2)
    else (a.1, a.2.1, a.2.2 + 1)) ((0 : Word), (0 : Word), 0)
  (s, sx, nf, if nf < ps.length then fdiv s (f32OfNat (ps.length - nf)) else 0x7FC00000)

/-- The larger of two mse values; a NaN counts as the largest (R183). -/
def mseMax (a b : Word) : Word :=
  if f32v a = .nan || f32v b = .nan then 0x7FC00000 else if (f32v a).cmp (f32v b) < 0 then b else a

end Sys2Proof.Machine
end

