-- ==== Sys2Proof/Machine/Sparse.lean ====
section
/-! DEFINITION. Sparse tables: a list of (key, value) pairs in one canonical form, with a stated value for every key
that is not listed. Every table of the state that is too long to write out (registers, bytes of tier F, banks, tints,
sessions, lane generators) is one of these. -/

namespace Sys2Proof.Machine

/-- A sparse table: keys strictly rising, no entry equal to what an unlisted key reads as (`Sparse.wf`). -/
abbrev Sparse (β : Type) := List (Nat × β)

/-- The value at `k`; `d` says what an unlisted key reads as. -/
def Sparse.get {β : Type} (d : Nat → β) : Sparse β → Nat → β
  | [], k => d k
  | (k', v) :: rest, k => if k = k' then v else if k < k' then d k else Sparse.get d rest k

/-- Puts an entry into its place; writing what an unlisted key reads as removes the entry. -/
def Sparse.set {β : Type} [DecidableEq β] (d : Nat → β) : Sparse β → Nat → β → Sparse β
  | [], k, v => if v = d k then [] else [(k, v)]
  | (k', v') :: rest, k, v =>
    if k = k' then (if v = d k then rest else (k, v) :: rest)
    else if k < k' then (if v = d k then (k', v') :: rest else (k, v) :: (k', v') :: rest)
    else (k', v') :: Sparse.set d rest k v

/-- All keys of the table lie above `lo`. -/
def Sparse.above {β : Type} (lo : Nat) (m : Sparse β) : Bool := m.all fun e => decide (lo < e.1)

/-- The canonical form: keys strictly rising, no entry equal to the value of an unlisted key. -/
def Sparse.wf {β : Type} [DecidableEq β] (d : Nat → β) : Sparse β → Bool
  | [] => true
  | (k, v) :: rest => decide (v ≠ d k) && Sparse.above k rest && Sparse.wf d rest

/-- Writes a run of values at consecutive keys. -/
def Sparse.setRun {β : Type} [DecidableEq β] (d : Nat → β) (m : Sparse β) (k : Nat) : List β → Sparse β
  | [] => m
  | v :: vs => Sparse.setRun d (Sparse.set d m k v) (k + 1) vs

/-- Reads a run of `n` values at consecutive keys. -/
def Sparse.getRun {β : Type} (d : Nat → β) (m : Sparse β) (k : Nat) : Nat → List β
  | 0 => []
  | n + 1 => Sparse.get d m k :: Sparse.getRun d m (k + 1) n

/-- Removes every entry whose key satisfies `p`: those keys then read as unlisted. -/
def Sparse.drop {β : Type} (m : Sparse β) (p : Nat → Bool) : Sparse β := m.filter fun e => !p e.1

/-- Changes every listed entry; an entry that becomes equal to the unlisted value is removed. -/
def Sparse.mapListed {β : Type} [DecidableEq β] (d : Nat → β) (f : Nat → β → β) (m : Sparse β) : Sparse β :=
  (m.map fun e => (e.1, f e.1 e.2)).filter fun e => decide (e.2 ≠ d e.1)

end Sys2Proof.Machine
end

