-- ==== Sys2Proof/Machine/State.lean ====
section
/-! DEFINITION. The state of the block: every register, table, queue, counter, mode and pin that the spec gives it, as
plain data, the state after reset, and the reasons a command can stop. Each field's docstring names the spec file, the rule
and the reset value. -/

namespace Sys2Proof.Machine

/-- Why a command faults. Nothing in this block faults: an event whose condition does not hold has no effect, and every
failure the spec describes is a state of the block. -/
inductive Fault
  deriving DecidableEq, Repr

/-- Why a command is refused. -/
inductive Refusal
  /-- A command that has no meaning yet, by its mnemonic. Raised by the dispatch only. Safe: the machine stops. -/
  | notModelled (mnemonic : String)
  /-- A JTAG debug instruction in lifecycle DEVELOPMENT (R532, R470): the spec enables the debug unit and does not say what
  the instruction does there. Raised by JTAG_DEBUG. Safe: the machine stops. -/
  | debugUnit (code : Byte)
  deriving DecidableEq, Repr

/-! ### Rounding lanes and the dailies' counts (chapters 6 and 13) -/

/-- The lane generators of one owner: partitions 0-31 and the house (R171). -/
structure LaneSet where
  /-- Job seed from which an unlisted lane's state follows by seed_lane (06, R169, R171; reset 0). -/
  seed : BitVec 64
  /-- States of lanes that have drawn (06, R171; reset none). -/
  states : Sparse (Option (BitVec 64))
  deriving DecidableEq, Repr

/-- What the dailies record of one owner counts in the present frame (Table 13.11). -/
structure Tally where
  /-- exc_tiles: tiles drained with nibble bits 0-3 set (13, R393; reset 0). -/
  exc : List Nat
  /-- vec_nibble (13, R393; reset 0). -/
  vecNibble : BitVec 4
  /-- meter_s, binary32 (06, R183; reset 0). -/
  meterS : Word
  /-- meter_pairs, binary32 (06, R183; reset 0). -/
  meterPairs : Word
  /-- meter_max, binary32 (06, R183; reset 0). -/
  meterMax : Word
  /-- completions: records written per code of Table 13.8 (13, R393; reset 0). -/
  completions : List Nat
  /-- bays_bound (13, R393; reset 0). -/
  baysBound : Nat
  /-- bays_train (13, R393; reset 0). -/
  baysTrain : Nat
  /-- tokens_served (13, R393; reset 0). -/
  served : Nat
  /-- tokens_trained (13, R393; reset 0). -/
  trained : Nat
  /-- retakes (13, R393; reset 0). -/
  retakes : Nat
  /-- inserts (13, R393; reset 0). -/
  inserts : Nat
  /-- fetched (13, R393; reset 0). -/
  fetched : Nat
  /-- Flag [5]: a commit record was rejected (13, R393; reset 0). -/
  rejected : Bool
  deriving DecidableEq, Repr

/-- What a register read answers (R368, R370). -/
inductive UclResp
  /-- Nothing has been read yet. -/
  | none
  /-- The read's 32-bit value. -/
  | data (v : Word)
  /-- The UCL error response of R370. -/
  | error
  deriving DecidableEq, Repr

/-! ### Timebase (chapter 2) -/

/-- The timebase, the frame counters and the follower's discipline. Writable TB register fields live in `State.regs`. -/
structure Timebase where
  /-- TB, nanoseconds since PERST_N was released (02, R39; reset 0). -/
  tb : BitVec 64
  /-- TB counts: PERST_N is released and a clock drives it (02, R39, 17, R483; reset 1). -/
  counting : Bool
  /-- FN of the current frame (02, R45; reset 0). -/
  fn : BitVec 32
  /-- Wrap epoch in force (02, R46; reset held epoch, 0 from the factory). -/
  epoch : BitVec 16
  /-- Held epoch in MRAM (02, R46; reset 0 when the device leaves the factory). -/
  heldEpoch : BitVec 16
  /-- T(FN), the timestamp of the last tick (02, R43; reset 0). -/
  tLast : BitVec 64
  /-- T(FN+1), the expected time of the next tick while frames run or a start is due (02, R44, R58; reset 0). -/
  tNext : BitVec 64
  /-- Frames are being started: TB_STATUS.running (02, R75; reset 0). -/
  running : Bool
  /-- A start was accepted and its first tick has not come (02, R58; reset 0). -/
  startDue : Bool
  /-- An accepted stop waits for the end of the frame (02, R59; reset 0). -/
  stopPending : Bool
  /-- A write of run = 1 is queued behind the stop (02, R59; reset 0). -/
  restartQueued : Bool
  /-- A restarted follower waits for a synchronisation (02, R59; reset 0). -/
  waitSync : Bool
  /-- The commit point of the current frame has passed (02, R44; reset 0). -/
  cpPassed : Bool
  /-- Ticks since frames started, saturating at 2: the first frame has no commit before it (02, R546; reset 0). -/
  ticksRun : Nat
  /-- TB_PROFILE.active (02, R75; reset 0). -/
  active : BitVec 2
  /-- TB_PROFILE.next (02, R75; reset 0). -/
  next : BitVec 2
  /-- TB_PROFILE.pending (02, R75; reset 0). -/
  pending : Bool
  /-- The profile of frame n+2 as the tick word of frame n+1 will announce it (02, R53; reset 0). -/
  announced : BitVec 2
  /-- A rehearsal preset is armed: TB_REHEARSE.arm (02, R74; reset 0). -/
  presetArmed : Bool
  /-- Shadow read by TB_NOW_HI (02, R75; reset 0). -/
  nowHi : Word
  /-- Shadow read by TB_TICK_LAST_HI (02, R75; reset 0). -/
  lastHi : Word
  /-- TB_STATUS.locked of a follower (02, R67; reset 0). -/
  locked : Bool
  /-- TB_STATUS.holdover (02, R70; reset 0). -/
  holdover : Bool
  /-- The last received word had holdover set (02, R63; reset 0). -/
  upstreamHoldover : Bool
  /-- TB_STATUS.src_active: 0 own TB, 1 primary, 2 secondary (02, R75; reset 0). -/
  srcActive : BitVec 2
  /-- TB_PHASE_ERR.e_ns (02, R75; reset 0). -/
  phaseErr : BitVec 16
  /-- Phase correction in ns spread over the present frame (02, R66; reset 0). -/
  phaseStep : Int
  /-- A phase correction computed from an accepted word, starting at the next tick (02, R66; reset 0). -/
  phaseNext : Int
  /-- TB_MISS_CNT.misses (02, R75; reset 0). -/
  missCnt : Word
  /-- TB_FREQ_ADJ.freq_ppb, signed (02, R66; reset 0). -/
  freqPpb : Int
  /-- Consecutive accepted ticks with |e| at most 4 ns (02, R67; reset 0). -/
  lockRun : Nat
  /-- Consecutive accepted ticks with |e| above 4 ns (02, R67; reset 0). -/
  alignRun : Nat
  /-- Consecutive accepted ticks, for leaving holdover (02, R71; reset 0). -/
  acceptRun : Nat
  /-- Consecutive accepted ticks of the primary source (02, R68; reset 0). -/
  primaryRun : Nat
  /-- Consecutive ticks missed by the primary source (02, R69; reset 0). -/
  missPrimary : Nat
  /-- Consecutive ticks missed by the secondary source (02, R69; reset 0). -/
  missSecondary : Nat
  /-- The secondary source delivered an accepted word for the present tick (02, R68; reset 0). -/
  secondaryOk : Bool
  /-- The profile named by the word accepted for the present tick, if it differs from the expected one (02, R73; reset none). -/
  wordProfile : Option (BitVec 2)
  /-- The tick word of the last tick, which the beacons carry (02, R61, R64; reset 0). -/
  wordOut : BitVec 128
  /-- The tick word launched on TICK_OUT at the last tick, if tick_out_en is 1 (02, R63; reset none). -/
  tickOut : Option (BitVec 128)
  /-- TB_BCN_DLYn.delay_ns and valid, ports 0-7 (02, R64, R75; reset 0, not valid). -/
  bcnDelay : List (BitVec 16 × Bool)
  /-- offset of the last two-way exchange on ports 0-7, in ns (02, R64; reset 0). -/
  bcnOffset : List Int
  /-- Epoch in force before the last tick: the local epoch of a word whose tick has fired (02, R65; reset held epoch). -/
  lastEpoch : BitVec 16
  /-- FN of the last tick for which the follower accepted a word that it disciplines by (02, R67, R71; reset none). -/
  acceptFn : Option (BitVec 32)
  /-- An accepted word named another profile than expected for the present frame: fallbacks play (02, R73; reset 0). -/
  mismatch : Bool
  /-- Nanoseconds of the frame's phase correction that are not yet slewed (02, R40, R66; reset 0). -/
  phaseLeft : Int
  /-- Frequency correction gathered and not yet slewed, in 10^-9 ns (02, R40, R66; reset 0). -/
  freqAcc : Int
  /-- TB of the last slew (02, R40; reset 0). -/
  slewTb : Nat
  deriving DecidableEq, Repr

/-! ### Rings and the pending store (chapter 13) -/

/-- States of a ring (QUE_SQn_STATE and QUE_CQn_STATE). -/
inductive RingMode | off | on | draining | halted
  deriving DecidableEq, Repr

/-- A ring pointer: index and phase (R372). -/
structure RingPtr where
  /-- Index below 2^k (13, R372; reset 0). -/
  index : BitVec 16
  /-- Phase (13, R372; reset 1). -/
  phase : Bool
  deriving DecidableEq, Repr

/-- One submission ring; base, doorbell and configuration fields live in `State.regs`. -/
structure SubRing where
  /-- Ring state (13, R397; reset OFF). -/
  mode : RingMode
  /-- The device's head (13, R372; reset (0, 1)). -/
  head : RingPtr
  /-- The tail known from the doorbell word (13, R374; reset (0, 1)). -/
  tail : RingPtr
  /-- Timestamps of the observations whose tails cover entries not yet fetched: (tail, time), oldest first; without a time where the
  entries' fetch was deferred (13, R376; reset empty). -/
  seen : List (RingPtr × Option (BitVec 64))
  deriving DecidableEq, Repr

/-- One completion ring. -/
structure CompRing where
  /-- Ring state (13, R397; reset OFF). -/
  mode : RingMode
  /-- The device's tail (13, R372; reset (0, 1)). -/
  tail : RingPtr
  /-- The host's head as last read from the doorbell word (13, R387; reset (0, 1)). -/
  head : RingPtr
  deriving DecidableEq, Repr

/-- A completion decided for an item and not yet written (R384-R387). -/
structure Done where
  /-- Status code of Table 13.8 (13, R388). -/
  status : Byte
  /-- Exception nibble of the info byte (13, R384). -/
  info : BitVec 4
  /-- Result field of Table 13.7, bytes 0x10 to 0x1F (13, R385). -/
  result : BitVec 128
  /-- Output areas written just before the record: host address and bytes (13, R386). -/
  outs : List (Nat × Blob)
  deriving DecidableEq, Repr

/-- What a fetched descriptor is waiting for. -/
inductive ItemPhase
  /-- Fetched; its own chapter's checks have not run. -/
  | fetched
  /-- Accepted by its chapter's checks and waiting to act or to be bound. -/
  | waiting
  /-- A request observed; its commit point has not come (R24). -/
  | observed
  /-- The commit point has passed: due at the next tick (R24). -/
  | armed
  /-- Due: the effect command acts now. -/
  | due
  /-- In passage: bound in a bay and played (R101). -/
  | passage
  /-- In progress on a shared mechanism (a load, a pass, a save). -/
  | busy
  /-- Decided; the completion is held by checked delivery (R343). -/
  | held
  /-- Decided; the completion record may be written. -/
  | done
  deriving DecidableEq, Repr

/-- Where a request stands that takes effect at a tick fixed by its observation (R24). -/
inductive Wait
  /-- Observed at a TB; the commit point later than it, which fixes its tick, has not come. -/
  | observed (at_ : Nat)
  /-- Its tick is the next one. -/
  | armed
  /-- Its tick has come. -/
  | due
  deriving DecidableEq, Repr

/-- One descriptor of a pending store (R378). -/
structure Item where
  /-- The descriptor's 64 bytes, byte k at bits [8k+7:8k] (13, R379). -/
  raw : BitVec 512
  /-- Observation timestamp (13, R376). -/
  obs : BitVec 64
  /-- Order of observation over the device (13, R376). -/
  order : Nat
  /-- Phase of the item's life. -/
  phase : ItemPhase
  /-- The completion, once decided. -/
  done : Option Done
  /-- Times the item returned to pending (03, R101). -/
  returns : Nat
  /-- A frame of its passage was held beyond the guard band, or it re-entered (03, R100). -/
  late : Bool
  /-- It waited for its tint to be reloaded (10, R311). -/
  reloaded : Bool
  /-- A bay of its batch was retaken or its step skipped (11, R326). -/
  retaken : Bool
  /-- Frames of its passage so far (01, R29). -/
  layers : Nat
  /-- First frame in which the item is eligible: none until its commit point is known (01, R23). -/
  eligible : Option (BitVec 32)
  /-- The frame at which a checked-delivery hold began (11, R343). -/
  heldFrom : BitVec 32
  /-- A descriptor-specific number: the tint, context, slot or handle that the item has claimed, or a sample's tokens with a
  target (11, R334). -/
  aux : Nat
  /-- Segments of a training sample: its length over its bay's rows, rounded up (11, R322; reset 0). -/
  segs : Nat
  /-- Passes of a training sample that have ended (11, R322; reset 0). -/
  stage : Nat
  /-- FN of the last frame of its passage in which its bay was played (11, R342; reset 0). -/
  lastFn : BitVec 32
  /-- FN of the first frame in which it computed (11, R343; reset 0). -/
  firstFn : BitVec 32
  /-- Vector units that ran a cue for it (11, R343; reset 0). -/
  units : BitVec 32
  /-- A suspect window covers a frame of its passage: under checked delivery it ends with CHECK_FAILED (11, R343; reset 0). -/
  suspect : Bool
  /-- Token IDs that a SERVE_PREFILL or a TRAIN_SAMPLE has read (10, R304, 11, R322; reset none). -/
  ids : List Nat
  /-- shape_id of the bay in which its pass, or a sample's first pass, entered (11, R329, R332; reset none). -/
  shape : Option Nat
  deriving DecidableEq, Repr

/-- Dailies ring of a set (R392-R394). -/
structure Dailies where
  /-- The ring is armed: QUE_STATUS.dailies_armed (13, R392; reset 0). -/
  armed : Bool
  /-- A change that takes effect at the next tick: arm, log2 records, base (13, R392; reset none). -/
  pending : Option (Bool × Nat × BitVec 64)
  /-- Ring base (13, R381; reset 0). -/
  base : BitVec 64
  /-- log2 of the ring's records (13, R381; reset 0). -/
  log2 : Nat
  /-- Next record (13, R392; reset 0). -/
  index : Nat
  /-- Phase written in the slate (13, R392; reset 1). -/
  phase : Bool
  /-- Queued events, oldest first, 16 bytes each (13, R394; reset empty). -/
  events : List (BitVec 128)
  /-- Events dropped since the last record (13, R394; reset 0). -/
  eventsLost : Nat
  /-- Finished records that wait for a house HOST cue of the next frame: host address and the 512 bytes (13, R392; reset empty). -/
  out : List (Nat × Blob)
  deriving DecidableEq, Repr

/-- One ring set. -/
structure RingSet where
  /-- SQ0-SQ15 (13, R371; reset all OFF). -/
  sq : List SubRing
  /-- CQ0-CQ15 (13, R371; reset all OFF). -/
  cq : List CompRing
  /-- Watch share QUE_SHARE.watches (13, R397; reset 0). -/
  watches : Nat
  /-- Pending share QUE_SHARE.pend (13, R397; reset 0). -/
  pend : Nat
  /-- Doorbell words as last read: (line address × 16 + word, value) (13, R374; reset empty). -/
  lastRead : Sparse Word
  /-- The set's dailies ring (13, R392). -/
  dailies : Dailies
  deriving DecidableEq, Repr

/-- A UCL port (R365, R366, QUE_UCLn). -/
structure UclPort where
  /-- QUE_UCLn.up (13, R397; reset 0). -/
  up : Bool
  /-- QUE_UCLn.grey (13, R366; reset 0). -/
  grey : Bool
  /-- QUE_UCLn.lanes (13, R397; reset 0). -/
  lanes : BitVec 5
  /-- QUE_UCLn.replays since cold reset (13, R397; reset 0). -/
  replays : BitVec 16
  /-- Flits replayed in the present frame (13, R366; reset 0). -/
  frameReplays : Nat
  /-- The port failed link training (13, R366; reset 0). -/
  failed : Bool
  deriving DecidableEq, Repr

/-! ### Safety and the continuity log (chapter 17) -/

/-- A staged continuity-log record (Table 17.5); `seq` and the slot are fixed at its commit. -/
structure LogRec where
  /-- Event code (17, R492). -/
  code : BitVec 16
  /-- The code that orders the record among records of one timestamp: a CONT record takes that of the record it continues (17, R491, R493). -/
  ord : BitVec 16
  /-- Timestamp (17, R492). -/
  tb : BitVec 64
  /-- FN of the event's frame (17, R492). -/
  fn : BitVec 32
  /-- Wrap epoch (17, R492). -/
  epoch : BitVec 16
  /-- Cold resets since manufacture (17, R492). -/
  boot : BitVec 16
  /-- Owner (17, R492). -/
  owner : Byte
  /-- Unit kind (17, R492). -/
  kind : Byte
  /-- Unit index (17, R492). -/
  unit : Word
  /-- Records dropped before this one (17, R491). -/
  lost : BitVec 16
  /-- Flags (17, R492). -/
  flags : BitVec 16
  /-- a0 to a6 (17, R492). -/
  args : List Word
  deriving DecidableEq, Repr

/-- The continuity log. -/
structure Clog where
  /-- Life count N (17, R490; reset 0 from the factory). -/
  n : BitVec 48
  /-- Staging buffer, oldest first, at most 32 (17, R491; reset empty). -/
  staged : List LogRec
  /-- The MRAM slots: 64 bytes each, byte k at bits [8k+7:8k]; an unlisted slot is unwritten (17, R490; reset empty from the factory). -/
  mram : Sparse (Option (BitVec 512))
  /-- CLG_LOST.count (17, R498; reset 0 from the factory). -/
  lostTotal : Word
  /-- Records dropped since the last staged one (17, R491; reset 0). -/
  dropped : Nat
  /-- Shadow read by CLG_COUNT_HI (17, R498; reset 0). -/
  countHi : BitVec 16
  /-- The SRD runs on the hold-up capacitor (17, R494; reset 0). -/
  holdup : Bool
  /-- The SRD's own 2 us commit moments since standby power-on, before TB runs (17, R491; reset 0). -/
  standbyMoments : Nat
  deriving DecidableEq, Repr

/-- A fence request of SAF_FENCE_REQ that waits for its effective tick. -/
structure FenceReq where
  /-- Unit kind 5-8 (17, R489). -/
  kind : Nat
  /-- Unit index (17, R489). -/
  unit : Nat
  /-- TB of the request (17, R486). -/
  since : Nat
  /-- Its commit point has passed, or it needs none (17, R486-R488). -/
  armed : Bool
  /-- Due at the present tick (17, R486-R488). -/
  due : Bool
  /-- Detected (false) or requested (true): a0 of the FENCE record (17, R493). -/
  requested : Bool
  deriving DecidableEq, Repr

/-- The safety block of the SRD. -/
structure Safety where
  /-- SAF_STATUS.safe (17, R483; reset 0). -/
  safe : Bool
  /-- SAF_CAUSE.class (17, R484; reset 0). -/
  causeClass : Byte
  /-- SAF_CAUSE.kind (17, R497; reset 0). -/
  causeKind : Byte
  /-- SAF_CAUSE.unit (17, R497; reset 0). -/
  causeUnit : BitVec 16
  /-- SAF_CAUSE_FN (17, R497; reset 0). -/
  causeFn : BitVec 32
  /-- TB of the detection that set the cause (17, R484; reset 0). -/
  causeTb : BitVec 64
  /-- Level of HB_A: SAF_STATUS.hb (17, R482; reset low). -/
  hbA : Bool
  /-- Level of HB_B (17, R482; reset low). -/
  hbB : Bool
  /-- SAF_FENCE_CNTk, k = 0-10 (17, R497; reset 0). -/
  fenceCnt : List Word
  /-- Grey partitions (17, R485; reset none). -/
  greyParts : List Nat
  /-- Grey tints (17, R485; reset none). -/
  greyTints : List Nat
  /-- Grey sessions (17, R485; reset none). -/
  greySessions : List Nat
  /-- Fences of kinds 5-8 that wait for their tick (17, R486-R489; reset none). -/
  reqs : List FenceReq
  /-- Consecutive-skip counts of logical arrays (17, R480; reset 0). -/
  skips : Sparse Nat
  /-- Consecutive missed commits (17, R477; reset 0). -/
  missedCommits : Nat
  /-- The last alive count of each NMD seen by the watchdog and the frames without a change (17, R477; reset 0). -/
  nmdAlive : List (Nat × Nat)
  deriving DecidableEq, Repr

/-! ### Cue sheets and the sheet player (chapter 3) -/

/-- A loaded sheet: its image is checked at load (R84) and kept as plain fields. Owner 32 is the house. -/
structure Sheet where
  /-- Header kind: 0 partition, 1 partition fallback, 2 house, 3 house fallback (03, R79). -/
  kind : Nat
  /-- total_size in bytes (03, R79). -/
  size : Nat
  /-- sheet_id (03, R79). -/
  sheetId : BitVec 16
  /-- Frame profile (03, R79). -/
  profile : BitVec 2
  /-- Insert cadence code (03, R79). -/
  cadence : BitVec 2
  /-- segment_ns (03, R79). -/
  segmentNs : Nat
  /-- guard_pm (03, R79). -/
  guardPm : Nat
  /-- fit_mhz (03, R79). -/
  fitMhz : Nat
  /-- span_cycles (03, R79). -/
  spanCycles : Nat
  /-- pos_lo (03, R79). -/
  posLo : Nat
  /-- pos_hi (03, R79). -/
  posHi : Nat
  /-- reel_mode: resident (03, R79). -/
  resident : Bool
  /-- Bay table entries, 16 bytes each (03, R82). -/
  bays : List (BitVec 128)
  /-- Retake classes of the retake slots (03, R83). -/
  retake : List Nat
  /-- Cues of the A, V, M and L tracks, 16 bytes each (03, R80). -/
  cues : List (List (BitVec 128))
  /-- Shot descriptors, 64 bytes each (03, R79). -/
  descs : List (BitVec 512)
  /-- SHA-512 digest of the image (03, R86). -/
  digest : Digest
  deriving DecidableEq, Repr

/-- A sheet load in progress (R84). -/
structure SheetLoad where
  /-- Owner (03, R109). -/
  owner : Nat
  /-- Slot (03, R109). -/
  slot : Nat
  /-- Host address (03, R109). -/
  addr : BitVec 64
  /-- Image length (03, R109). -/
  len : Nat
  deriving DecidableEq, Repr

/-- States of a player context (Table 3.5). -/
inductive PlayState | idle | run | hold | shed | void | done
  deriving DecidableEq, Repr

/-- The player context of one segment in the present frame. -/
structure PlayCtx where
  /-- Player state (03, R95; reset IDLE). -/
  state : PlayState
  /-- Slot that plays, if any (03, R109; reset none). -/
  slot : Option Nat
  /-- The slot is the fallback sheet (03, R109; reset 0). -/
  fallback : Bool
  /-- Bindings in force (03, R92; reset none). -/
  bindings : List Binding
  /-- Flex bays with their training variant (03, R92; reset none). -/
  training : List Nat
  /-- Retake assignments: (retake slot, partition, binding, level) (03, R103; reset none). -/
  retakes : List (Nat × Nat × Binding)
  /-- TB of the segment's start (01, R19; reset 0). -/
  startTb : Nat
  /-- TB of the segment's end (01, R19; reset 0). -/
  endTb : Nat
  /-- Slip in ACLK cycles (03, R96; reset 0). -/
  slip : Nat
  /-- held_ns of the segment (03, R96; reset 0). -/
  heldNs : Nat
  /-- Cues shed (03, R98; reset 0). -/
  shedCues : Nat
  /-- The held cue, its start cycle and the next k: track, cue, start, k (03, R96; reset none). -/
  holdCue : Option (Track × Nat × Nat × Nat)
  /-- TB at the held cue's start (03, R96; reset 0). -/
  holdTb : Nat
  /-- Segment cycle at `refT` (03, R95; reset 0). -/
  refCyc : Nat
  /-- Time of cycle `refCyc` in units of 1/105 ns from `startTb` (18, R500; reset 0). -/
  refT : Nat
  /-- The segment has started in the present frame (01, R18; reset 0). -/
  begun : Bool
  /-- Cues that have started: track, cue, start cycle (03, R95; reset none). -/
  started : List (Track × Nat × Nat)
  /-- Cues that were shed or skipped (03, R98, 08, R236; reset none). -/
  skipped : List (Track × Nat)
  /-- Cues that have ended (03, R95; reset none). -/
  ended : List (Track × Nat)
  /-- Bays whose cues were not all played to their end (03, R101; reset none). -/
  broken : List Nat
  /-- Bays flagged for retake (03, R103; reset none). -/
  flagged : List Nat
  /-- Cadence points of the segment passed so far: the k of R56 (02, R56; reset 0). -/
  winK : Nat
  /-- held_ns of the segment in the last completed frame: SHT_HELD (03, R109; reset 0). -/
  lastHeld : Nat
  deriving DecidableEq, Repr

/-- A bay that was bound in the frame that ended, as the assignment of retakes sees it (R103, R125). -/
structure RetakeJob where
  /-- Segment owner of the bay (03, R103). -/
  owner : Nat
  /-- Its binding (03, R94). -/
  binding : Binding
  /-- Its retake class (03, R83). -/
  cls : Nat
  /-- Its reel: 1 forward, 2 reverse, 3 both (03, R82). -/
  reel : Nat
  /-- Reel position of the frame that ended (01, R26). -/
  reelPos : Nat
  /-- It trained (11, R335). -/
  train : Bool
  /-- It trained, was played to its end and carried samples (11, R337). -/
  played : Bool
  /-- A drain flagged it (03, R103). -/
  flagged : Bool
  /-- The bay is one that was retaken in that frame: the flag is that of the retake alternate (11, R335). -/
  alternate : Bool
  deriving DecidableEq, Repr

/-- The sheet player. -/
structure Player where
  /-- Sheet store: key owner × 64 + slot (03, R76; reset empty). -/
  store : Sparse (Option Sheet)
  /-- Grey slots: owner × 64 + slot (03, R106; reset none). -/
  grey : List Nat
  /-- A load in progress: SHT_LOAD_STATUS.busy (03, R84; reset none). -/
  load : Option SheetLoad
  /-- SHT_LOAD_STATUS.code (03, R85; reset 0). -/
  loadCode : Nat
  /-- The player runs: SHT_STATUS.playing (03, R109; reset 0). -/
  playing : Bool
  /-- A start is pending: FN of the tick at which it takes effect, or none for the next tick (03, R109, R27; reset none). -/
  startAt : Option (Option (BitVec 32))
  /-- Reel position (01, R26; reset 0). -/
  reelPos : Nat
  /-- Fit ceiling at the last tick: SHT_STATUS.ceiling (03, R109; reset 0). -/
  ceiling : Nat
  /-- SHT_STATUS.ovr_consec (03, R102; reset 0). -/
  ovrConsec : Nat
  /-- SHT_OVR_CNT (03, R109; reset 0). -/
  ovrCnt : Word
  /-- SHT_SHED_CNT (03, R109; reset 0). -/
  shedCnt : Word
  /-- SHT_FENCE_CNT.crc (03, R109; reset 0). -/
  fenceCrc : BitVec 16
  /-- SHT_FENCE_CNT.collision (03, R109; reset 0). -/
  fenceColl : BitVec 16
  /-- Overrun frames since the last policy review (03, R102; reset 0). -/
  ovrReview : Nat
  /-- FN of the frame in which the last policy review was held (03, R102, 11, R337; reset none). -/
  reviewFn : Option (BitVec 32)
  /-- The profile left by the last switch to a longer frame (03, R102; reset none). -/
  cameFrom : Option (BitVec 2)
  /-- Player contexts: owners 0-31, 32 the house, 33 the unassigned tail (03, R95, 02, R52; reset IDLE). -/
  ctx : List PlayCtx
  /-- Owners whose sheet was fenced and that play fallbacks until a new commit (03, R106; reset none). -/
  forced : List Nat
  /-- Commit records for the next frame, by owner (01, R21; reset none). -/
  nextRecs : List (Nat × CommitRec)
  /-- A director commit for the next frame exists (01, R22; reset 0). -/
  nextDone : Bool
  /-- Commit records made at or after the commit point, for the frame after it (01, R21; reset none). -/
  afterRecs : List (Nat × CommitRec)
  /-- A director commit for the frame after the next exists (01, R21; reset 0). -/
  afterDone : Bool
  /-- The next frame plays the missed-commit choice (01, R22; reset 0). -/
  missed : Bool
  /-- Commits fixed at the commit point for the next frame (01, R21; reset none). -/
  fixedRecs : List (Nat × CommitRec)
  /-- The house record last committed (01, R22; reset none). -/
  lastHouse : Option CommitRec
  /-- Slot of the house sheet that last played (03, R93; reset none). -/
  lastPlayed : Option Nat
  /-- Bays of the ended frame whose retakes are not assigned yet: some drain of that frame still runs (03, R103, 04, R125; reset none). -/
  jobs : List RetakeJob
  deriving DecidableEq, Repr

/-! ### The array grid (chapter 4) -/

/-- State of an accumulator tile (Table GRD_TILES). -/
inductive TileState | idle | acc | drain
  deriving DecidableEq, Repr

/-- An accumulator tile 0-3 of the whole grid (R105). -/
structure AccTile where
  /-- IDLE, ACC or DRAIN (03, R105; reset IDLE). -/
  state : TileState
  /-- Operation tag (03, R105; reset 0). -/
  op : BitVec 16
  /-- Segment owner and cue of the last shot on the tile (04, R124; reset none). -/
  shot : Option (Nat × Nat)
  /-- Segment cycle at which the running read-out ends (04, R124; reset 0). -/
  until_ : Nat
  /-- Conditions gathered per output tile index since the operation's first product (04, R130; reset none). -/
  nibbles : Sparse (BitVec 4)
  deriving DecidableEq, Repr

/-- A drain that has begun and whose output is not yet written (R124). -/
structure Drain where
  /-- Accumulator tile (04, R124). -/
  tile : Nat
  /-- Owner of the work: 0-31, or 32 the house (06, R171). -/
  owner : Nat
  /-- Segment owner, or 34 for the insert lane (03, R106). -/
  seg : Nat
  /-- Shot descriptor of the operation's last shot (04, R118). -/
  shot : BitVec 512
  /-- Binding of the cue's bay, for slot-relative references (10, R301). -/
  binding : Option Binding
  /-- Partition and bay that the drain flags for retake (03, R103). -/
  bay : Option (Nat × Nat)
  /-- Conditions per output tile index (04, R130). -/
  nibbles : Sparse (BitVec 4)
  /-- Accumulator words read out: key (logical array × 16 + row) × 64 + column (04, R124). -/
  acc : Sparse Word
  /-- Shadowing spares of the drained arrays: (logical array, spare) (04, R135). -/
  shadow : List (Nat × Nat)
  /-- Segment cycle at which the output and its trailers are written, 88 cycles after the last shot's end (04, R124). -/
  endCyc : Nat
  /-- TB at the start of the segment that `endCyc` counts from (04, R124). -/
  startTb : Nat
  /-- FN of the frame in which its last shot ended (04, R125). -/
  fn : BitVec 32
  /-- A step of the insert lane: its row goes to the lane and not to tier F (04, R126, 10, R314). -/
  lane : Bool
  deriving DecidableEq, Repr

/-- What the fuses removed and remapped at final test (R112). -/
structure Fuses where
  /-- Logical arrays whose factory array failed, each with the spare that takes its place (04, R112). -/
  remap : List (Nat × Nat)
  /-- Spares that failed themselves (04, Table 4.2). -/
  spares : List Nat
  deriving DecidableEq, Repr

/-- The array grid. -/
structure Grid where
  /-- The fuses of the array grid: they outlast every reset (04, R112; reset DESIGN CHOICE none). -/
  fuses : Fuses
  /-- Remap table: logical array to physical array (04, R112; reset the factory mapping). -/
  map : Sparse Nat
  /-- Physical states of Table 4.2 (04, R112; reset ACTIVE for indices 0-639 of a die, SPARE_FREE for 640-671). -/
  phys : Sparse Nat
  /-- FN of the last passing check of each logical array (04, R137; reset none). -/
  pass : Sparse (Option (BitVec 32))
  /-- Check base b (04, R135; reset 0). -/
  base : Nat
  /-- Logical arrays fenced by request, whose physical array is grey and whose replacement waits for the next tick (04, R113; reset none). -/
  fences : List Nat
  /-- Logical arrays with a compared drain in the present frame (04, R137; reset none). -/
  compared : List Nat
  /-- Mismatches of the present frame: (logical target, reporting spare) (04, R136; reset none). -/
  mismatches : List (Nat × Nat)
  /-- Comparisons were on for part of the present frame (04, R137; reset 1). -/
  checkedFrame : Bool
  /-- The player played through the present frame (17, R480; reset 0). -/
  playedFrame : Bool
  /-- The accumulator tiles 0-3 (04, R110; reset IDLE). -/
  tiles : List AccTile
  /-- Drains in progress, oldest first (04, R124; reset none). -/
  drains : List Drain
  /-- Accumulators: key ((logical array × 16 + row) × 64 + column) × 4 + tile (04, R110; reset DESIGN CHOICE 0). -/
  acc : Sparse Word
  /-- GRD_CHK_FAIL.target (04, R139; reset 0). -/
  failTarget : Nat
  /-- GRD_CHK_FAIL.spare (04, R139; reset 0). -/
  failSpare : Nat
  /-- GRD_CHK_FAIL_FN (04, R139; reset 0). -/
  failFn : BitVec 32
  /-- GRD_CHK_CNT (04, R139; reset 0). -/
  chkCnt : Word
  /-- GRD_EXC_CNTn (04, R139; reset 0). -/
  excCnt : List Word
  /-- Arrays fenced since cold reset: GRD_SPARES.grey (04, R139; reset 0). -/
  greyCnt : Nat
  deriving DecidableEq, Repr

/-! ### Rounding lanes and the vector engine (chapters 6 and 7) -/

/-- One pending result of a vector unit: it becomes visible at its cycle (R191). -/
inductive VResult
  /-- A V register: a lane without a value keeps its old one (R193). -/
  | v (d : Nat) (lanes : List (Option (BitVec 16)))
  /-- A scalar register. -/
  | s (d : Nat) (x : Word)
  /-- A predicate: the bits of the mask are written. -/
  | p (d : Nat) (mask x : BitVec 128)
  /-- The keyed streams of the 128 lanes. -/
  | k (x : List (BitVec 64))
  /-- A run of tier F bytes. -/
  | mem (addr : Nat) (bytes : Blob)
  deriving DecidableEq, Repr

/-- A vector instruction (Table 7.3) as its 64-bit word. -/
abbrev VWord := BitVec 64

/-- A program of the store (R207). -/
structure Program where
  /-- First instruction in the store (07, R221). -/
  start : Nat
  /-- The instructions (07, R207). -/
  code : List VWord
  /-- Cycle count (07, R192). -/
  cycles : Nat
  /-- SHA-512 digest (07, R207). -/
  digest : Digest
  deriving DecidableEq, Repr

/-- One vector unit (Table 7.1). -/
structure VUnit where
  /-- V0-V63: key register × 128 + lane (07, R188; reset 0). -/
  v : Sparse (BitVec 16)
  /-- S0-S31 (07, R188; reset 0). -/
  s : Sparse Word
  /-- P1-P7; P0 reads as all ones (07, R188, R190; reset 0). -/
  p : Sparse (BitVec 128)
  /-- Keyed streams of the 128 lanes (07, R188; reset 0). -/
  keyed : Sparse (BitVec 64)
  /-- Cue nibble (07, R206; reset 0). -/
  nibble : BitVec 4
  /-- Largest block mse since the last TFIN, as binary32 (07, R204; reset 0). -/
  meterMax : Word
  /-- Sum of nf since the last TFIN (07, R204; reset 0). -/
  meterNf : Nat
  /-- The cue's sum of s, binary32 (07, R188; reset 0). -/
  cueS : Word
  /-- The cue's sum of c - nf, binary32 (07, R188; reset 0). -/
  cuePairs : Word
  /-- The cue's largest block mse, binary32 (06, R183; reset 0). -/
  cueMax : Word
  /-- Results issued and not yet visible: (segment cycle from whose start they are visible, result), in issue order (07, R191; reset none). -/
  due : List (Nat × VResult)
  /-- Segment cycle at which the next instruction issues (07, R191; reset 0). -/
  cycle : Nat
  /-- The running program: its slot, or the KAT part as 64 + part (07, R211; reset none). -/
  prog : Option Nat
  /-- Owner of the running cue: 0-31, or 32 the house (07, R205; reset 32). -/
  owner : Nat
  /-- Owner whose lane states the cue draws from (06, R171; reset 32). -/
  lanesOf : Nat
  /-- Instruction index within the program (07, R191; reset 0). -/
  pc : Nat
  /-- Open loops, innermost first: (body start, body end, passes left) (07, R192; reset none). -/
  loops : List (Nat × Nat × Nat)
  /-- Track V cue that runs: (segment owner, cue index) (07, R211; reset none). -/
  cue : Option (Nat × Nat)
  deriving DecidableEq, Repr

/-- The vector engine. -/
structure VecEngine where
  /-- Units 0-31 (07, R188). -/
  units : List VUnit
  /-- Program slots 0-63 (07, R207; reset empty). -/
  slots : Sparse (Option Program)
  /-- VEC_GREY (07, R218; reset 0). -/
  grey : BitVec 32
  /-- Units that turn grey at the next tick (07, R218; reset none). -/
  greyNext : List Nat
  /-- A program load in progress: slot, host address, instructions (07, R207; reset none). -/
  load : Option (Nat × BitVec 64 × Nat)
  /-- VEC_PLOAD_STATUS.code (07, R221; reset 0). -/
  loadCode : Nat
  /-- VEC_KAT_PASSu (07, R221; reset 0). -/
  katPass : List (Option (BitVec 32))
  /-- VEC_KAT_FAIL.unit (07, R221; reset 0). -/
  katUnit : Nat
  /-- VEC_KAT_FAIL.part (07, R221; reset 0). -/
  katPart : Nat
  /-- VEC_KAT_FAIL_FN (07, R221; reset 0). -/
  katFn : BitVec 32
  /-- Result of the present frame's KAT: 0 pass, 1 fail, 2 no verdict, 3 grey (13, R393; reset 2). -/
  katResult : Nat
  /-- Parts of the built-in test run in the present frame (07, R216; reset 0). -/
  katParts : Nat
  /-- METER descriptors under way: (item, blocks finished, sum of s, sum of c - nf, blocks flagged, sum of nf) (07, R213; reset none). -/
  meters : List (ItemKey × Nat × Word × Word × Nat × Nat)
  /-- The tier F stores of the latest segment cycle at which one became visible: (segment owner, cycle, byte address, bytes)
  (09, R262; reset none). -/
  stores : List (Nat × Nat × Nat × Nat)
  deriving DecidableEq, Repr

/-! ### Memory tiers (chapter 8) -/

/-- What an object holds (Table 8.4). -/
inductive ObjKind | tintComponent | optimiser | snapshot | kvExtent | carried | other
  deriving DecidableEq, Repr

/-- The tiers. -/
inductive Tier | f | s | h
  deriving DecidableEq, Repr

/-- A queued move of an object (R225). -/
structure Move where
  /-- Target tier (08, R225). -/
  target : Tier
  /-- Target stack, for tier S (08, R245). -/
  stack : Nat
  /-- Tiles copied so far (08, R225). -/
  copied : Nat
  /-- The move makes a second copy on the target stack (08, R245). -/
  mirror : Bool
  deriving DecidableEq, Repr

/-- An object of a partition's range (R224), with its tiles in packed form. -/
structure Obj where
  /-- Kind of object (08, R232). -/
  kind : ObjKind
  /-- Tint, context or other number that it belongs to. -/
  of : Nat
  /-- Home tier (08, R225). -/
  home : Tier
  /-- Primary stack of a tier S object (08, R243). -/
  stack : Nat
  /-- Mirror stack of a mirrored object (08, R243). -/
  mirror : Option Nat
  /-- Format code (08, R224). -/
  fmt : Nat
  /-- blk code (08, R224). -/
  blk : Nat
  /-- Tiles in packed form (08, R226); a sealed tile is kept as the packed tile it seals. -/
  tiles : List Blob
  /-- Frame in which the object was last written (08, R225). -/
  written : BitVec 32
  /-- The queued move (08, R225). -/
  move : Option Move
  deriving DecidableEq, Repr

/-- One layer buffer of the window (R237). -/
structure LayerBuf where
  /-- Layer that the buffer holds or receives (08, R237; reset none). -/
  layer : Option Nat
  /-- Stripes written (08, R547; reset none). -/
  stripes : List Nat
  /-- The layer is complete and its digest matched (08, R240; reset 0). -/
  ready : Bool
  /-- Digest mismatches of the layer now in the buffer (08, R240; reset 0). -/
  misses : Nat
  /-- TB at which its transfer started (08, R241; reset 0). -/
  startTb : Nat
  /-- TB at which the last stripe named so far is written (08, R241; reset 0). -/
  endTb : Nat
  deriving DecidableEq, Repr

/-- A transfer of an M-track mover (R235): GATHER, SCATTER, MIGRATE, UPDATE or TINT. -/
structure Mover where
  /-- Segment owner and cue index of the M cue (08, R235). -/
  owner : Nat
  cue : Nat
  /-- Op code of Table 8.6 (08, R234). -/
  op : Nat
  /-- TB at which the part on the stacks starts (08, R235). -/
  startTb : Nat
  /-- TB at which the part on tier H starts (08, R235). -/
  hStart : Nat
  /-- Stacks that the transfer holds in their turn (08, R235). -/
  onStacks : List Nat
  /-- Tint of a TINT transfer, else 0 (08, R236). -/
  tint : Nat
  /-- Tier H rate in bytes for each ns (08, R235). -/
  rate : Nat
  /-- Tiles in order: object handle (0 for a plate tile), tile index, bytes so far on a stack, bytes so far on tier H (08, R225, R235). -/
  tiles : List (Nat × Nat × Nat × Nat)
  /-- TB to which an UPDATE cue reserves its stacks, or the end of a transfer whose length the spec leaves open (08, R234, R34). -/
  until_ : Option Nat
  deriving DecidableEq, Repr

/-- The tiers and the reels. -/
structure Tiers where
  /-- Tier F bytes: key byte address (08, R222; reset DESIGN CHOICE 0). -/
  f : Sparse Byte
  /-- Words of 32 bytes whose stored code has an error, by word number: one bit, or more (09, R254, R264; reset none). -/
  fErr : Sparse EccResult
  /-- Objects by handle (08, R224; reset none). -/
  objs : Sparse (Option Obj)
  /-- Write counts of tier H tiles: key handle × 2^32 + tile index (08, R229; reset 0). -/
  hWrites : Sparse Nat
  /-- Places of sealed tiles: key as of the write counts, offset in the partition's area and length (08, R226, R229; reset none). -/
  hPlaces : Sparse (Option (Nat × Nat))
  /-- TB at which the last transfer of each partition on tier H ends (08, R235; reset 0). -/
  hFree : List Nat
  /-- TIER_STATUS.rebuild (08, R244; reset 0). -/
  rebuild : Bool
  /-- TIER_STACKS.live (08, R251; reset 0xFFF). -/
  live : BitVec 12
  /-- TIER_STACKS.first_lost (08, R251; reset 0). -/
  firstLost : Nat
  /-- TIER_STACKS.any_lost (08, R251; reset 0). -/
  anyLost : Bool
  /-- TIER_WINDOW.base (08, R251; reset 0). -/
  winBase : Nat
  /-- TIER_WINDOW.buf_banks (08, R251; reset 0). -/
  winBanks : Nat
  /-- TIER_HEAD.base (08, R251; reset 0). -/
  headBase : Nat
  /-- TIER_HEAD.banks (08, R251; reset 0). -/
  headBanks : Nat
  /-- First bank of the resident layers, and of the resident embedding table (08, R238; reset 0). -/
  resBase : Nat × Nat
  /-- Layer buffers: forward 0 and 1, reverse 0 and 1 (08, R237; reset empty). -/
  bufs : List LayerBuf
  /-- TIER_FETCH_FWD_NS (08, R251; reset 0). -/
  fetchFwd : Word
  /-- TIER_FETCH_REV_NS (08, R251; reset 0). -/
  fetchRev : Word
  /-- TIER_REBUILT_CNT (08, R251; reset 0). -/
  rebuiltCnt : Word
  /-- TIER_MOVE_CNT (08, R251; reset 0). -/
  moveCnt : Word
  /-- TIER_MOVE_LATE (08, R251; reset 0). -/
  moveLate : Word
  /-- TB at which each stack's last transfer ends (08, R235; reset 0). -/
  stackFree : List Nat
  /-- Transfers of M-track cues in progress, in order of start (08, R235, R236; reset none). -/
  running : List Mover
  deriving DecidableEq, Repr

/-! ### SRAM banks and LPDDR5X stacks (chapter 9) -/

/-- Bank states (Table 9.1). -/
inductive BankState | off | waking | on | ret | goingOff | queuedOn | grey
  deriving DecidableEq, Repr

/-- A bank request (BNK_Bb.req). -/
inductive BankReq | off | on | ret
  deriving DecidableEq, Repr

/-- One SRAM bank. -/
structure Bank where
  /-- BNK_Bb.state (09, R276; reset OFF). -/
  state : BankState
  /-- BNK_Bb.req (09, R276; reset OFF). -/
  req : BankReq
  /-- BNK_Bb.owner (09, R276; reset 0x3F, none). -/
  owner : Nat
  /-- BNK_Bb.shared_ro (09, R276; reset 0). -/
  shared : Bool
  /-- A write that takes effect at the next tick: request, owner (09, R256; reset none). -/
  next : Option (BankReq × Nat)
  /-- That tick has come (09, R256; reset 0). -/
  due : Bool
  /-- What the running sequence ends in, and the request queued behind a shutdown (09, R257; reset OFF). -/
  target : BankReq
  /-- TB at which the running sequence ends, if one runs (09, R256, Table 9.2; reset none). -/
  endTb : Option Nat
  /-- Played cues may access the bank: a tick has come since it reached ON (09, R256; reset 0). -/
  usable : Bool
  /-- BNK_INFO.ce_count (09, R276; reset 0). -/
  ce : Nat
  /-- BNK_CONFr waits of requesters 0-7 (09, R276; reset 0). -/
  conf : List Word
  /-- Next word of the patrol scrubber (09, R265; reset DESIGN CHOICE 0). -/
  scrub : Nat
  /-- TB of the scrubber's last read (09, R265; reset 0). -/
  scrubTb : Nat
  /-- TB of the start of the scrubber's pass (09, R265; reset DESIGN CHOICE 0). -/
  passTb : Nat
  /-- The bank turns GREY at the next tick: 1 uncorrectable, 2 correction limit (09, R266; reset 0). -/
  fence : Nat
  deriving DecidableEq, Repr

/-- An access of a requester to tier F that is under way or has just been made (R253, R261, R262). -/
structure BankUse where
  /-- Requester of Table 9.4 (09, R261). -/
  req : Nat
  /-- Owner of the segment or program that makes it (09, R260). -/
  owner : Nat
  /-- It writes (09, R262). -/
  write : Bool
  /-- Runs of bytes: address and length (09, R252). -/
  runs : List (Nat × Nat)
  /-- First instant, in 1/105 ns of TB (09, R261). -/
  from_ : Nat
  /-- Last instant; the first one for an access of one cycle (09, R261). -/
  until_ : Nat
  /-- For a write of one cycle, what its runs held before: address and bytes (09, R262). -/
  old : List (Nat × Blob)
  deriving DecidableEq, Repr

/-- The bank block. -/
structure Banks where
  /-- Banks 0-1535 (09, R252). -/
  bank : Sparse Bank
  /-- BNK_ERR_REF (09, R276; reset 0). -/
  errRef : Word
  /-- BNK_CE_TOTAL (09, R276; reset 0). -/
  ceTotal : Word
  /-- BNK_UE_TOTAL (09, R276; reset 0). -/
  ueTotal : Word
  /-- BNK_SCRUB.pass_ms (09, R276; reset 0). -/
  passMs : BitVec 16
  deriving DecidableEq, Repr

/-- States of an NMD and its stack (NMDi_STATE). -/
inductive NmdState | training | live | grey
  deriving DecidableEq, Repr

/-- One near-memory die with its stack. -/
structure Nmd where
  /-- NMDi_STATE.state (09, R277; reset TRAINING). -/
  state : NmdState
  /-- NMDi_STATE.mr4_rate (09, R277; reset 0). -/
  mr4 : BitVec 4
  /-- NMDi_STATE.patrol_late (09, R277; reset 0). -/
  patrolLate : Bool
  /-- NMDi_STATE.retrain_late (09, R277; reset 0). -/
  retrainLate : Bool
  /-- NMDi_STATE.sppr_rows (09, R277; reset 0). -/
  spprRows : BitVec 16
  /-- NMDi_CE_CNT (09, R277; reset 0). -/
  ceCnt : Word
  /-- NMDi_UE_CNT (09, R277; reset 0). -/
  ueCnt : Word
  /-- NMDi_RETRAIN (09, R277; reset 0). -/
  retrain : Word
  /-- NMDi_LINK_CNT.corrected (09, R277; reset 0). -/
  linkCorrected : BitVec 16
  /-- NMDi_LINK_CNT.rereads (09, R277; reset 0). -/
  rereads : BitVec 16
  /-- NMDi_PATROL.last_min (09, R277; reset 0). -/
  lastMin : BitVec 16
  /-- NMDi_PATROL.progress (09, R277; reset 0). -/
  progress : BitVec 10
  /-- TB of the start of the present patrol pass (09, R273; reset DESIGN CHOICE 0). -/
  passTb : Nat
  /-- NMDi_ERR_ADDR (09, R277; reset 0). -/
  errAddr : Word
  /-- Uncorrectable reads in the present span of 1,024 frames (09, R274; reset 0). -/
  ueSpan : Nat
  /-- Frames that a retrain has waited, if one waits (09, R272; reset none). -/
  retrainWait : Option Nat
  /-- Patrol passes in a row in which a row gave corrected errors: (row, passes) (09, R274; reset none). -/
  rowRuns : List (Nat × Nat)
  /-- Rows that gave corrected errors in the present patrol pass (09, R274; reset none). -/
  rowSeen : List Nat
  /-- Next granule of the patrol (09, R273; reset DESIGN CHOICE 0). -/
  patrol : Nat
  /-- Maintenance rewrites waiting for a gap: granule addresses (09, R269, R270; reset none). -/
  rewrites : List Nat
  /-- Granules whose stored code has errors: correctable, or not (09, R269; reset none). -/
  errs : Sparse EccResult
  /-- A link error that the next transfer on the stack meets: 1 corrected, 2 detected on a read and good when read once more, 3 bad both
  times, 4 reported by the DRAM for a write (09, R270; reset 0). -/
  linkErr : Nat
  /-- The NMD's alive count (17, R477; reset 0). -/
  alive : Nat
  deriving DecidableEq, Repr

/-! ### Plate, tints, sessions and insert programs (chapter 10) -/

/-- One part of the plate: a layer, the embedding table or the output head. -/
structure PlatePart where
  /-- Data tiles (10, R279). -/
  tiles : Nat
  /-- Format code (10, R279). -/
  fmt : Nat
  /-- blk code (10, R279). -/
  blk : Nat
  /-- Tiles of one plate expert, zero unless an expert layer (10, R279). -/
  expertTiles : Nat
  /-- Expert layer (10, R279). -/
  expert : Bool
  /-- Digest of the packed data tiles (10, R278, R279). -/
  digest : Digest
  /-- The packed data tiles as written to tier S (08, R239; reset empty). -/
  data : List Blob
  deriving DecidableEq, Repr

/-- The plate's manifest (R278-R281). -/
structure Plate where
  /-- Layers in ascending order (10, R279). -/
  layers : List PlatePart
  /-- Embedding table (10, R278). -/
  embed : PlatePart
  /-- Output head (10, R278). -/
  head : PlatePart
  /-- Points: in_dim, out_dim (10, R280). -/
  points : List (Nat × Nat)
  /-- spare_router (10, R278). -/
  spareRouter : Nat
  /-- experts (10, R278). -/
  experts : Nat
  /-- d_model (10, R278). -/
  dModel : Nat
  /-- vocab (10, R278). -/
  vocab : Nat
  /-- kv_ch (10, R278). -/
  kvCh : Nat
  /-- Manifest digest (10, R281). -/
  digest : Digest
  /-- The manifest with its signature block, as the plate image holds it (15, R441, 16, R460). -/
  manifest : Blob
  /-- Resident mode (01, R32). -/
  resident : Bool
  /-- Modified by full-parameter training (11, R345). -/
  modified : Bool
  deriving DecidableEq, Repr

/-- A plate load in progress (R284). -/
structure PlateLoad where
  /-- The verified manifest; its parts are filled as they arrive (10, R284). -/
  plate : Plate
  /-- Reel source port, or none for a host source (10, R282). -/
  port : Option Nat
  /-- Parts checked so far: layers by number, then L the embedding table and L + 1 the output head (10, R284). -/
  done : List Nat
  /-- Parts with one digest mismatch (10, R284). -/
  missed : List Nat
  deriving DecidableEq, Repr

/-- The plate block. -/
structure PlateBlock where
  /-- The loaded plate (10, R282; reset none). -/
  plate : Option Plate
  /-- A load in progress: TNT_PLATE_STATUS.busy (10, R319; reset none). -/
  load : Option PlateLoad
  /-- A reel-source load that waits for the neighbour's manifest: its port (15, R441; reset none). -/
  asking : Option Nat
  /-- TNT_PLATE_STATUS.code (10, R319; reset 0). -/
  code : Byte
  /-- TNT_PLATE_STATUS.detail (10, R319; reset 0). -/
  detail : Byte
  /-- TNT_PLATE_PROGRESS.done (10, R319; reset 0). -/
  progress : Nat
  /-- TNT_PLATE_PROGRESS.layers (10, R319; reset 0). -/
  layers : Nat
  deriving DecidableEq, Repr

/-- Tint states (Table 10.7). -/
inductive TintState | free | registering | cold | loading | hot | evicting | queuedOn | withdrawing | dormant
  deriving DecidableEq, Repr

/-- A component of a tint (Table 10.6). -/
structure Component where
  /-- Kind of Table 10.4 (10, R288). -/
  kind : Nat
  /-- Format code (10, R288). -/
  fmt : Nat
  /-- blk code (10, R288). -/
  blk : Nat
  /-- Layer (10, R289). -/
  layer : Nat
  /-- Point (10, R289). -/
  point : Nat
  /-- Index j (10, R289). -/
  index : Nat
  /-- Rank (10, R289). -/
  rank : Nat
  /-- Rows (10, R289). -/
  rows : Nat
  /-- Packed tiles (10, R289). -/
  tiles : Nat
  /-- Handle of its object (10, R288). -/
  handle : Nat
  deriving DecidableEq, Repr

/-! ### Fine-tuning (chapter 11) and update commands (chapter 12) -/

/-- The training parameter block of a batch (Table 11.2), 16 bytes. -/
abbrev ParamBlock := BitVec 128

/-- Phases of a batch. -/
inductive BatchPhase
  /-- Samples join; passes run. -/
  | joining
  /-- Every pass has ended; pass 1 waits to be placed or is placed (R331). -/
  | pass1
  /-- Pass 1 has ended; pass 2 waits or runs (R331). -/
  | pass2
  /-- Pass 2 has ended; the update becomes visible at the next reel position 0 (R35). -/
  | ready
  deriving DecidableEq, Repr

/-- The batch of a tint (R322, R323). -/
structure Batch where
  /-- Samples of the batch, by their items (11, R322). -/
  samples : List ItemKey
  /-- A sample with end = 1 has closed it (11, R322). -/
  closed : Bool
  /-- Its parameter block, fixed by its first sample (11, R324). -/
  params : Option ParamBlock
  /-- Gradient slices written or due (11, R325). -/
  slices : Nat
  /-- Tokens with a target, T of R334 (11, R334). -/
  targets : Nat
  /-- Its first sample has entered (11, R323). -/
  inFlight : Bool
  /-- Phase of its step (11, R331). -/
  phase : BatchPhase
  /-- A retake has taken place (11, R336). -/
  retaken : Bool
  /-- A top overflow or non-finite norm skips the step: 0 none, 1 top overflow, 2 norm (11, R335, 12, R353). -/
  skip : Nat
  /-- The step is on the vector units (11, R331). -/
  onVector : Bool
  /-- KAPPA and ETA fixed at pass 1's commit point (12, R353). -/
  scalars : Option (Word × Word)
  /-- The step was an excursion (11, R338). -/
  excursion : Bool
  /-- Next copies of the step: (handle, packed tiles) (12, R357). -/
  next : List (Nat × List Blob)
  /-- The pass of the present phase is placed in the present frame (11, R331; reset 0). -/
  placed : Bool
  /-- What the result areas of the present pass hold: parameter handle and words (12, R361; reset none). -/
  partials : List (Nat × List Word)
  /-- Frame in which pass 2 ended (11, R341). -/
  pass2End : BitVec 32
  deriving DecidableEq, Repr

/-- A snapshot of a tint (R340). -/
structure Snap where
  /-- Snapshot handle (13, R385). -/
  handle : Nat
  /-- Generation held (11, R340). -/
  gen : BitVec 16
  /-- sigma, binary32 (11, R340). -/
  sigma : Word
  /-- Watch counts: consecutive clean steps, consecutive excursions (11, R340). -/
  counts : Nat × Nat
  /-- Open batch number (11, R340). -/
  batch : BitVec 16
  /-- Step count k (12, R349). -/
  k : Word
  /-- The objects' tiles: (handle, packed tiles) (11, R340). -/
  data : List (Nat × List Blob)
  /-- The copy has ended (11, R340). -/
  copied : Bool
  /-- Taken automatically (11, R340). -/
  auto : Bool
  /-- Frame in which the generation's pass 2 ended; none for a generation that no step made (11, R341). -/
  frame : Option (BitVec 32)
  /-- Vector units that ran a cue for the tint up to that generation (11, R341). -/
  units : BitVec 32
  /-- Home tier (11, R340). -/
  tier : Tier
  deriving DecidableEq, Repr

/-- A descriptor of a batch as the replay log keeps it (R341). -/
structure Replayed where
  /-- The descriptor (11, R341). -/
  raw : BitVec 512
  /-- Tokens that have a target (11, R334). -/
  targets : Nat
  /-- Token IDs (11, R341). -/
  ids : List Nat
  deriving DecidableEq, Repr

/-- The training state of a tint. -/
structure Training where
  /-- Open batch number (11, R322; reset 0). -/
  openBatch : BitVec 16
  /-- The open batch (11, R322). -/
  cur : Batch
  /-- Step count k (12, R349; reset 0). -/
  k : Word
  /-- Step scale sigma, binary32 (11, R339; 1.0 at registration). -/
  sigma : Word
  /-- Consecutive steps without excursion (11, R339; reset 0). -/
  clean : Nat
  /-- Consecutive excursions (11, R339; reset 0). -/
  excursions : Nat
  /-- Training paused (11, R339; reset 0). -/
  paused : Bool
  /-- Steps since registration (11, R340; reset 0). -/
  steps : Nat
  /-- Consecutive retaken passes per layer: (layer, level, count) (11, R337; reset none). -/
  retakes : List (Nat × Nat × Nat)
  /-- Level at which the tint is held (11, R337; reset none). -/
  hold : Option Nat
  /-- Snapshots, oldest first (11, R340; reset none). -/
  snaps : List Snap
  /-- Pending SNAPSHOT descriptors (11, R340; reset none). -/
  snapItems : List ItemKey
  /-- An automatic snapshot is due (11, R340; reset 0). -/
  snapDue : Bool
  /-- Tier of the last SNAPSHOT placement word (11, R340; reset S). -/
  snapTier : Tier
  /-- A snapshot was not taken for lack of room: no batch enters (11, R340; reset 0). -/
  snapFailed : Bool
  /-- Frame in which pass 2 of the generation in force ended (11, R341; reset none). -/
  stepFn : Option (BitVec 32)
  /-- Newest clean generation (11, R341; reset the image's generation). -/
  cleanGen : BitVec 16
  /-- Replay log: the batches after the newest clean snapshot: (batch number, generation produced, block, item descriptors with their count of
  tokens that have a target, and their token IDs) (11, R341; reset empty). -/
  replay : List (BitVec 16 × BitVec 16 × ParamBlock × List Replayed)
  /-- Snapshot handle to restore at the next reel position 0, and whether the replay log re-enters (11, R342; reset none). -/
  restore : Option (Nat × Bool)
  /-- Units that ran a cue for the tint (11, R341; reset none). -/
  units : BitVec 32
  /-- Frames in which passes, retakes or vector updates of the tint ran, newest first (11, R342; reset none). -/
  ran : List (BitVec 32)
  /-- A suspect window covered the tint: it is restored at this tick (11, R342; reset 0). -/
  affected : Bool
  deriving DecidableEq, Repr

/-- What is queued behind an eviction (R299). -/
structure Queued where
  /-- A pin rather than a load (10, R299). -/
  pin : Bool
  /-- The descriptor, or none for a claim of the director (10, R299). -/
  item : Option ItemKey
  /-- Slot named, or none for any (10, R299). -/
  slot : Option Nat
  /-- Expected slot generation (10, R294). -/
  expected : BitVec 16
  deriving DecidableEq, Repr

/-- A tint entry (R291). -/
structure Tint where
  /-- State (10, R291; reset FREE). -/
  state : TintState
  /-- Owner partition (10, R291; reset 0). -/
  owner : Nat
  /-- Pin (10, R297; reset 0). -/
  pinned : Bool
  /-- Generation (10, R292; reset 0). -/
  gen : BitVec 16
  /-- Generation at registration (16, R469; reset 0). -/
  regGen : BitVec 16
  /-- Primary stack (08, R243; reset 0). -/
  stack : Nat
  /-- Hot slot claimed (10, R294; reset none). -/
  slot : Option Nat
  /-- Load, pin or director claim queued behind an eviction (10, R299; reset none). -/
  queued : Option Queued
  /-- Descriptor that the running load completes: its key and whether it is a pin (10, R295; reset none). -/
  loadItem : Option (ItemKey × Bool)
  /-- Tiles moved by the running load (10, R295; reset 0). -/
  moved : Nat
  /-- A tick has come since the last tile of the running load arrived (10, R295; reset 0). -/
  hotDue : Bool
  /-- An eviction is requested or runs: where it stands (10, R298; reset none). -/
  evict : Option Wait
  /-- TINT_EVICT descriptors that wait for the eviction (10, R298; reset none). -/
  evictItems : List ItemKey
  /-- TINT_WITHDRAW requested (10, R312; reset none). -/
  withdraw : Option Wait
  /-- TINT_WITHDRAW descriptors that wait (10, R312; reset none). -/
  withdrawItems : List ItemKey
  /-- Write-through tiles not yet written to tier S (10, R296; reset 0). -/
  writeThrough : Nat
  /-- Manifest digest of the plate it adapts (10, R286; reset 0). -/
  plate : Digest
  /-- Digest of the tint image (16, R468; reset 0). -/
  digest : Digest
  /-- Components (10, R288; reset none). -/
  comps : List Component
  /-- Packed tiles of one copy (10, R319; reset 0). -/
  tiles : Nat
  /-- The registration in progress: its descriptor (10, R290; reset none). -/
  regItem : Option ItemKey
  /-- Diverged (15, R440; reset 0). -/
  diverged : Bool
  /-- Training state (11, R322). -/
  train : Training
  deriving DecidableEq, Repr

/-- A hot slot (R293). -/
structure HotSlot where
  /-- Owner tint (10, R293; reset none). -/
  tint : Option Nat
  /-- Slot generation (10, R293; reset 0). -/
  gen : BitVec 16
  /-- Fenced (10, R300; reset 0). -/
  grey : Bool
  /-- First bank: TNT_SLOT_GEN.base (10, R319; reset 0). -/
  base : Nat
  deriving DecidableEq, Repr

/-- Session states (Table 10.8). -/
inductive SesState | free | opened | withdrawn | closing | queuedOn
  deriving DecidableEq, Repr

/-- A session context (R305). -/
structure Ses where
  /-- State (10, R305; reset FREE). -/
  state : SesState
  /-- Leased tint (10, R305; reset 0). -/
  tint : Nat
  /-- Position count (10, R305; reset 0; a count, up to 16,777,216: its register shows the low 24 bits). -/
  positions : Nat
  /-- Home stack (08, R247; reset 0). -/
  home : Nat
  /-- Owner partition (10, R320; reset 0). -/
  owner : Nat
  /-- reload_due (10, R311; reset 0). -/
  reloadDue : Bool
  /-- An item is in passage (10, R307; reset 0). -/
  inPassage : Bool
  /-- Newest closed extents kept in tier S; 0 all, or none where their home is tier H (08, R231, R248; reset 0). -/
  sExtents : Nat
  /-- The placement word makes tier H the home of the closed extents (08, R231; reset 0). -/
  cold : Bool
  /-- Handles of its K and V objects, by layer, and of its carried state (08, R224, R247; reset none). -/
  kv : List (Nat × Nat)
  carried : Option Nat
  /-- Extents in tier S, the open one included (10, R320; reset 0). -/
  sExt : Nat
  /-- Extents in tier H (10, R320; reset 0). -/
  hExt : Nat
  /-- Extents queued to move to tier H (08, R248; reset 0). -/
  hQueued : Nat
  /-- Tiles copied of the extents queued to move (08, R225, R248; reset 0). -/
  hCopied : Nat
  /-- Extents queued to move back to tier S, and their tiles copied (08, R225, R231; reset 0). -/
  sQueued : Nat
  sCopied : Nat
  /-- A close is requested (10, R310; reset none). -/
  close : Option Wait
  /-- SESSION_CLOSE descriptors that wait (10, R310; reset none). -/
  closeItems : List ItemKey
  /-- The queued open: descriptor, tint, home stack (10, R310; reset none). -/
  queued : Option (ItemKey × Nat × Nat)
  deriving DecidableEq, Repr

/-- A pinned insert program (R315). -/
structure Pin where
  /-- Owner partition (10, R315). -/
  owner : Nat
  /-- Shot descriptors of the steps (10, R313). -/
  steps : List (BitVec 512)
  /-- in_fmt byte (10, R313). -/
  inFmt : Nat
  /-- in_k (10, R313). -/
  inK : Nat
  /-- Tier F reference of the image (10, R315). -/
  ref : Nat
  /-- Bytes of the image (10, R313). -/
  len : Nat
  /-- SHA-512 of the image (10, R315). -/
  digest : Digest
  deriving DecidableEq, Repr

/-- The insert lane (R316). -/
structure InsertLane where
  /-- Pin slots 0-63 (10, R315; reset empty). -/
  pins : Sparse (Option Pin)
  /-- A pinning in progress: slot, owner (10, R315; reset none). -/
  pinning : Option (Nat × Nat)
  /-- SES_INS_STATUS.code (10, R320; reset 0). -/
  code : Nat
  /-- Queued INSERT descriptors, oldest first (10, R316; reset none). -/
  queue : List ItemKey
  /-- Step of the running program that runs next (10, R316; reset 0). -/
  step : Nat
  /-- Output row of the last step: codes, the scale byte of each, and its nibble (10, R314; reset none). -/
  row : Option (List Nat × List Nat × BitVec 4)
  /-- The program's last step has started: its drain ends the program (10, R316, R317; reset 0). -/
  draining : Bool
  /-- ACLK cycles since the window of the program's last step opened, counted up to a time in 1/105 ns (10, R316; reset none). -/
  last : Option (Nat × Nat)
  /-- ACLK cycles since the last window opened, counted up to a time in 1/105 ns (04, R126; reset none). -/
  lastOpen : Option (Nat × Nat)
  deriving DecidableEq, Repr

/-- An update command of an NMD (Table 12.2) as its 64 bytes. -/
abbrev UpdCmd := BitVec 512

/-- An NMD's update engine (R347). -/
structure UpdEngine where
  /-- Command queue, at most 256; the front one runs (12, R347; reset empty). -/
  queue : List UpdCmd
  /-- The front command has started (12, R362; reset 0). -/
  running : Bool
  /-- It awaits the next UPDATE cue: NMDi_UPD_STATE.paused (12, R364; reset 0). -/
  paused : Bool
  /-- TB at which it started (12, R364; reset 0). -/
  startTb : Nat
  /-- ns of the pass done inside UPDATE cues that have ended (12, R362; reset 0). -/
  doneNs : Nat
  /-- TB from which the pass runs in the present UPDATE cue, if one holds its stacks (12, R362; reset none). -/
  slotTb : Option Nat
  /-- NMDi_UPD_BLOCKS (12, R364; reset 0). -/
  blocks : Word
  /-- NMDi_UPD_LAST_NS (12, R364; reset 0). -/
  lastNs : Word
  /-- NMDi_UPD_NONFIN (12, R364; reset 0). -/
  nonfin : Word
  /-- The result of the running pass: words behind status and count, and the count word (12, R361; reset none). -/
  result : Option (List Word × Nat)
  deriving DecidableEq, Repr

/-! ### Partitions and mailboxes (chapter 14) -/

/-- Partition states (Table 14.1). -/
inductive PrtState | free | creating | ready | active | frozen | tearing | queuedOn
  deriving DecidableEq, Repr

/-- The resources of a partition in force (Table 14.2), taken from the staging registers at CREATE or RESIZE. -/
structure Alloc where
  /-- Segment lengths per profile in ns (14, R400; reset 0). -/
  seg : List Nat
  /-- First bank and banks of the run (14, R400; reset 0). -/
  fBase : Nat
  fBanks : Nat
  /-- First hot slot, count, banks per slot (14, R400; reset 0). -/
  slotFirst : Nat
  slotCount : Nat
  slotBanks : Nat
  /-- Tier S capacity in GiB (14, R400; reset 0). -/
  sGib : Nat
  /-- Tint range (14, R400; reset 1 to 0, none). -/
  tintFirst : Nat
  tintLast : Nat
  /-- Session range (14, R400; reset 1 to 0, none). -/
  sesFirst : Nat
  sesLast : Nat
  /-- Reel-link share in 1/256 (14, R400; reset 0). -/
  reel : Nat
  /-- Checked delivery (11, R343; reset 0). -/
  checked : Bool
  /-- Full-parameter setting (11, R344; reset 0). -/
  fullParam : Bool
  deriving DecidableEq, Repr

/-- One partition. -/
structure Partition where
  /-- State (14, R398; reset FREE). -/
  state : PrtState
  /-- Resources in force (14, R400). -/
  alloc : Alloc
  /-- Job seed: PRT_Pp_SEED (14, R400; reset 0). -/
  seed : BitVec 64
  /-- saved (14, R413; reset 0). -/
  saved : Bool
  /-- restored (14, R418; reset 0). -/
  restored : Bool
  /-- Restored and not yet played (14, R416; reset 0). -/
  firstPlay : Bool
  /-- PRT_Pp_FN_OFF (14, R416; reset 0). -/
  fnOff : BitVec 32
  /-- fn_freeze of the image it was loaded from, or of its freeze (14, R416; reset 0). -/
  fnFreeze : BitVec 32
  /-- Wrap epoch at its freeze tick (14, R414; reset 0). -/
  epochFreeze : BitVec 16
  /-- CREATING ends in READY without seeding the lane states and goes on to FROZEN (14, R415; reset 0). -/
  loading : Bool
  /-- CREATING belongs to a RESIZE: the lane states stand (14, R405; reset 0). -/
  resizing : Bool
  /-- ACTIVATE, DEACTIVATE and TEARDOWN waiting (14, R403, R407; reset none). -/
  activate : Option Wait
  deactivate : Option Wait
  teardown : Option Wait
  /-- The teardown is that of a fence: FENCED_UNIT in place of ABORTED (17, R486; reset 0). -/
  fenced : Bool
  /-- FREEZE waiting (14, R412; reset none). -/
  freeze : Option Wait
  /-- FREEZE descriptors that wait for the capture (14, R412; reset none). -/
  freezeItems : List ItemKey
  /-- Items captured by the SAVE since the freeze (14, R407, R413; reset none). -/
  captured : List ItemKey
  /-- Insert images of a LOAD_IMAGE, to be placed when the banks are ON: slot, pin, image (14, R414, R415; reset none). -/
  images : List (Nat × Pin × Blob)
  deriving DecidableEq, Repr

/-- The partition block. -/
structure Partitions where
  /-- Partitions 0-31 (14, R398). -/
  part : List Partition
  /-- PRT_CMD_STATUS.code (14, R418; reset 0). -/
  code : Byte
  /-- PRT_CMD_STATUS.detail (14, R418; reset 0). -/
  detail : Byte
  deriving DecidableEq, Repr

/-- Channel states (R409). -/
inductive ChState | empty | full | aborted
  deriving DecidableEq, Repr

/-- One mailbox channel; its binding lives in `State.regs` (MBX_BINDc). -/
structure Channel where
  /-- State (14, R409; reset EMPTY). -/
  state : ChState
  /-- D0 to D15 (14, R419; reset 0). -/
  data : List Word
  /-- abort (14, R411; reset 0). -/
  abort : Bool
  /-- TB of the last reset of its receiver: a go in the same cycle has no effect (14, R417; reset none). -/
  resetTb : Option Nat
  deriving DecidableEq, Repr

/-! ### Reel links (chapter 15) -/

/-- Port states (Table 15.3). -/
inductive PortState | down | training | align | up | grey
  deriving DecidableEq, Repr

/-- Port uses (R425); SCHEDULED is computed from the loaded sheets. -/
inductive PortUse | free | dist | bulk
  deriving DecidableEq, Repr

/-- An open scheduled transfer on a port (R428, R432). -/
structure Transfer where
  /-- Segment owner and cue index of its L cue (15, R428). -/
  owner : Nat
  cue : Nat
  /-- Stream (15, R427). -/
  stream : BitVec 16
  /-- Payload bytes (15, R427). -/
  bytes : Nat
  /-- Destination tier F byte address, or none for a PASS that does not write (15, R428, R432). -/
  dest : Option Nat
  /-- Output port of a PASS (15, R432). -/
  out : Option Nat
  /-- Bay of the descriptor (15, R427). -/
  bay : Nat
  /-- Flit indices received (15, R428). -/
  got : List Nat
  /-- CRC failures counted in the window (15, R433). -/
  crcs : Nat
  /-- A flit failed its check, or had a wrong fn (15, R428). -/
  bad : Bool
  /-- A VOID arrived (15, R433). -/
  void : Bool
  /-- The transfer must be opened by its TAG (16, R461). -/
  sealed : Bool
  /-- Ciphertext payloads by seq, held until the TAG (16, R461). -/
  held : List (Nat × Blob)
  /-- The TAG's transfer count, unit and tag, when it has come (16, R461). -/
  tag : Option Blob
  deriving DecidableEq, Repr

/-- A distribution in progress on a port (R441-R443). -/
structure Dist where
  /-- This end receives (15, R441). -/
  receiver : Bool
  /-- An answer is awaited since this TB (15, R441). -/
  since : Option Nat
  /-- Port on which arriving flits are relayed (15, R443). -/
  relay : Option Nat
  /-- Stream arriving or being sent (15, R441). -/
  stream : BitVec 16
  /-- Received parts: (stream, seq, payload) (15, R442). -/
  got : List (Nat × Nat × Blob)
  /-- Flits to resend: (stream, first, count) (15, R442). -/
  resend : List (Nat × Nat × Nat)
  deriving DecidableEq, Repr

/-- A bulk transfer (R444, R445). -/
structure Bulk where
  /-- This end sends (15, R444). -/
  tx : Bool
  /-- Host address (15, R444). -/
  addr : BitVec 64
  /-- Length (TX) or capacity (RX) in bytes (15, R444). -/
  len : Nat
  /-- Bytes announced by the offer (15, R445). -/
  offered : Option Nat
  /-- The offer was accepted (15, R445). -/
  accepted : Bool
  /-- An answer is awaited since this TB (15, R445). -/
  since : Option Nat
  /-- Flit indices received (15, R445). -/
  got : List Nat
  /-- Flits to resend: (first, count) (15, R445). -/
  resend : List (Nat × Nat)
  /-- The buffer that a sender sends, none where the host read failed (15, R444). -/
  data : Option Blob
  deriving DecidableEq, Repr

/-- One reel-link port. -/
structure Port where
  /-- REEL_Pn_STATE.state (15, R447; reset DOWN). -/
  state : PortState
  /-- DIST or BULK use (15, R425; reset FREE). -/
  use : PortUse
  /-- REEL_Pn_STATE.lanes (15, R447; reset 0). -/
  lanes : BitVec 4
  /-- REEL_Pn_CRC (15, R447; reset 0). -/
  crc : Word
  /-- REEL_Pn_MISS (15, R447; reset 0). -/
  miss : Word
  /-- REEL_Pn_VOID (15, R447; reset 0). -/
  void : Word
  /-- REEL_Pn_STRAY (15, R447; reset 0). -/
  stray : Word
  /-- REEL_Pn_WIN.crc (15, R447; reset 0). -/
  winCrc : BitVec 16
  /-- REEL_Pn_WIN.miss (15, R447; reset 0). -/
  winMiss : BitVec 16
  /-- Flits sent since cold reset: REEL_Pn_TX shows it in units of 2^20 (15, R447; reset 0). -/
  tx : BitVec 52
  /-- Flits received since cold reset (15, R447; reset 0). -/
  rx : BitVec 52
  /-- t1 of the last request sent at a tick, or received; t2 of the request (02, R64; reset 0). -/
  t1 : BitVec 64
  t2 : BitVec 64
  /-- A reply is due at the next tick (15, R436; reset 0). -/
  replyDue : Bool
  /-- A request is due at the next tick (02, R64; reset 0). -/
  requestDue : Bool
  /-- TB at which the port's last training began (15, R423; reset none). -/
  trainTb : Option Nat
  /-- FN of the frame in which the last request left, since link-up (02, R64; reset none). -/
  askedFn : Option (BitVec 32)
  /-- Open RECV and PASS transfers (15, R428; reset none). -/
  xfers : List Transfer
  /-- Distribution on the port (15, R441; reset none). -/
  dist : Option Dist
  /-- Bulk transfer on the port (15, R444; reset none). -/
  bulk : Option Bulk
  /-- Flits sent in the present frame, newest first: what leaves the port (15, R420; reset none). -/
  sent : List Blob
  deriving DecidableEq, Repr

/-- A group verdict in progress (R439). -/
structure Verdict where
  /-- Tint (15, R439). -/
  tint : Nat
  /-- Step k (15, R439). -/
  k : Word
  /-- T gathered or recorded (15, R439). -/
  t : Word
  /-- ok gathered or recorded (15, R439). -/
  ok : Bool
  /-- The second pass has been recorded (15, R439). -/
  recorded : Bool
  /-- Failed verdicts of the step (15, R439). -/
  fails : Nat
  /-- VERDICT cues of this exchange that have started: odd in the first pass, even in the second (15, R439). -/
  cues : Nat
  /-- The present pass's flit has been seen (15, R439). -/
  seen : Bool
  /-- This device's own ok (15, R439, R440). -/
  own : Bool
  /-- No second-pass verdict came (15, R440). -/
  lost : Bool
  deriving DecidableEq, Repr

/-- The reel-link block. -/
structure Reel where
  /-- Ports REEL0-REEL7 (15, R420). -/
  port : List Port
  /-- SENDs since cold reset: the transfer count of the IV (16, R461; reset 0). -/
  sends : BitVec 64
  /-- Verdicts of group steps (15, R439; reset none). -/
  verdicts : List Verdict
  /-- Exchange transfers that this device received badly in the step: tint (15, R439; reset none). -/
  badTints : List Nat
  /-- REEL_BULK_STATUS.code (15, R447; reset 0). -/
  bulkCode : Byte
  /-- REEL_BULK_DONE (15, R447; reset 0). -/
  bulkDone : Word
  deriving DecidableEq, Repr

/-! ### Custody, keys and attestation (chapter 16) -/

/-- Custody states (Table 16.1). -/
inductive Custody | none | held | wiping
  deriving DecidableEq, Repr

/-- A group key with its generation and its boot count (R461). -/
structure GroupKey where
  /-- Generation 0-15 (16, R456). -/
  gen : BitVec 4
  /-- The AES-256 key (16, Table 16.5). -/
  key : BitVec 256
  /-- Boot count of the key (16, R461; starts at 0). -/
  boots : BitVec 16
  deriving DecidableEq, Repr

/-- A wipe in progress (R452): what happens to the custody key at its end. -/
structure Wipe where
  /-- The key that replaces the custody key: none for RELEASE (16, R451, R452). -/
  newKey : Option (BitVec 4096)
  deriving DecidableEq, Repr

/-- Lifecycle of the fuses (Table 16.11). -/
inductive Lifecycle | development | production | returned
  deriving DecidableEq, Repr

/-- Keys of a partition: each is cleared with its partition. -/
structure PartKeys where
  /-- Import key modulus once generated: SEC_PIMP.ready (16, R455; reset none). -/
  imp : Option (BitVec 4096)
  /-- Import key generation runs (16, R455; reset 0). -/
  generating : Bool
  /-- Tier H key (16, Table 16.5; reset none). -/
  tierH : Option (BitVec 256)
  deriving DecidableEq, Repr

/-- The security block of the SRD: key store, import and command status, SPDM and MCTP endpoint. -/
structure Security where
  /-- Custody state: SEC_CUST.state (16, R448; reset from the key store, NONE from the factory). -/
  custody : Custody
  /-- Custody key modulus (16, R451; reset from the key store). -/
  custodyKey : Option (BitVec 4096)
  /-- Command count: SEC_CUST_SEQ (16, R450; reset from the key store, 0 from the factory). -/
  count : Word
  /-- Trusted publisher list, at most 8 (16, R451; reset from the key store). -/
  pubs : List Digest
  /-- Custody domain key (16, R451; reset from the key store). -/
  cdk : Option (BitVec 256)
  /-- Current group key (16, R461; reset from the key store). -/
  gk : Option GroupKey
  /-- Previous group key and the frames it is still kept (16, R462; reset none). -/
  gkPrev : Option (GroupKey × Nat)
  /-- Pending group key and its activation FN (16, R457, R462; reset none). -/
  gkPending : Option (GroupKey × BitVec 32)
  /-- Plate key and the manifest digest that it serves (16, R457; reset none). -/
  plateKey : Option (BitVec 256 × Digest)
  /-- Keys of partitions 0-31 (16, Table 16.5; reset none). -/
  part : List PartKeys
  /-- SEC_STATUS.rng_fail (16, R454; reset 0). -/
  rngFail : Bool
  /-- SEC_STATUS.gk_spent (16, R461; reset 0). -/
  gkSpent : Bool
  /-- A wipe in progress: SEC_CMD_STATUS.busy (16, R452; reset none). -/
  wipe : Option Wipe
  /-- SEC_CMD_STATUS.detail (16, R475; reset 0). -/
  cmdDetail : Byte
  /-- SEC_KEY_STATUS.detail (16, R475; reset 0). -/
  keyDetail : Byte
  /-- SEC_LIFE.lifecycle (16, R470; reset from fuses). -/
  life : Lifecycle
  /-- The identity and transport keys exist (16, R471; reset 1 until RETURNED). -/
  vendorKeys : Bool
  /-- MCTP endpoint ID (16, R466; reset 0). -/
  eid : Byte
  /-- Packet in SEC_MCTP_RXw: SEC_MCTP_CTRL.rx_len and rx_full (16, R466, R475; reset none). -/
  rx : Option Blob
  /-- Responses that wait for SEC_MCTP_RXw, oldest first (16, R466; reset none). -/
  rxQueue : List Blob
  /-- The last packet written to SEC_MCTP_TXw and taken by the responder (16, R466; reset none). -/
  tx : Option Blob
  /-- SPDM requests and responses since the last GET_VERSION, which CHALLENGE signs (16, R465; reset none). -/
  transcript : List Blob
  /-- The last response of the SPDM or MCTP control responder, as a message without transport framing (16, R465, R466; reset none). -/
  response : Option Blob
  /-- Last values of the measurement blocks 1-7, reported while main power is off (16, R466; reset 0). -/
  lastMeas : List Blob
  deriving DecidableEq, Repr

/-! ### Power, clocks and fade (chapter 18) -/

/-- A run of the clock at a step or slower (R503). -/
structure FadeRun where
  /-- TB at which the run began, in progress at present, or none (18, R503; reset none). -/
  since : Option Nat
  /-- Longest run of each of the last frames in ns, the newest first; a run that reaches into a frame counts whole (18, R503; reset none). -/
  longest : List Nat
  /-- Longest run so far that reaches into the present frame, ns (18, R503; reset 0). -/
  present : Nat
  deriving DecidableEq, Repr

/-- The power block. -/
structure Power where
  /-- PWR_STATUS.step: the step in force, 0-3 (18, R500; reset 0). -/
  step : Nat
  /-- PWR_STATUS.warm (18, R507; reset 0). -/
  warm : Bool
  /-- PWR_STATUS.hot (18, R507; reset 0). -/
  hot : Bool
  /-- The reference clock is declared lost: no tick is started (18, R508; reset 0). -/
  refLost : Bool
  /-- PWR_STATUS.gated (18, R510; reset 0). -/
  gated : Bool
  /-- TB of the last trip at or past the step in force, or of the last release: the stable count runs from it (18, R502; reset 0). -/
  countFrom : Nat
  /-- Engagements in the present frame (18, R505; reset 0). -/
  engaged : Nat
  /-- Slowest step reached in the present frame (18, R505; reset 0). -/
  slowest : Nat
  /-- PWR_FADE_CNT (18, R514; reset 0). -/
  fadeCnt : Word
  /-- Time spent at steps F1, F2, F3 in ns: PWR_FADE_USk (18, R505; reset 0). -/
  stepNs : List Nat
  /-- TB up to which `stepNs` has been counted (18, R505; reset 0). -/
  countedTb : Nat
  /-- Runs at F1, F2, F3 or slower (18, R503; reset none). -/
  runs : List FadeRun
  /-- PWR_CEIL.last (18, R503; reset 0). -/
  ceilLast : Nat
  /-- PWR_CEIL.sticky (18, R503; reset 0). -/
  sticky : Nat
  /-- PWR_CEIL.sticky_left (18, R514; reset 0). -/
  stickyLeft : Nat
  /-- Per sensor 2-8: consecutive samples at or above 105, 115 and 125 degrees (18, R506; reset 0). -/
  hotRuns : List (Nat × Nat × Nat)
  /-- Consecutive sample rounds in which every sensor was at or below 100 degrees, and 110 degrees (18, R506; reset 0). -/
  coolRuns : Nat × Nat
  /-- PWR_TJ.tj, 0.1 degrees, signed (18, R506; reset 0). -/
  tj : Int
  /-- PWR_TJ.sensor (18, R514; reset 0). -/
  tjSensor : Nat
  /-- PWR_TJ_PEAK.tj (18, R514; reset 0). -/
  tjPeak : Int
  /-- Values of PLDM sensors 1-24 as last updated (18, R512; reset 0). -/
  sensors : List Int
  deriving DecidableEq, Repr

/-! ### Boot, recovery and firmware (chapter 19) -/

/-- BOOT_STATUS.stage (R525). -/
inductive Stage | rom | stage2 | apply | train | ready | recovery | failed
  deriving DecidableEq, Repr

/-- A running firmware component. -/
structure Component5 where
  /-- BOOT_COMPc.version (19, R525; reset from boot). -/
  version : Word
  /-- BOOT_ARBc.arb (19, R525; reset from boot). -/
  arb : Nat
  /-- SHA-512 of the body: its measurement (19, R518, 16, R465; reset from boot). -/
  digest : Digest
  deriving DecidableEq, Repr

/-- A flash operation in progress (R520). -/
structure FlashOp where
  /-- 1 ERASE, 2 PROGRAM (19, R525). -/
  op : Nat
  /-- Flash offset (19, R520). -/
  off : Nat
  /-- Length (19, R520). -/
  len : Nat
  /-- Data to program, or none when the host read failed (19, R520). -/
  data : Option Blob
  deriving DecidableEq, Repr

/-- A recovery download (R522). -/
structure Recovery where
  /-- Slot: 0 A, 1 B (19, R522). -/
  slot : Nat
  /-- Component code (19, R522). -/
  comp : Nat
  /-- Next expected byte offset (19, R522). -/
  offset : Nat
  deriving DecidableEq, Repr

/-- The boot path of the SRD. -/
structure Boot where
  /-- BOOT_STATUS.stage (19, R525; reset ROM). -/
  stage : Stage
  /-- BOOT_STATUS.trial (19, R525; reset from boot). -/
  trial : Bool
  /-- BOOT_STATUS.fallback (19, R525; reset from boot). -/
  fallback : Bool
  /-- Failed-boot count (19, R517; reset from MRAM, 0 from the factory). -/
  fails : Nat
  /-- Last good set: bit c - 1 is 1 for slot B (19, R517; reset from MRAM, all A from the factory). -/
  lastGood : BitVec 5
  /-- Trial mask (19, R517; reset from MRAM, 0 from the factory). -/
  trialMask : BitVec 5
  /-- The set that booted: BOOT_SET.running (19, R525; reset from boot). -/
  running : BitVec 5
  /-- A trial set reached READY and was not committed: the next boot logs TRIAL_ABANDONED (19, R519; reset 0). -/
  tried : Bool
  /-- Components 1-5 as running (19, R525; reset from boot). -/
  comps : List Component5
  /-- Fused anti-rollback counts of components 1-5 (19, R518; reset from fuses). -/
  fused : List Nat
  /-- BOOT_FAIL: component, reason, slot (19, R525; reset from boot). -/
  fail : Nat × Nat × Nat
  /-- Flash operation in progress: BOOT_FL_STATUS.busy (19, R525; reset none). -/
  flashOp : Option FlashOp
  /-- BOOT_FL_STATUS.code (19, R525; reset 0). -/
  flashCode : Nat
  /-- Recovery download in progress (19, R522; reset none). -/
  recovery : Option Recovery
  /-- Components received in this recovery mode (19, R522, R524; reset 0). -/
  received : BitVec 5
  /-- The last recovery reply, words 0-15 (19, R522; reset none). -/
  reply : Option (List Word)
  /-- RECOVERY_N was low at its sample (19, R530; reset 0). -/
  recoveryStrap : Bool
  /-- BOOT_SLOT was high at its sample (19, R530; reset 0). -/
  slotStrap : Bool
  /-- Cold resets since manufacture (17, R492; reset 0 from the factory). -/
  boots : BitVec 16
  /-- TB of the rising edge of PERST_N's boot watchdog, in ns (19, R517; reset 0). -/
  startTb : Nat
  /-- Boot flash bytes: an unlisted byte is erased, 0xFF (19, R516; reset empty). -/
  flash : Sparse Byte
  deriving DecidableEq, Repr

/-! ### Pins (chapter 20) -/

/-- JTAG instruction selected (Table 20.4). -/
inductive JtagIr | bypass | extest | idcode | sample | vtarget
  deriving DecidableEq, Repr

/-- The pins and what is sampled from them. -/
structure Pins where
  /-- VAUX is within its limits (20, R539; reset 1). -/
  vaux : Bool
  /-- The main rails are up (20, R539; reset 1). -/
  mainOn : Bool
  /-- Level of PERST_N (20, R528; reset 1). -/
  perst : Bool
  /-- Level of AUX_RST_N (20, R528; reset 1). -/
  auxRst : Bool
  /-- SMB_ADDR1 and SMB_ADDR0 as last sampled (20, R530; reset 0). -/
  smbAddr : BitVec 2
  /-- JTAG instruction in force (20, R532; reset IDCODE). -/
  jtagIr : JtagIr
  /-- JTAG data register selected by it, as captured: width and value (20, R532; reset IDCODE's). -/
  jtagDr : Nat × Word
  /-- The boundary-scan register's update stage drives the pins (20, R532; reset 0). -/
  boundary : Bool
  deriving DecidableEq, Repr

/-! ### The whole block -/

/-- The state of the block. -/
structure State where
  /-- Timebase and frames (chapter 2). -/
  tbm : Timebase
  /-- Register fields that a write stores (RW, RWL and W1C), by setup-window key; an unlisted register reads as its reset
  value (`regReset`). -/
  regs : Sparse Word
  /-- The sheet player (chapter 3). -/
  player : Player
  /-- The array grid (chapter 4). -/
  grid : Grid
  /-- Lane generators of owners 0-32 (chapter 6). -/
  lanes : List LaneSet
  /-- Dailies counts of owners 0-32 in the present frame (chapters 6, 13). -/
  tally : List Tally
  /-- The vector engine (chapter 7). -/
  vec : VecEngine
  /-- Tiers, objects and reels (chapter 8). -/
  tiers : Tiers
  /-- SRAM banks (chapter 9). -/
  banks : Banks
  /-- Accesses to tier F that are under way or were made in the present cycle (09, R261, R262; reset none). -/
  ports : List BankUse
  /-- NMDs and stacks 0-11 (chapter 9). -/
  nmd : List Nmd
  /-- The plate (chapter 10). -/
  plate : PlateBlock
  /-- Tint entries 0-65535 (10, R291). -/
  tints : Sparse Tint
  /-- Hot slots 0-4095 (10, R293). -/
  slots : Sparse HotSlot
  /-- Session contexts 0-65535 (10, R305). -/
  ses : Sparse Ses
  /-- Insert programs and the insert lane (10, R315, R316). -/
  ins : InsertLane
  /-- Update engines of NMDs 0-11 (chapter 12). -/
  upd : List UpdEngine
  /-- Ring sets 0-31 (partitions) and 32 (manager) (13, R371). -/
  sets : List RingSet
  /-- The pending store, in order of fetching (13, R378; reset empty). -/
  items : List (ItemKey × Item)
  /-- Observations so far: the next order of observation (13, R376; reset 0). -/
  observed : Nat
  /-- UCL ports 0 and 1 (13, R365). -/
  ucl : List UclPort
  /-- Host memory as the device has written it; an unlisted byte is the host's own (13, R364; reset empty). -/
  host : Sparse (Option Byte)
  /-- The last answer to a register access (13, R370; reset none). -/
  uclResp : UclResp
  /-- Partitions (chapter 14). -/
  prt : Partitions
  /-- Mailbox channels 0-63 (14, R408). -/
  mbx : List Channel
  /-- Reel links (chapter 15). -/
  reel : Reel
  /-- Custody, keys and attestation (chapter 16). -/
  sec : Security
  /-- Safety (chapter 17). -/
  saf : Safety
  /-- The continuity log (chapter 17). -/
  clog : Clog
  /-- Power and fade (chapter 18). -/
  pwr : Power
  /-- Boot and firmware (chapter 19). -/
  boot : Boot
  /-- Pins (chapter 20). -/
  pins : Pins
  /-- Commands that wait, first in, first out (the model's own). -/
  pending : List Instr
  /-- Count of free values drawn so far (the model's own: DESIGN CHOICE, log entry 3). -/
  free : Nat
  deriving DecidableEq, Repr

/-! ### The state after reset

`State.reset` is the state of a factory-new device right after a cold reset, with the boot's code stages still to come. -/

/-- The timebase right after a cold reset (R39, R46, R75). -/
def Timebase.init : Timebase :=
  { tb := 0, counting := true, fn := 0, epoch := 0, heldEpoch := 0, tLast := 0, tNext := 0, running := false, startDue := false,
    stopPending := false, restartQueued := false, waitSync := false, cpPassed := false, ticksRun := 0, active := 0, next := 0,
    pending := false, announced := 0, presetArmed := false, nowHi := 0, lastHi := 0, locked := false, holdover := false,
    upstreamHoldover := false, srcActive := 0, phaseErr := 0, phaseStep := 0, phaseNext := 0, missCnt := 0, freqPpb := 0,
    lockRun := 0, alignRun := 0, acceptRun := 0, primaryRun := 0, missPrimary := 0, missSecondary := 0, secondaryOk := false,
    wordProfile := none, wordOut := 0, tickOut := none, bcnDelay := List.replicate 8 (0, false), bcnOffset := List.replicate 8 0,
    lastEpoch := 0, acceptFn := none, mismatch := false, phaseLeft := 0, freqAcc := 0, slewTb := 0 }

/-- A ring pointer at (0, 1) (R372). -/
def RingPtr.init : RingPtr := { index := 0, phase := true }

/-- A submission ring that is OFF (R397). -/
def SubRing.init : SubRing := { mode := .off, head := .init, tail := .init, seen := [] }

/-- A completion ring that is OFF (R397). -/
def CompRing.init : CompRing := { mode := .off, tail := .init, head := .init }

/-- A dailies ring that is not armed (R392). -/
def Dailies.init : Dailies :=
  { armed := false, pending := none, base := 0, log2 := 0, index := 0, phase := true, events := [], eventsLost := 0, out := [] }

/-- A ring set with every ring OFF (R397). -/
def RingSet.init : RingSet :=
  { sq := List.replicate 16 .init, cq := List.replicate 16 .init, watches := 0, pend := 0, lastRead := [], dailies := .init }

/-- A UCL port before it trains (R397). -/
def UclPort.init : UclPort := { up := false, grey := false, lanes := 0, replays := 0, frameReplays := 0, failed := false }

/-- The log of a factory-new device (R490). -/
def Clog.init : Clog :=
  { n := 0, staged := [], mram := [], lostTotal := 0, dropped := 0, countHi := 0, holdup := false, standbyMoments := 0 }

/-- The safety block right after a cold reset (R497). -/
def Safety.init : Safety :=
  { safe := false, causeClass := 0, causeKind := 0, causeUnit := 0, causeFn := 0, causeTb := 0, hbA := false, hbB := false,
    fenceCnt := List.replicate 11 0, greyParts := [], greyTints := [], greySessions := [], reqs := [], skips := [],
    missedCommits := 0, nmdAlive := List.replicate 12 (0, 0) }

/-- A player context in IDLE (R95). -/
def PlayCtx.init : PlayCtx :=
  { state := .idle, slot := none, fallback := false, bindings := [], training := [], retakes := [], startTb := 0, endTb := 0,
    slip := 0, heldNs := 0, shedCues := 0, holdCue := none, holdTb := 0, refCyc := 0, refT := 0, begun := false, started := [],
    skipped := [], ended := [],
    broken := [], flagged := [], winK := 0, lastHeld := 0 }

/-- The player right after a cold reset (R109). -/
def Player.init : Player :=
  { store := [], grey := [], load := none, loadCode := 0, playing := false, startAt := none, reelPos := 0, ceiling := 0,
    ovrConsec := 0, ovrCnt := 0, shedCnt := 0, fenceCrc := 0, fenceColl := 0, ovrReview := 0, reviewFn := none, cameFrom := none,
    ctx := List.replicate 34 .init, forced := [], nextRecs := [], nextDone := false, afterRecs := [], afterDone := false,
    missed := false, fixedRecs := [], lastHouse := none, lastPlayed := none, jobs := [] }

/-- An idle accumulator tile (R105). -/
def AccTile.init : AccTile := { state := .idle, op := 0, shot := none, until_ := 0, nibbles := [] }

/-- The grid right after a cold reset, with what the fuses removed and remapped (R112, R139). -/
def Grid.cold (z : Fuses) : Grid :=
  { fuses := z,
    map := z.remap.foldl (fun (m : Sparse Nat) e => Sparse.set (fun g => g / 640 * 672 + g % 640) m e.1 e.2) [],
    phys := (z.remap.flatMap fun e => [(e.1 / 640 * 672 + e.1 % 640, 3), (e.2, 0)]).foldl
      (fun (m : Sparse Nat) (e : Nat × Nat) => Sparse.set (fun p => if p % 672 < 640 then 0 else 1) m e.1 e.2)
      (z.spares.foldl (fun (m : Sparse Nat) p => Sparse.set (fun p => if p % 672 < 640 then 0 else 1) m p 3) []),
    pass := [], base := 0, fences := [], compared := [], mismatches := [], checkedFrame := true,
    playedFrame := false, tiles := List.replicate 4 .init, drains := [], acc := [], failTarget := 0, failSpare := 0, failFn := 0, chkCnt := 0,
    excCnt := List.replicate 4 0, greyCnt := 0 }

/-- The grid of a device of which no array failed at final test (R112): DESIGN CHOICE, log entry 49. -/
def Grid.init : Grid := .cold { remap := [], spares := [] }

/-- Lane generators of one owner, seeded from a job seed (R169, R171). -/
def LaneSet.init (seed : BitVec 64) : LaneSet := { seed := seed, states := [] }

/-- The dailies counts at the start of a frame (R393). -/
def Tally.init : Tally :=
  { exc := [0, 0, 0, 0], vecNibble := 0, meterS := 0, meterPairs := 0, meterMax := 0, completions := List.replicate 16 0,
    baysBound := 0, baysTrain := 0, served := 0, trained := 0, retakes := 0, inserts := 0, fetched := 0, rejected := false }

/-- A vector unit with every register zero (R188). -/
def VUnit.init : VUnit :=
  { v := [], s := [], p := [], keyed := [], nibble := 0, meterMax := 0, meterNf := 0, cueS := 0, cuePairs := 0, cueMax := 0,
    due := [], cycle := 0, prog := none, owner := 32, lanesOf := 32, pc := 0, loops := [], cue := none }

/-- The vector engine right after a cold reset (R221). -/
def VecEngine.init : VecEngine :=
  { units := List.replicate 32 .init, slots := [], grey := 0, greyNext := [], load := none, loadCode := 0,
    katPass := List.replicate 32 none, katUnit := 0, katPart := 0, katFn := 0, katResult := 2, katParts := 0, meters := [], stores := [] }

/-- An empty layer buffer (R237). -/
def LayerBuf.init : LayerBuf := { layer := none, stripes := [], ready := false, misses := 0, startTb := 0, endTb := 0 }

/-- The tiers right after a cold reset (R251). -/
def Tiers.init : Tiers :=
  { f := [], fErr := [], objs := [], hWrites := [], hPlaces := [], hFree := List.replicate 32 0, rebuild := false, live := 0xFFF, firstLost := 0, anyLost := false, winBase := 0,
    winBanks := 0, headBase := 0, headBanks := 0, resBase := (0, 0), bufs := List.replicate 4 .init, fetchFwd := 0, fetchRev := 0,
    rebuiltCnt := 0, moveCnt := 0, moveLate := 0, stackFree := List.replicate 12 0, running := [] }

/-- A bank that is OFF and has no owner (R276). -/
def Bank.init : Bank :=
  { state := .off, req := .off, owner := 0x3F, shared := false, next := none, due := false, target := .off, endTb := none, usable := false,
    ce := 0, conf := List.replicate 8 0, scrub := 0, scrubTb := 0, passTb := 0, fence := 0 }

/-- The bank block right after a cold reset (R276). -/
def Banks.init : Banks := { bank := [], errRef := 0, ceTotal := 0, ueTotal := 0, passMs := 0 }

/-- An NMD whose stack trains (R277). -/
def Nmd.init : Nmd :=
  { state := .training, mr4 := 0, patrolLate := false, retrainLate := false, spprRows := 0, ceCnt := 0, ueCnt := 0, retrain := 0,
    linkCorrected := 0, rereads := 0, lastMin := 0, progress := 0, passTb := 0, errAddr := 0, ueSpan := 0, retrainWait := none,
    rowRuns := [], rowSeen := [], patrol := 0, rewrites := [], errs := [], linkErr := 0, alive := 0 }

/-- The plate block with no plate (R319). -/
def PlateBlock.init : PlateBlock :=
  { plate := none, load := none, asking := none, code := 0, detail := 0, progress := 0, layers := 0 }

/-- A batch with no sample (R322). -/
def Batch.init : Batch :=
  { samples := [], closed := false, params := none, slices := 0, targets := 0, inFlight := false, phase := .joining,
    retaken := false, skip := 0, onVector := false, scalars := none, excursion := false, next := [], placed := false, partials := [],
    pass2End := 0 }

/-- The training state of a tint that has not trained (R322, R339-R341); sigma is 1.0. -/
def Training.init : Training :=
  { openBatch := 0, cur := .init, k := 0, sigma := 0x3F800000, clean := 0, excursions := 0, paused := false, steps := 0,
    retakes := [], hold := none, snaps := [], snapItems := [], snapDue := false, snapTier := .s, snapFailed := false,
    stepFn := none, cleanGen := 0, replay := [], restore := none, units := 0, ran := [], affected := false }

/-- A FREE tint entry (R291). -/
def Tint.init : Tint :=
  { state := .free, owner := 0, pinned := false, gen := 0, regGen := 0, stack := 0, slot := none, queued := none, loadItem := none, moved := 0, hotDue := false,
    evict := none, evictItems := [], withdraw := none, withdrawItems := [], writeThrough := 0, plate := 0, digest := 0, comps := [],
    tiles := 0, regItem := none, diverged := false, train := .init }

/-- A hot slot without a tint (R293). -/
def HotSlot.init : HotSlot := { tint := none, gen := 0, grey := false, base := 0 }

/-- A FREE session context (R305). -/
def Ses.init : Ses :=
  { state := .free, tint := 0, positions := 0, home := 0, owner := 0, reloadDue := false, inPassage := false, sExtents := 0,
    cold := false, kv := [], carried := none, sExt := 0, hExt := 0, hQueued := 0, hCopied := 0, sQueued := 0, sCopied := 0, close := none, closeItems := [], queued := none }

/-- The insert lane with no program pinned (R315). -/
def InsertLane.init : InsertLane :=
  { pins := [], pinning := none, code := 0, queue := [], step := 0, row := none, draining := false, last := none, lastOpen := none }

/-- An update engine with nothing queued (R347, R364). -/
def UpdEngine.init : UpdEngine :=
  { queue := [], running := false, paused := false, startTb := 0, doneNs := 0, slotTb := none, blocks := 0, lastNs := 0, nonfin := 0, result := none }

/-- No resources: what a FREE partition holds; ranges 1 to 0 are empty (R400). -/
def Alloc.init : Alloc :=
  { seg := [0, 0, 0, 0], fBase := 0, fBanks := 0, slotFirst := 0, slotCount := 0, slotBanks := 0, sGib := 0, tintFirst := 1,
    tintLast := 0, sesFirst := 1, sesLast := 0, reel := 0, checked := false, fullParam := false }

/-- A FREE partition (R398). -/
def Partition.init : Partition :=
  { state := .free, alloc := .init, seed := 0, saved := false, restored := false, firstPlay := false, fnOff := 0, fnFreeze := 0, epochFreeze := 0,
    loading := false, resizing := false, activate := none, deactivate := none, teardown := none, fenced := false, freeze := none,
    freezeItems := [], captured := [], images := [] }

/-- The partition block (R418). -/
def Partitions.init : Partitions := { part := List.replicate 32 .init, code := 0, detail := 0 }

/-- An EMPTY channel (R409). -/
def Channel.init : Channel := { state := .empty, data := List.replicate 16 0, abort := false, resetTb := none }

/-- A reel-link port that is DOWN (R447). -/
def Port.init : Port :=
  { state := .down, use := .free, lanes := 0, crc := 0, miss := 0, void := 0, stray := 0, winCrc := 0, winMiss := 0, tx := 0,
    rx := 0, t1 := 0, t2 := 0, replyDue := false, requestDue := false, trainTb := none, askedFn := none, xfers := [], dist := none, bulk := none,
    sent := [] }

/-- The reel-link block (R447). -/
def Reel.init : Reel :=
  { port := List.replicate 8 .init, sends := 0, verdicts := [], badTints := [], bulkCode := 0, bulkDone := 0 }

/-- The security block of a factory-new device (R448-R471). -/
def Security.init : Security :=
  { custody := .none, custodyKey := none, count := 0, pubs := [], cdk := none, gk := none, gkPrev := none, gkPending := none,
    plateKey := none, part := List.replicate 32 { imp := none, generating := false, tierH := none }, rngFail := false,
    gkSpent := false, wipe := none, cmdDetail := 0, keyDetail := 0, life := .production, vendorKeys := true, eid := 0, rx := none,
    rxQueue := [], tx := none, transcript := [], response := none, lastMeas := [] }

/-- The power block right after a cold reset (R514). -/
def Power.init : Power :=
  { step := 0, warm := false, hot := false, refLost := false, gated := false, countFrom := 0, engaged := 0, slowest := 0, fadeCnt := 0,
    stepNs := [0, 0, 0], countedTb := 0, runs := List.replicate 3 { since := none, longest := [], present := 0 }, ceilLast := 0,
    sticky := 0, stickyLeft := 0, hotRuns := List.replicate 7 (0, 0, 0), coolRuns := (0, 0), tj := 0, tjSensor := 0, tjPeak := 0,
    sensors := List.replicate 24 0 }

/-- The boot path of a factory-new device at the start of its boot (R517, R525). -/
def Boot.init : Boot :=
  { stage := .rom, trial := false, fallback := false, fails := 0, lastGood := 0, trialMask := 0, running := 0, tried := false,
    comps := List.replicate 5 { version := 0, arb := 0, digest := 0 }, fused := [0, 0, 0, 0, 0], fail := (0, 0, 0),
    flashOp := none, flashCode := 0, recovery := none, received := 0, reply := none, recoveryStrap := false, slotStrap := false, boots := 0,
    startTb := 0, flash := [] }

/-- The pins with power up and both resets released (R528, R530). -/
def Pins.init : Pins :=
  { vaux := true, mainOn := true, perst := true, auxRst := true, smbAddr := 0, jtagIr := .idcode, jtagDr := (32, 0x02560A7B),
    boundary := false }

/-- The block right after reset. -/
def State.reset : State :=
  { tbm := .init, regs := [], player := .init, grid := .init, lanes := List.replicate 33 (.init 0),
    tally := List.replicate 33 .init, vec := .init, tiers := .init, banks := .init, ports := [], nmd := List.replicate 12 .init, plate := .init,
    tints := [], slots := [], ses := [], ins := .init, upd := List.replicate 12 .init, sets := List.replicate 33 .init, items := [],
    observed := 0, ucl := List.replicate 2 .init, host := [], uclResp := .none, prt := .init, mbx := List.replicate 64 .init,
    reel := .init, sec := .init, saf := .init, clog := .init, pwr := .init, boot := .init, pins := .init, pending := [], free := 0 }

end Sys2Proof.Machine
end

