-- ==== Sys2Proof/Machine/RegTable.lean ====
section
/-! DEFINITION. The writable registers of the setup window, from the register tables of the chapters: where each lies, which of
its bits a write stores and its reset value. A bit with a behaviour of its own (a trigger, a field whose write the spec
judges) is in no mask here: the command of that behaviour writes it. -/

namespace Sys2Proof.Machine

/-- One row of the table: `c1` registers `s1` bytes apart, each with `c2` registers `s2` bytes apart.
`rw`, `rwl` and `w1c` are the bits of those access codes (R369) that a plain write stores. -/
structure RegRow where
  base : Nat
  s1 : Nat
  c1 : Nat
  s2 : Nat
  c2 : Nat
  rw : Word
  rwl : Word
  w1c : Word
  reset : Word
  deriving DecidableEq, Repr

/-- The offset lies in the row. -/
def RegRow.covers (r : RegRow) (off : Nat) : Bool :=
  r.base ≤ off && (off - r.base) / r.s1 < r.c1 && (off - r.base) % r.s1 / r.s2 < r.c2 && (off - r.base) % r.s1 % r.s2 = 0

/-- Writable registers of the TB block. -/
def regsTb : List RegRow := [
  -- TB_CTRL (R75)
  ⟨0x10010, 4, 1, 4, 1, 0x20, 0x12, 0x0, 0x8⟩,
  -- TB_TICK_SRC (R75)
  ⟨0x10014, 4, 1, 4, 1, 0x0, 0xFF, 0x0, 0x0⟩,
  -- TB_TICK_IN_DLY (R75)
  ⟨0x10018, 4, 1, 4, 1, 0x0, 0x3FF, 0x0, 0x0⟩,
  -- TB_LOCK (R75)
  ⟨0x1001C, 4, 1, 4, 1, 0x0, 0x0, 0x0, 0x0⟩,
  -- TB_PROFn_FRAME n = 0 (R75)
  ⟨0x10020, 4, 1, 4, 1, 0x0, 0x0, 0x0, 0x3E8⟩,
  -- TB_PROFn_HOUSE n = 0 (R75)
  ⟨0x10024, 4, 1, 4, 1, 0x0, 0x0, 0x0, 0x30D4⟩,
  -- TB_FN_PRESET (R75)
  ⟨0x10044, 4, 1, 4, 1, 0xFFFFFFFF, 0x0, 0x0, 0x0⟩,
  -- TB_REHEARSE (R75)
  ⟨0x10048, 4, 1, 4, 1, 0x1FFFF, 0x0, 0x0, 0x0⟩,
  -- TB_STATUS (R75)
  ⟨0x10050, 4, 1, 4, 1, 0x0, 0x0, 0x1F00, 0x0⟩,
  -- TB_BCN_TRIMn (R75)
  ⟨0x100A0, 4, 8, 4, 1, 0x0, 0xFF, 0x0, 0x0⟩ ]

/-- Writable registers of the SHT block. -/
def regsSht : List RegRow := [
  -- SHT_CTRL (R109)
  ⟨0x20000, 4, 1, 4, 1, 0x0, 0x2, 0x0, 0x0⟩,
  -- SHT_STATUS (R109)
  ⟨0x20004, 4, 1, 4, 1, 0x0, 0x0, 0x7E, 0x0⟩,
  -- SHT_STORE (R109)
  ⟨0x20008, 4, 1, 4, 1, 0x0, 0x0, 0x0, 0x100⟩,
  -- SHT_LOCK (R109)
  ⟨0x2000C, 4, 1, 4, 1, 0x0, 0x0, 0x0, 0x0⟩,
  -- SHT_LOAD_ADDR_LO (R109)
  ⟨0x20010, 4, 1, 4, 1, 0xFFFFFFC0, 0x0, 0x0, 0x0⟩,
  -- SHT_LOAD_ADDR_HI (R109)
  ⟨0x20014, 4, 1, 4, 1, 0xFFFFFFFF, 0x0, 0x0, 0x0⟩,
  -- SHT_LOAD_LEN (R109)
  ⟨0x20018, 4, 1, 4, 1, 0xFFFFFFFF, 0x0, 0x0, 0x0⟩,
  -- SHT_LOAD_CTRL (R109)
  ⟨0x2001C, 4, 1, 4, 1, 0xFFF, 0x0, 0x0, 0x0⟩,
  -- SHT_DIG_SEL (R109)
  ⟨0x20030, 4, 1, 4, 1, 0xFFF, 0x0, 0x0, 0x0⟩,
  -- SHT_START_FN (R109)
  ⟨0x20034, 4, 1, 4, 1, 0x0, 0xFFFFFFFF, 0x0, 0x0⟩,
  -- SHT_HOUSE_FB (R109)
  ⟨0x20080, 4, 1, 4, 1, 0x0, 0x0, 0x0, 0x0⟩,
  -- SHT_FBp (R109)
  ⟨0x20100, 4, 32, 4, 1, 0x0, 0x0, 0x0, 0x0⟩ ]

/-- Writable registers of the GRD block. -/
def regsGrd : List RegRow := [
  -- GRD_CTRL (R139)
  ⟨0x30004, 4, 1, 4, 1, 0x0, 0x1, 0x0, 0x1⟩,
  -- GRD_STATUS (R139)
  ⟨0x30008, 4, 1, 4, 1, 0x0, 0x0, 0x13, 0x0⟩,
  -- GRD_MAP_SEL (R139)
  ⟨0x30024, 4, 1, 4, 1, 0xFFF, 0x0, 0x0, 0x0⟩,
  -- GRD_PHYS_SEL (R139)
  ⟨0x30030, 4, 1, 4, 1, 0xFFF, 0x0, 0x0, 0x0⟩,
  -- GRD_EXC_STATUS (R139)
  ⟨0x30040, 4, 1, 4, 1, 0x0, 0x0, 0xF, 0x0⟩,
  -- GRD_LOCK (R139)
  ⟨0x30060, 4, 1, 4, 1, 0x0, 0x0, 0x0, 0x0⟩ ]

/-- Writable registers of the VEC block. -/
def regsVec : List RegRow := [
  -- VEC_CTRL (R221)
  ⟨0x40004, 4, 1, 4, 1, 0x0, 0x1, 0x0, 0x1⟩,
  -- VEC_STATUS (R221)
  ⟨0x40008, 4, 1, 4, 1, 0x0, 0x0, 0x1F, 0x0⟩,
  -- VEC_EXC_STATUS (R221)
  ⟨0x4001C, 4, 1, 4, 1, 0x0, 0x0, 0xF, 0x0⟩,
  -- VEC_PLOAD_ADDR_LO (R221)
  ⟨0x40020, 4, 1, 4, 1, 0xFFFFFFC0, 0x0, 0x0, 0x0⟩,
  -- VEC_PLOAD_ADDR_HI (R221)
  ⟨0x40024, 4, 1, 4, 1, 0xFFFFFFFF, 0x0, 0x0, 0x0⟩,
  -- VEC_PLOAD_LEN (R221)
  ⟨0x40028, 4, 1, 4, 1, 0x1FFF, 0x0, 0x0, 0x0⟩,
  -- VEC_PLOAD_CTRL (R221)
  ⟨0x4002C, 4, 1, 4, 1, 0x3F, 0x0, 0x0, 0x0⟩,
  -- VEC_PSLOT_SEL (R221)
  ⟨0x40034, 4, 1, 4, 1, 0x3F, 0x0, 0x0, 0x0⟩,
  -- VEC_LOCK (R221)
  ⟨0x40044, 4, 1, 4, 1, 0x0, 0x0, 0x0, 0x0⟩ ]

/-- Writable registers of the TIER block. -/
def regsTier : List RegRow := [
  -- TIER_CTRL (R251)
  ⟨0x50004, 4, 1, 4, 1, 0x0, 0x1, 0x0, 0x0⟩,
  -- TIER_STATUS (R251)
  ⟨0x50008, 4, 1, 4, 1, 0x0, 0x0, 0x36, 0x0⟩,
  -- TIER_LOCK (R251)
  ⟨0x50038, 4, 1, 4, 1, 0x0, 0x0, 0x0, 0x0⟩,
  -- TIER_Hp_BASE_LO (R251)
  ⟨0x50100, 16, 32, 4, 1, 0xFFFFF000, 0x0, 0x0, 0x0⟩,
  -- TIER_Hp_BASE_HI (R251)
  ⟨0x50104, 16, 32, 4, 1, 0xFFFFFFFF, 0x0, 0x0, 0x0⟩,
  -- TIER_Hp_SIZE (R251)
  ⟨0x50108, 16, 32, 4, 1, 0xFFFFFFFF, 0x0, 0x0, 0x0⟩,
  -- TIER_Hp_RATE (R251)
  ⟨0x5010C, 16, 32, 4, 1, 0x1FF, 0x0, 0x0, 0x0⟩ ]

/-- Writable registers of the BNK block. -/
def regsBnk : List RegRow := [
  -- BNK_CTRL (R276)
  ⟨0x60004, 4, 1, 4, 1, 0x0, 0xFF, 0x0, 0x40⟩,
  -- BNK_STATUS (R276)
  ⟨0x60008, 4, 1, 4, 1, 0x0, 0x0, 0x1F, 0x0⟩,
  -- BNK_LOCK (R276)
  ⟨0x6000C, 4, 1, 4, 1, 0x0, 0x0, 0x0, 0x0⟩,
  -- BNK_SEL (R276)
  ⟨0x60010, 4, 1, 4, 1, 0x7FF, 0x0, 0x0, 0x0⟩ ]

/-- Writable registers of the NMD block. -/
def regsNmd : List RegRow := [
  -- NMD_CTRL (R277)
  ⟨0x70004, 4, 1, 4, 1, 0x0, 0x1FFF, 0x0, 0x1808⟩,
  -- NMD_STATUS (R277)
  ⟨0x70008, 4, 1, 4, 1, 0x0, 0x0, 0x7F, 0x0⟩,
  -- NMD_LOCK (R277)
  ⟨0x70010, 4, 1, 4, 1, 0x0, 0x0, 0x0, 0x0⟩,
  -- NMD_UPD_STATUS (R364)
  ⟨0x71004, 4, 1, 4, 1, 0x0, 0x0, 0x1F, 0x0⟩,
  -- NMD_UPD_CLIPp (R364)
  ⟨0x71100, 4, 32, 4, 1, 0x0, 0xFFFF, 0x0, 0x7F80⟩ ]

/-- Writable registers of the TNT block. -/
def regsTnt : List RegRow := [
  -- TNT_STATUS (R319)
  ⟨0x80004, 4, 1, 4, 1, 0x0, 0x0, 0x18, 0x0⟩,
  -- TNT_LOCK (R319)
  ⟨0x80008, 4, 1, 4, 1, 0x0, 0x0, 0x0, 0x0⟩,
  -- TNT_PLATE_ADDR_LO (R319)
  ⟨0x80010, 4, 1, 4, 1, 0xFFFFFFC0, 0x0, 0x0, 0x0⟩,
  -- TNT_PLATE_ADDR_HI (R319)
  ⟨0x80014, 4, 1, 4, 1, 0xFFFFFFFF, 0x0, 0x0, 0x0⟩,
  -- TNT_PLATE_LEN (R319)
  ⟨0x80018, 4, 1, 4, 1, 0xFFFFFFFF, 0x0, 0x0, 0x0⟩,
  -- TNT_PLATE_CTRL (R319)
  ⟨0x8001C, 4, 1, 4, 1, 0x74, 0x0, 0x0, 0x0⟩,
  -- TNT_SEL (R319)
  ⟨0x80108, 4, 1, 4, 1, 0xFFFF, 0x0, 0x0, 0x0⟩,
  -- TNT_SLOT_SEL (R319)
  ⟨0x80120, 4, 1, 4, 1, 0xFFF, 0x0, 0x0, 0x0⟩ ]

/-- Writable registers of the SES block. -/
def regsSes : List RegRow := [
  -- SES_STATUS (R320)
  ⟨0x90004, 4, 1, 4, 1, 0x0, 0x0, 0x7, 0x0⟩,
  -- SES_LOCK (R320)
  ⟨0x90008, 4, 1, 4, 1, 0x0, 0x0, 0x0, 0x0⟩,
  -- SES_SEL (R320)
  ⟨0x90104, 4, 1, 4, 1, 0xFFFF, 0x0, 0x0, 0x0⟩,
  -- SES_INS_ADDR_LO (R320)
  ⟨0x90200, 4, 1, 4, 1, 0xFFFFFFC0, 0x0, 0x0, 0x0⟩,
  -- SES_INS_ADDR_HI (R320)
  ⟨0x90204, 4, 1, 4, 1, 0xFFFFFFFF, 0x0, 0x0, 0x0⟩,
  -- SES_INS_LEN (R320)
  ⟨0x90208, 4, 1, 4, 1, 0xFFFFFFFF, 0x0, 0x0, 0x0⟩,
  -- SES_INS_REF (R320)
  ⟨0x9020C, 4, 1, 4, 1, 0x7FFFFFFF, 0x0, 0x0, 0x0⟩,
  -- SES_INS_CTRL (R320)
  ⟨0x90210, 4, 1, 4, 1, 0xFFF, 0x0, 0x0, 0x0⟩,
  -- SES_INS_SEL (R320)
  ⟨0x90218, 4, 1, 4, 1, 0x3F, 0x0, 0x0, 0x0⟩ ]

/-- Writable registers of the QUE block. -/
def regsQue : List RegRow := [
  -- QUE_SQn_BASE_LO, QUE_CQn_BASE_LO (R397)
  ⟨0xA2000, 32, 1056, 4, 1, 0xFFFFF000, 0x0, 0x0, 0x0⟩,
  -- QUE_SQn_BASE_HI, QUE_CQn_BASE_HI (R397)
  ⟨0xA2004, 32, 1056, 4, 1, 0xFFFFFFFF, 0x0, 0x0, 0x0⟩,
  -- QUE_SQn_DB_LO, QUE_CQn_DB_LO (R397)
  ⟨0xA2008, 32, 1056, 4, 1, 0xFFFFFFFC, 0x0, 0x0, 0x0⟩,
  -- QUE_SQn_DB_HI, QUE_CQn_DB_HI (R397)
  ⟨0xA200C, 32, 1056, 4, 1, 0xFFFFFFFF, 0x0, 0x0, 0x0⟩,
  -- QUE_SQn_CFG (R397)
  ⟨0xA2010, 1024, 33, 32, 16, 0x7E, 0x0, 0x0, 0x18⟩,
  -- QUE_CQn_CFG (R397)
  ⟨0xA2210, 1024, 33, 32, 16, 0xFE, 0x0, 0x0, 0x30⟩,
  -- QUE_CQn_WAKE_LO (R397)
  ⟨0xA2218, 1024, 33, 32, 16, 0xFFFFFFF8, 0x0, 0x0, 0x0⟩,
  -- QUE_CQn_WAKE_HI (R397)
  ⟨0xA221C, 1024, 33, 32, 16, 0xFFFFFFFF, 0x0, 0x0, 0x0⟩,
  -- QUE_STATUSs (R397)
  ⟨0xAB000, 8, 33, 4, 1, 0x0, 0x0, 0x3F, 0x0⟩ ]

/-- Writable registers of the PRT block. -/
def regsPrt : List RegRow := [
  -- PRT_STATUS (R418)
  ⟨0xB001C, 4, 1, 4, 1, 0x0, 0x0, 0x1, 0x0⟩,
  -- PRT_Pp_OPT (R418)
  ⟨0xB1004, 64, 32, 4, 1, 0x3, 0x0, 0x0, 0x0⟩,
  -- PRT_Pp_SEED_LO (R418)
  ⟨0xB1008, 64, 32, 4, 1, 0xFFFFFFFF, 0x0, 0x0, 0x0⟩,
  -- PRT_Pp_SEED_HI (R418)
  ⟨0xB100C, 64, 32, 4, 1, 0xFFFFFFFF, 0x0, 0x0, 0x0⟩,
  -- PRT_Pp_SEGn (R418)
  ⟨0xB1010, 64, 32, 4, 4, 0x3FFFFF, 0x0, 0x0, 0x0⟩,
  -- PRT_Pp_F (R418)
  ⟨0xB1020, 64, 32, 4, 1, 0x3FFFFF, 0x0, 0x0, 0x0⟩,
  -- PRT_Pp_SLOT (R418)
  ⟨0xB1024, 64, 32, 4, 1, 0xFFFFFFFF, 0x0, 0x0, 0x0⟩,
  -- PRT_Pp_S (R418)
  ⟨0xB1028, 64, 32, 4, 1, 0x7FF, 0x0, 0x0, 0x0⟩,
  -- PRT_Pp_TINTS (R418)
  ⟨0xB102C, 64, 32, 4, 1, 0xFFFFFFFF, 0x0, 0x0, 0x1⟩,
  -- PRT_Pp_SES (R418)
  ⟨0xB1030, 64, 32, 4, 1, 0xFFFFFFFF, 0x0, 0x0, 0x1⟩,
  -- PRT_Pp_QUE (R418)
  ⟨0xB1034, 64, 32, 4, 1, 0x1FFFFFFF, 0x0, 0x0, 0x0⟩,
  -- PRT_Pp_REEL (R418)
  ⟨0xB1038, 64, 32, 4, 1, 0xFF, 0x0, 0x0, 0x0⟩ ]

/-- Writable registers of the MBX block. -/
def regsMbx : List RegRow := [
  -- MBX_LOCK (R419)
  ⟨0xC0004, 4, 1, 4, 1, 0x0, 0x0, 0x0, 0x0⟩,
  -- MBX_STATUS (R419)
  ⟨0xC0008, 4, 1, 4, 1, 0x0, 0x0, 0x7, 0x0⟩,
  -- MBX_BINDc (R419)
  ⟨0xC0100, 4, 64, 4, 1, 0x0, 0x0, 0x0, 0x80000⟩ ]

/-- Writable registers of the REEL block. -/
def regsReel : List RegRow := [
  -- REEL_CTRL (R447)
  ⟨0xD0004, 4, 1, 4, 1, 0x0, 0xFFFF, 0x0, 0x410⟩,
  -- REEL_STATUS (R447)
  ⟨0xD0008, 4, 1, 4, 1, 0x0, 0x0, 0xFF, 0x0⟩,
  -- REEL_LOCK (R447)
  ⟨0xD000C, 4, 1, 4, 1, 0x0, 0x0, 0x0, 0x0⟩,
  -- REEL_GROUP (R447)
  ⟨0xD0010, 4, 1, 4, 1, 0x0, 0x1FF, 0x0, 0x10⟩,
  -- REEL_DIST (R447)
  ⟨0xD0018, 4, 1, 4, 1, 0xF, 0x0, 0x0, 0x0⟩,
  -- REEL_BULK_ADDR_LO (R447)
  ⟨0xD0020, 4, 1, 4, 1, 0xFFFFFFC0, 0x0, 0x0, 0x0⟩,
  -- REEL_BULK_ADDR_HI (R447)
  ⟨0xD0024, 4, 1, 4, 1, 0xFFFFFFFF, 0x0, 0x0, 0x0⟩,
  -- REEL_BULK_LEN (R447)
  ⟨0xD0028, 4, 1, 4, 1, 0xFFFFFFFF, 0x0, 0x0, 0x0⟩,
  -- REEL_BULK_CTRL (R447)
  ⟨0xD002C, 4, 1, 4, 1, 0xF, 0x0, 0x0, 0x0⟩ ]

/-- Writable registers of the SEC block. -/
def regsSec : List RegRow := [
  -- SEC_STATUS (R475)
  ⟨0xE0004, 4, 1, 4, 1, 0x0, 0x0, 0x27, 0x0⟩,
  -- SEC_LOCK (R475)
  ⟨0xE0008, 4, 1, 4, 1, 0x0, 0x0, 0x0, 0x0⟩,
  -- SEC_CMD_ADDR_LO (R475)
  ⟨0xE0014, 4, 1, 4, 1, 0xFFFFFFC0, 0x0, 0x0, 0x0⟩,
  -- SEC_CMD_ADDR_HI (R475)
  ⟨0xE0018, 4, 1, 4, 1, 0xFFFFFFFF, 0x0, 0x0, 0x0⟩,
  -- SEC_CMD_CTRL (R475)
  ⟨0xE001C, 4, 1, 4, 1, 0x0, 0x0, 0x0, 0x0⟩,
  -- SEC_KEY_ADDR_LO (R475)
  ⟨0xE0024, 4, 1, 4, 1, 0xFFFFFFC0, 0x0, 0x0, 0x0⟩,
  -- SEC_KEY_ADDR_HI (R475)
  ⟨0xE0028, 4, 1, 4, 1, 0xFFFFFFFF, 0x0, 0x0, 0x0⟩,
  -- SEC_KEY_CTRL (R475)
  ⟨0xE002C, 4, 1, 4, 1, 0x3, 0x0, 0x0, 0x0⟩,
  -- SEC_KEY_FN (R475)
  ⟨0xE0030, 4, 1, 4, 1, 0xFFFFFFFF, 0x0, 0x0, 0x0⟩,
  -- SEC_DIG_SEL (R475)
  ⟨0xE0044, 4, 1, 4, 1, 0xF, 0x0, 0x0, 0x0⟩,
  -- SEC_DEST_DIGn (R475)
  ⟨0xE00C0, 4, 16, 4, 1, 0xFFFFFFFF, 0x0, 0x0, 0x0⟩,
  -- SEC_MCTP_CTRL (R475)
  ⟨0xE0100, 4, 1, 4, 1, 0x7F, 0x0, 0x0, 0x0⟩,
  -- SEC_MCTP_TXw (R475)
  ⟨0xE0140, 4, 20, 4, 1, 0xFFFFFFFF, 0x0, 0x0, 0x0⟩ ]

/-- Writable registers of the SAF block. -/
def regsSaf : List RegRow := [
  -- SAF_CTRL (R497)
  ⟨0xF0000, 4, 1, 4, 1, 0x0, 0x0, 0x0, 0x110⟩,
  -- SAF_PROMOTE (R497)
  ⟨0xF0004, 4, 1, 4, 1, 0x0, 0x0, 0x0, 0x301C0⟩,
  -- SAF_STATUS (R497)
  ⟨0xF0008, 4, 1, 4, 1, 0x0, 0x0, 0x1C, 0x0⟩,
  -- SAF_UNIT_SEL (R497)
  ⟨0xF001C, 4, 1, 4, 1, 0xFFFFF, 0x0, 0x0, 0x0⟩,
  -- SAF_LOCK (R497)
  ⟨0xF0024, 4, 1, 4, 1, 0x0, 0x0, 0x0, 0x0⟩ ]

/-- Writable registers of the CLG block. -/
def regsClg : List RegRow := [
  -- CLG_STATUS (R498)
  ⟨0x100000, 4, 1, 4, 1, 0x0, 0x0, 0x3, 0x0⟩,
  -- CLG_SEL (R498)
  ⟨0x100010, 4, 1, 4, 1, 0x3FFFF, 0x0, 0x0, 0x0⟩ ]

/-- Writable registers of the PWR block. -/
def regsPwr : List RegRow := [
  -- PWR_CTRL (R514)
  ⟨0x110004, 4, 1, 4, 1, 0x0, 0xFFFF, 0x0, 0x4032⟩,
  -- PWR_STATUS (R514)
  ⟨0x110008, 4, 1, 4, 1, 0x0, 0x0, 0xB0, 0x0⟩,
  -- PWR_DROOP (R514)
  ⟨0x110020, 4, 1, 4, 1, 0x0, 0xFFFFFFFF, 0x0, 0xF503C28⟩,
  -- PWR_LOCK (R514)
  ⟨0x110028, 4, 1, 4, 1, 0x0, 0x0, 0x0, 0x0⟩ ]

/-- Writable registers of the BOOT block. -/
def regsBoot : List RegRow := [
  -- BOOT_STATUS (R525)
  ⟨0x120000, 4, 1, 4, 1, 0x0, 0x0, 0x20, 0x0⟩,
  -- BOOT_FL_OFF (R525)
  ⟨0x120044, 4, 1, 4, 1, 0xFFFFFFFF, 0x0, 0x0, 0x0⟩,
  -- BOOT_FL_LEN (R525)
  ⟨0x120048, 4, 1, 4, 1, 0xFFFFFFFF, 0x0, 0x0, 0x0⟩,
  -- BOOT_FL_HOST_LO (R525)
  ⟨0x12004C, 4, 1, 4, 1, 0xFFFFFFC0, 0x0, 0x0, 0x0⟩,
  -- BOOT_FL_HOST_HI (R525)
  ⟨0x120050, 4, 1, 4, 1, 0xFFFFFFFF, 0x0, 0x0, 0x0⟩,
  -- BOOT_FL_CTRL (R525)
  ⟨0x120054, 4, 1, 4, 1, 0x3, 0x0, 0x0, 0x0⟩ ]

/-- The writable registers of the block at `off`. -/
def regRows (off : Nat) : List RegRow :=
  match off / 65536 with
  | 1 => regsTb
  | 2 => regsSht
  | 3 => regsGrd
  | 4 => regsVec
  | 5 => regsTier
  | 6 => regsBnk
  | 7 => regsNmd
  | 8 => regsTnt
  | 9 => regsSes
  | 10 => regsQue
  | 11 => regsPrt
  | 12 => regsMbx
  | 13 => regsReel
  | 14 => regsSec
  | 15 => regsSaf
  | 16 => regsClg
  | 17 => regsPwr
  | 18 => regsBoot
  | _ => []

/-- The row of a register, if it is writable. -/
def regRow (off : Nat) : Option RegRow := (regRows off).find? fun r => r.covers off

/-- What an unlisted key of `State.regs` reads as: the reset value of the register (views of one register by different
functions or masters have keys 2^32 apart). -/
def regReset (key : Nat) : Word :=
  match regRow (key % 4294967296) with
  | some r => r.reset
  | none => 0

end Sys2Proof.Machine
end

