-- ==== Sys2Proof/Machine/Regs.lean ====
section
/-! DEFINITION. Offsets of the registers in the setup window, from the register maps of the chapters; of a group, the offset of
its first register. -/

namespace Sys2Proof.Machine

/-- TB_NOW_LO (R75). -/
abbrev Reg.tbNowLo : Nat := 0x10000
/-- TB_NOW_HI (R75). -/
abbrev Reg.tbNowHi : Nat := 0x10004
/-- TB_FN (R75). -/
abbrev Reg.tbFn : Nat := 0x10008
/-- TB_EPOCH (R75). -/
abbrev Reg.tbEpoch : Nat := 0x1000C
/-- TB_CTRL (R75). -/
abbrev Reg.tbCtrl : Nat := 0x10010
/-- TB_TICK_SRC (R75). -/
abbrev Reg.tbTickSrc : Nat := 0x10014
/-- TB_TICK_IN_DLY (R75). -/
abbrev Reg.tbTickInDly : Nat := 0x10018
/-- TB_LOCK (R75). -/
abbrev Reg.tbLock : Nat := 0x1001C
/-- TB_PROFn_FRAME (R75). -/
abbrev Reg.tbProfFrame : Nat := 0x10020
/-- TB_PROFn_HOUSE (R75). -/
abbrev Reg.tbProfHouse : Nat := 0x10024
/-- TB_PROFILE (R75). -/
abbrev Reg.tbProfile : Nat := 0x10040
/-- TB_FN_PRESET (R75). -/
abbrev Reg.tbFnPreset : Nat := 0x10044
/-- TB_REHEARSE (R75). -/
abbrev Reg.tbRehearse : Nat := 0x10048
/-- TB_STATUS (R75). -/
abbrev Reg.tbStatus : Nat := 0x10050
/-- TB_PHASE_ERR (R75). -/
abbrev Reg.tbPhaseErr : Nat := 0x10054
/-- TB_MISS_CNT (R75). -/
abbrev Reg.tbMissCnt : Nat := 0x10058
/-- TB_FREQ_ADJ (R75). -/
abbrev Reg.tbFreqAdj : Nat := 0x1005C
/-- TB_TICK_LAST_LO (R75). -/
abbrev Reg.tbTickLastLo : Nat := 0x10060
/-- TB_TICK_LAST_HI (R75). -/
abbrev Reg.tbTickLastHi : Nat := 0x10064
/-- TB_BCN_DLYn (R75). -/
abbrev Reg.tbBcnDly : Nat := 0x10080
/-- TB_BCN_TRIMn (R75). -/
abbrev Reg.tbBcnTrim : Nat := 0x100A0
/-- SHT_CTRL (R109). -/
abbrev Reg.shtCtrl : Nat := 0x20000
/-- SHT_STATUS (R109). -/
abbrev Reg.shtStatus : Nat := 0x20004
/-- SHT_STORE (R109). -/
abbrev Reg.shtStore : Nat := 0x20008
/-- SHT_LOCK (R109). -/
abbrev Reg.shtLock : Nat := 0x2000C
/-- SHT_LOAD_ADDR_LO (R109). -/
abbrev Reg.shtLoadAddrLo : Nat := 0x20010
/-- SHT_LOAD_ADDR_HI (R109). -/
abbrev Reg.shtLoadAddrHi : Nat := 0x20014
/-- SHT_LOAD_LEN (R109). -/
abbrev Reg.shtLoadLen : Nat := 0x20018
/-- SHT_LOAD_CTRL (R109). -/
abbrev Reg.shtLoadCtrl : Nat := 0x2001C
/-- SHT_LOAD_STATUS (R109). -/
abbrev Reg.shtLoadStatus : Nat := 0x20020
/-- SHT_OVR_CNT (R109). -/
abbrev Reg.shtOvrCnt : Nat := 0x20024
/-- SHT_SHED_CNT (R109). -/
abbrev Reg.shtShedCnt : Nat := 0x20028
/-- SHT_FENCE_CNT (R109). -/
abbrev Reg.shtFenceCnt : Nat := 0x2002C
/-- SHT_DIG_SEL (R109). -/
abbrev Reg.shtDigSel : Nat := 0x20030
/-- SHT_START_FN (R109). -/
abbrev Reg.shtStartFn : Nat := 0x20034
/-- SHT_DIGn (R109). -/
abbrev Reg.shtDig : Nat := 0x20040
/-- SHT_HOUSE_FB (R109). -/
abbrev Reg.shtHouseFb : Nat := 0x20080
/-- SHT_FBp (R109). -/
abbrev Reg.shtFb : Nat := 0x20100
/-- SHT_PLAYp (R109). -/
abbrev Reg.shtPlay : Nat := 0x20200
/-- SHT_PLAY_HOUSE (R109). -/
abbrev Reg.shtPlayHouse : Nat := 0x20280
/-- SHT_HELDp (R109). -/
abbrev Reg.shtHeld : Nat := 0x20300
/-- SHT_HELD_HOUSE (R109). -/
abbrev Reg.shtHeldHouse : Nat := 0x20380
/-- SHT_GREY_LOp (R109). -/
abbrev Reg.shtGreyLo : Nat := 0x20400
/-- SHT_GREY_HIp (R109). -/
abbrev Reg.shtGreyHi : Nat := 0x20404
/-- SHT_GREY_HOUSE_LO (R109). -/
abbrev Reg.shtGreyHouseLo : Nat := 0x20500
/-- SHT_GREY_HOUSE_HI (R109). -/
abbrev Reg.shtGreyHouseHi : Nat := 0x20504
/-- GRD_CAP (R139). -/
abbrev Reg.grdCap : Nat := 0x30000
/-- GRD_CTRL (R139). -/
abbrev Reg.grdCtrl : Nat := 0x30004
/-- GRD_STATUS (R139). -/
abbrev Reg.grdStatus : Nat := 0x30008
/-- GRD_SPARES (R139). -/
abbrev Reg.grdSpares : Nat := 0x3000C
/-- GRD_CHK_BASE (R139). -/
abbrev Reg.grdChkBase : Nat := 0x30010
/-- GRD_CHK_FRAMES (R139). -/
abbrev Reg.grdChkFrames : Nat := 0x30014
/-- GRD_CHK_FAIL (R139). -/
abbrev Reg.grdChkFail : Nat := 0x30018
/-- GRD_CHK_FAIL_FN (R139). -/
abbrev Reg.grdChkFailFn : Nat := 0x3001C
/-- GRD_CHK_CNT (R139). -/
abbrev Reg.grdChkCnt : Nat := 0x30020
/-- GRD_MAP_SEL (R139). -/
abbrev Reg.grdMapSel : Nat := 0x30024
/-- GRD_MAP (R139). -/
abbrev Reg.grdMap : Nat := 0x30028
/-- GRD_MAP_PASS (R139). -/
abbrev Reg.grdMapPass : Nat := 0x3002C
/-- GRD_PHYS_SEL (R139). -/
abbrev Reg.grdPhysSel : Nat := 0x30030
/-- GRD_PHYS (R139). -/
abbrev Reg.grdPhys : Nat := 0x30034
/-- GRD_FENCE_REQ (R139). -/
abbrev Reg.grdFenceReq : Nat := 0x30038
/-- GRD_TILES (R139). -/
abbrev Reg.grdTiles : Nat := 0x3003C
/-- GRD_EXC_STATUS (R139). -/
abbrev Reg.grdExcStatus : Nat := 0x30040
/-- GRD_EXC_CNTn (R139). -/
abbrev Reg.grdExcCnt : Nat := 0x30050
/-- GRD_LOCK (R139). -/
abbrev Reg.grdLock : Nat := 0x30060
/-- VEC_CAP (R221). -/
abbrev Reg.vecCap : Nat := 0x40000
/-- VEC_CTRL (R221). -/
abbrev Reg.vecCtrl : Nat := 0x40004
/-- VEC_STATUS (R221). -/
abbrev Reg.vecStatus : Nat := 0x40008
/-- VEC_GREY (R221). -/
abbrev Reg.vecGrey : Nat := 0x4000C
/-- VEC_KAT_FAIL (R221). -/
abbrev Reg.vecKatFail : Nat := 0x40010
/-- VEC_KAT_FAIL_FN (R221). -/
abbrev Reg.vecKatFailFn : Nat := 0x40014
/-- VEC_FENCE_REQ (R221). -/
abbrev Reg.vecFenceReq : Nat := 0x40018
/-- VEC_EXC_STATUS (R221). -/
abbrev Reg.vecExcStatus : Nat := 0x4001C
/-- VEC_PLOAD_ADDR_LO (R221). -/
abbrev Reg.vecPloadAddrLo : Nat := 0x40020
/-- VEC_PLOAD_ADDR_HI (R221). -/
abbrev Reg.vecPloadAddrHi : Nat := 0x40024
/-- VEC_PLOAD_LEN (R221). -/
abbrev Reg.vecPloadLen : Nat := 0x40028
/-- VEC_PLOAD_CTRL (R221). -/
abbrev Reg.vecPloadCtrl : Nat := 0x4002C
/-- VEC_PLOAD_STATUS (R221). -/
abbrev Reg.vecPloadStatus : Nat := 0x40030
/-- VEC_PSLOT_SEL (R221). -/
abbrev Reg.vecPslotSel : Nat := 0x40034
/-- VEC_PSLOT (R221). -/
abbrev Reg.vecPslot : Nat := 0x40038
/-- VEC_PSLOT_CYC (R221). -/
abbrev Reg.vecPslotCyc : Nat := 0x4003C
/-- VEC_PSLOT_CLR (R221). -/
abbrev Reg.vecPslotClr : Nat := 0x40040
/-- VEC_LOCK (R221). -/
abbrev Reg.vecLock : Nat := 0x40044
/-- VEC_PDIGn (R221). -/
abbrev Reg.vecPdig : Nat := 0x40080
/-- VEC_KAT_PASSu (R221). -/
abbrev Reg.vecKatPass : Nat := 0x40100
/-- TIER_CAP (R251). -/
abbrev Reg.tierCap : Nat := 0x50000
/-- TIER_CTRL (R251). -/
abbrev Reg.tierCtrl : Nat := 0x50004
/-- TIER_STATUS (R251). -/
abbrev Reg.tierStatus : Nat := 0x50008
/-- TIER_STACKS (R251). -/
abbrev Reg.tierStacks : Nat := 0x5000C
/-- TIER_WINDOW (R251). -/
abbrev Reg.tierWindow : Nat := 0x50010
/-- TIER_HEAD (R251). -/
abbrev Reg.tierHead : Nat := 0x50014
/-- TIER_RES_LIMIT (R251). -/
abbrev Reg.tierResLimit : Nat := 0x50018
/-- TIER_REEL (R251). -/
abbrev Reg.tierReel : Nat := 0x5001C
/-- TIER_FETCH_FWD_NS (R251). -/
abbrev Reg.tierFetchFwdNs : Nat := 0x50020
/-- TIER_FETCH_REV_NS (R251). -/
abbrev Reg.tierFetchRevNs : Nat := 0x50024
/-- TIER_REBUILT_CNT (R251). -/
abbrev Reg.tierRebuiltCnt : Nat := 0x50028
/-- TIER_MOVE_CNT (R251). -/
abbrev Reg.tierMoveCnt : Nat := 0x5002C
/-- TIER_MOVE_LATE (R251). -/
abbrev Reg.tierMoveLate : Nat := 0x50030
/-- TIER_UNMIRRORED (R251). -/
abbrev Reg.tierUnmirrored : Nat := 0x50034
/-- TIER_LOCK (R251). -/
abbrev Reg.tierLock : Nat := 0x50038
/-- TIER_Hp_BASE_LO (R251). -/
abbrev Reg.tierHBaseLo : Nat := 0x50100
/-- TIER_Hp_BASE_HI (R251). -/
abbrev Reg.tierHBaseHi : Nat := 0x50104
/-- TIER_Hp_SIZE (R251). -/
abbrev Reg.tierHSize : Nat := 0x50108
/-- TIER_Hp_RATE (R251). -/
abbrev Reg.tierHRate : Nat := 0x5010C
/-- BNK_CAP (R276). -/
abbrev Reg.bnkCap : Nat := 0x60000
/-- BNK_CTRL (R276). -/
abbrev Reg.bnkCtrl : Nat := 0x60004
/-- BNK_STATUS (R276). -/
abbrev Reg.bnkStatus : Nat := 0x60008
/-- BNK_LOCK (R276). -/
abbrev Reg.bnkLock : Nat := 0x6000C
/-- BNK_SEL (R276). -/
abbrev Reg.bnkSel : Nat := 0x60010
/-- BNK_INFO (R276). -/
abbrev Reg.bnkInfo : Nat := 0x60014
/-- BNK_CONFr (R276). -/
abbrev Reg.bnkConf : Nat := 0x60020
/-- BNK_ERR_REF (R276). -/
abbrev Reg.bnkErrRef : Nat := 0x60040
/-- BNK_CE_TOTAL (R276). -/
abbrev Reg.bnkCeTotal : Nat := 0x60044
/-- BNK_UE_TOTAL (R276). -/
abbrev Reg.bnkUeTotal : Nat := 0x60048
/-- BNK_SCRUB (R276). -/
abbrev Reg.bnkScrub : Nat := 0x6004C
/-- BNK_Bb (R276). -/
abbrev Reg.bnkB : Nat := 0x61000
/-- NMD_CAP (R277). -/
abbrev Reg.nmdCap : Nat := 0x70000
/-- NMD_CTRL (R277). -/
abbrev Reg.nmdCtrl : Nat := 0x70004
/-- NMD_STATUS (R277). -/
abbrev Reg.nmdStatus : Nat := 0x70008
/-- NMD_FENCE_REQ (R277). -/
abbrev Reg.nmdFenceReq : Nat := 0x7000C
/-- NMD_LOCK (R277). -/
abbrev Reg.nmdLock : Nat := 0x70010
/-- NMDi_STATE (R277). -/
abbrev Reg.nmdState : Nat := 0x70100
/-- NMDi_CE_CNT (R277). -/
abbrev Reg.nmdCeCnt : Nat := 0x70104
/-- NMDi_UE_CNT (R277). -/
abbrev Reg.nmdUeCnt : Nat := 0x70108
/-- NMDi_RETRAIN (R277). -/
abbrev Reg.nmdRetrain : Nat := 0x70118
/-- NMDi_LINK_CNT (R277). -/
abbrev Reg.nmdLinkCnt : Nat := 0x7010C
/-- NMDi_PATROL (R277). -/
abbrev Reg.nmdPatrol : Nat := 0x70110
/-- NMDi_ERR_ADDR (R277). -/
abbrev Reg.nmdErrAddr : Nat := 0x70114
/-- TNT_CAP (R319). -/
abbrev Reg.tntCap : Nat := 0x80000
/-- TNT_STATUS (R319). -/
abbrev Reg.tntStatus : Nat := 0x80004
/-- TNT_LOCK (R319). -/
abbrev Reg.tntLock : Nat := 0x80008
/-- TNT_PLATE_ADDR_LO (R319). -/
abbrev Reg.tntPlateAddrLo : Nat := 0x80010
/-- TNT_PLATE_ADDR_HI (R319). -/
abbrev Reg.tntPlateAddrHi : Nat := 0x80014
/-- TNT_PLATE_LEN (R319). -/
abbrev Reg.tntPlateLen : Nat := 0x80018
/-- TNT_PLATE_CTRL (R319). -/
abbrev Reg.tntPlateCtrl : Nat := 0x8001C
/-- TNT_PLATE_STATUS (R319). -/
abbrev Reg.tntPlateStatus : Nat := 0x80020
/-- TNT_PLATE_PROGRESS (R319). -/
abbrev Reg.tntPlateProgress : Nat := 0x80024
/-- TNT_PLATE_DIGn (R319). -/
abbrev Reg.tntPlateDig : Nat := 0x80040
/-- TNT_RANGE (R319). -/
abbrev Reg.tntRange : Nat := 0x80100
/-- TNT_SLOTS (R319). -/
abbrev Reg.tntSlots : Nat := 0x80104
/-- TNT_SEL (R319). -/
abbrev Reg.tntSel : Nat := 0x80108
/-- TNT_ENTRY (R319). -/
abbrev Reg.tntEntry : Nat := 0x8010C
/-- TNT_ENTRY_GEN (R319). -/
abbrev Reg.tntEntryGen : Nat := 0x80110
/-- TNT_ENTRY_LEASE (R319). -/
abbrev Reg.tntEntryLease : Nat := 0x80114
/-- TNT_ENTRY_SIZE (R319). -/
abbrev Reg.tntEntrySize : Nat := 0x80118
/-- TNT_SLOT_SEL (R319). -/
abbrev Reg.tntSlotSel : Nat := 0x80120
/-- TNT_SLOT (R319). -/
abbrev Reg.tntSlot : Nat := 0x80124
/-- TNT_SLOT_GEN (R319). -/
abbrev Reg.tntSlotGen : Nat := 0x80128
/-- SES_CAP (R320). -/
abbrev Reg.sesCap : Nat := 0x90000
/-- SES_STATUS (R320). -/
abbrev Reg.sesStatus : Nat := 0x90004
/-- SES_LOCK (R320). -/
abbrev Reg.sesLock : Nat := 0x90008
/-- SES_RANGE (R320). -/
abbrev Reg.sesRange : Nat := 0x90100
/-- SES_SEL (R320). -/
abbrev Reg.sesSel : Nat := 0x90104
/-- SES_CTX (R320). -/
abbrev Reg.sesCtx : Nat := 0x90108
/-- SES_CTX_TINT (R320). -/
abbrev Reg.sesCtxTint : Nat := 0x9010C
/-- SES_CTX_POS (R320). -/
abbrev Reg.sesCtxPos : Nat := 0x90110
/-- SES_CTX_EXT (R320). -/
abbrev Reg.sesCtxExt : Nat := 0x90114
/-- SES_INS_ADDR_LO (R320). -/
abbrev Reg.sesInsAddrLo : Nat := 0x90200
/-- SES_INS_ADDR_HI (R320). -/
abbrev Reg.sesInsAddrHi : Nat := 0x90204
/-- SES_INS_LEN (R320). -/
abbrev Reg.sesInsLen : Nat := 0x90208
/-- SES_INS_REF (R320). -/
abbrev Reg.sesInsRef : Nat := 0x9020C
/-- SES_INS_CTRL (R320). -/
abbrev Reg.sesInsCtrl : Nat := 0x90210
/-- SES_INS_STATUS (R320). -/
abbrev Reg.sesInsStatus : Nat := 0x90214
/-- SES_INS_SEL (R320). -/
abbrev Reg.sesInsSel : Nat := 0x90218
/-- SES_INS_INFO (R320). -/
abbrev Reg.sesInsInfo : Nat := 0x9021C
/-- SES_INS_DIGn (R320). -/
abbrev Reg.sesInsDig : Nat := 0x90240
/-- NMD_UPD_CAP (R364). -/
abbrev Reg.nmdUpdCap : Nat := 0x71000
/-- NMD_UPD_STATUS (R364). -/
abbrev Reg.nmdUpdStatus : Nat := 0x71004
/-- NMD_UPD_SKIP_CNT (R364). -/
abbrev Reg.nmdUpdSkipCnt : Nat := 0x71008
/-- NMD_UPD_ABANDON_CNT (R364). -/
abbrev Reg.nmdUpdAbandonCnt : Nat := 0x7100C
/-- NMD_UPD_CLIPp (R364). -/
abbrev Reg.nmdUpdClip : Nat := 0x71100
/-- NMDi_UPD_STATE (R364). -/
abbrev Reg.nmdUpdState : Nat := 0x71200
/-- NMDi_UPD_BLOCKS (R364). -/
abbrev Reg.nmdUpdBlocks : Nat := 0x71204
/-- NMDi_UPD_LAST_NS (R364). -/
abbrev Reg.nmdUpdLastNs : Nat := 0x71208
/-- NMDi_UPD_NONFIN (R364). -/
abbrev Reg.nmdUpdNonfin : Nat := 0x7120C
/-- QUE_CAP (R397). -/
abbrev Reg.queCap : Nat := 0xA0000
/-- QUE_WATCH (R397). -/
abbrev Reg.queWatch : Nat := 0xA0004
/-- QUE_STATUS (R397). -/
abbrev Reg.queStatus : Nat := 0xA0008
/-- QUE_STATUSs (R397). -/
abbrev Reg.queStatusSet : Nat := 0xAB000
/-- QUE_SHARE (R397). -/
abbrev Reg.queShare : Nat := 0xA000C
/-- QUE_SHAREs (R397). -/
abbrev Reg.queShareSet : Nat := 0xAB004
/-- QUE_UCLn (R397). -/
abbrev Reg.queUcl : Nat := 0xA0020
/-- PRT_CAP (R418). -/
abbrev Reg.prtCap : Nat := 0xB0000
/-- PRT_CMD (R418). -/
abbrev Reg.prtCmd : Nat := 0xB0004
/-- PRT_CMD_STATUS (R418). -/
abbrev Reg.prtCmdStatus : Nat := 0xB0008
/-- PRT_POOL_F (R418). -/
abbrev Reg.prtPoolF : Nat := 0xB000C
/-- PRT_POOL_S (R418). -/
abbrev Reg.prtPoolS : Nat := 0xB0010
/-- PRT_POOL_Q (R418). -/
abbrev Reg.prtPoolQ : Nat := 0xB0014
/-- PRT_Pp_QUE (R418). -/
abbrev Reg.prtPQue : Nat := 0xB1034
/-- PRT_POOL_REEL (R418). -/
abbrev Reg.prtPoolReel : Nat := 0xB0018
/-- PRT_Pp_REEL (R418). -/
abbrev Reg.prtPReel : Nat := 0xB1038
/-- PRT_STATUS (R418). -/
abbrev Reg.prtStatus : Nat := 0xB001C
/-- PRT_Pp_STATE (R418). -/
abbrev Reg.prtPState : Nat := 0xB1000
/-- PRT_Pp_OPT (R418). -/
abbrev Reg.prtPOpt : Nat := 0xB1004
/-- PRT_Pp_SEED_LO (R418). -/
abbrev Reg.prtPSeedLo : Nat := 0xB1008
/-- PRT_Pp_SEED_HI (R418). -/
abbrev Reg.prtPSeedHi : Nat := 0xB100C
/-- PRT_Pp_SEGn (R418). -/
abbrev Reg.prtPSeg : Nat := 0xB1010
/-- PRT_Pp_F (R418). -/
abbrev Reg.prtPF : Nat := 0xB1020
/-- PRT_Pp_SLOT (R418). -/
abbrev Reg.prtPSlot : Nat := 0xB1024
/-- PRT_Pp_S (R418). -/
abbrev Reg.prtPS : Nat := 0xB1028
/-- PRT_Pp_TINTS (R418). -/
abbrev Reg.prtPTints : Nat := 0xB102C
/-- PRT_Pp_SES (R418). -/
abbrev Reg.prtPSes : Nat := 0xB1030
/-- PRT_Pp_FN_OFF (R418). -/
abbrev Reg.prtPFnOff : Nat := 0xB103C
/-- MBX_CAP (R419). -/
abbrev Reg.mbxCap : Nat := 0xC0000
/-- MBX_LOCK (R419). -/
abbrev Reg.mbxLock : Nat := 0xC0004
/-- MBX_STATUS (R419). -/
abbrev Reg.mbxStatus : Nat := 0xC0008
/-- MBX_BINDc (R419). -/
abbrev Reg.mbxBind : Nat := 0xC0100
/-- MBX_CHc_CTRL (R419). -/
abbrev Reg.mbxChCtrl : Nat := 0xC1000
/-- MBX_CHc_Dw (R419). -/
abbrev Reg.mbxChD : Nat := 0xC1040
/-- REEL_CAP (R447). -/
abbrev Reg.reelCap : Nat := 0xD0000
/-- REEL_CTRL (R447). -/
abbrev Reg.reelCtrl : Nat := 0xD0004
/-- REEL_STATUS (R447). -/
abbrev Reg.reelStatus : Nat := 0xD0008
/-- REEL_LOCK (R447). -/
abbrev Reg.reelLock : Nat := 0xD000C
/-- REEL_GROUP (R447). -/
abbrev Reg.reelGroup : Nat := 0xD0010
/-- REEL_FENCE_REQ (R447). -/
abbrev Reg.reelFenceReq : Nat := 0xD0014
/-- REEL_DIST (R447). -/
abbrev Reg.reelDist : Nat := 0xD0018
/-- REEL_BULK_ADDR_LO (R447). -/
abbrev Reg.reelBulkAddrLo : Nat := 0xD0020
/-- REEL_BULK_ADDR_HI (R447). -/
abbrev Reg.reelBulkAddrHi : Nat := 0xD0024
/-- REEL_BULK_LEN (R447). -/
abbrev Reg.reelBulkLen : Nat := 0xD0028
/-- REEL_BULK_CTRL (R447). -/
abbrev Reg.reelBulkCtrl : Nat := 0xD002C
/-- REEL_BULK_STATUS (R447). -/
abbrev Reg.reelBulkStatus : Nat := 0xD0030
/-- REEL_BULK_DONE (R447). -/
abbrev Reg.reelBulkDone : Nat := 0xD0034
/-- REEL_Pn_STATE (R447). -/
abbrev Reg.reelPState : Nat := 0xD0100
/-- REEL_Pn_CRC (R447). -/
abbrev Reg.reelPCrc : Nat := 0xD0104
/-- REEL_Pn_MISS (R447). -/
abbrev Reg.reelPMiss : Nat := 0xD0108
/-- REEL_Pn_VOID (R447). -/
abbrev Reg.reelPVoid : Nat := 0xD010C
/-- REEL_Pn_STRAY (R447). -/
abbrev Reg.reelPStray : Nat := 0xD0110
/-- REEL_Pn_WIN (R447). -/
abbrev Reg.reelPWin : Nat := 0xD0114
/-- REEL_Pn_TX (R447). -/
abbrev Reg.reelPTx : Nat := 0xD0118
/-- REEL_Pn_RX (R447). -/
abbrev Reg.reelPRx : Nat := 0xD011C
/-- SEC_CAP (R475). -/
abbrev Reg.secCap : Nat := 0xE0000
/-- SEC_STATUS (R475). -/
abbrev Reg.secStatus : Nat := 0xE0004
/-- SEC_LOCK (R475). -/
abbrev Reg.secLock : Nat := 0xE0008
/-- SEC_CUST (R475). -/
abbrev Reg.secCust : Nat := 0xE000C
/-- SEC_CUST_SEQ (R475). -/
abbrev Reg.secCustSeq : Nat := 0xE0010
/-- SEC_CMD_ADDR_LO (R475). -/
abbrev Reg.secCmdAddrLo : Nat := 0xE0014
/-- SEC_CMD_ADDR_HI (R475). -/
abbrev Reg.secCmdAddrHi : Nat := 0xE0018
/-- SEC_CMD_CTRL (R475). -/
abbrev Reg.secCmdCtrl : Nat := 0xE001C
/-- SEC_CMD_STATUS (R475). -/
abbrev Reg.secCmdStatus : Nat := 0xE0020
/-- SEC_KEY_STATUS (R475). -/
abbrev Reg.secKeyStatus : Nat := 0xE0034
/-- SEC_KEY_ADDR_LO (R475). -/
abbrev Reg.secKeyAddrLo : Nat := 0xE0024
/-- SEC_KEY_ADDR_HI (R475). -/
abbrev Reg.secKeyAddrHi : Nat := 0xE0028
/-- SEC_KEY_CTRL (R475). -/
abbrev Reg.secKeyCtrl : Nat := 0xE002C
/-- SEC_KEY_FN (R475). -/
abbrev Reg.secKeyFn : Nat := 0xE0030
/-- SEC_LIFE (R475). -/
abbrev Reg.secLife : Nat := 0xE0038
/-- SEC_BOOTS (R475). -/
abbrev Reg.secBoots : Nat := 0xE003C
/-- SEC_PIMP (R475). -/
abbrev Reg.secPimp : Nat := 0xE0040
/-- SEC_DIG_SEL (R475). -/
abbrev Reg.secDigSel : Nat := 0xE0044
/-- SEC_DIGn (R475). -/
abbrev Reg.secDig : Nat := 0xE0080
/-- SEC_DEST_DIGn (R475). -/
abbrev Reg.secDestDig : Nat := 0xE00C0
/-- SEC_MCTP_CTRL (R475). -/
abbrev Reg.secMctpCtrl : Nat := 0xE0100
/-- SEC_MCTP_TXw (R475). -/
abbrev Reg.secMctpTx : Nat := 0xE0140
/-- SEC_MCTP_RXw (R475). -/
abbrev Reg.secMctpRx : Nat := 0xE0190
/-- SAF_CTRL (R497). -/
abbrev Reg.safCtrl : Nat := 0xF0000
/-- SAF_PROMOTE (R497). -/
abbrev Reg.safPromote : Nat := 0xF0004
/-- SAF_STATUS (R497). -/
abbrev Reg.safStatus : Nat := 0xF0008
/-- SAF_CAUSE (R497). -/
abbrev Reg.safCause : Nat := 0xF000C
/-- SAF_CAUSE_FN (R497). -/
abbrev Reg.safCauseFn : Nat := 0xF0010
/-- SAF_SAFE_REQ (R497). -/
abbrev Reg.safSafeReq : Nat := 0xF0014
/-- SAF_FENCE_REQ (R497). -/
abbrev Reg.safFenceReq : Nat := 0xF0018
/-- SAF_UNIT_SEL (R497). -/
abbrev Reg.safUnitSel : Nat := 0xF001C
/-- SAF_UNIT (R497). -/
abbrev Reg.safUnit : Nat := 0xF0020
/-- SAF_LOCK (R497). -/
abbrev Reg.safLock : Nat := 0xF0024
/-- SAF_FENCE_CNTk (R497). -/
abbrev Reg.safFenceCnt : Nat := 0xF0040
/-- CLG_STATUS (R498). -/
abbrev Reg.clgStatus : Nat := 0x100000
/-- CLG_COUNT_LO (R498). -/
abbrev Reg.clgCountLo : Nat := 0x100004
/-- CLG_COUNT_HI (R498). -/
abbrev Reg.clgCountHi : Nat := 0x100008
/-- CLG_LOST (R498). -/
abbrev Reg.clgLost : Nat := 0x10000C
/-- CLG_SEL (R498). -/
abbrev Reg.clgSel : Nat := 0x100010
/-- CLG_SLOT (R498). -/
abbrev Reg.clgSlot : Nat := 0x100014
/-- CLG_RECw (R498). -/
abbrev Reg.clgRec : Nat := 0x100040
/-- PWR_CAP (R514). -/
abbrev Reg.pwrCap : Nat := 0x110000
/-- PWR_CTRL (R514). -/
abbrev Reg.pwrCtrl : Nat := 0x110004
/-- PWR_STATUS (R514). -/
abbrev Reg.pwrStatus : Nat := 0x110008
/-- PWR_CEIL (R514). -/
abbrev Reg.pwrCeil : Nat := 0x11000C
/-- PWR_STEPn (R514). -/
abbrev Reg.pwrStep : Nat := 0x110010
/-- PWR_DROOP (R514). -/
abbrev Reg.pwrDroop : Nat := 0x110020
/-- PWR_VDD_TARGET (R514). -/
abbrev Reg.pwrVddTarget : Nat := 0x110024
/-- PWR_LOCK (R514). -/
abbrev Reg.pwrLock : Nat := 0x110028
/-- PWR_FADE_CNT (R514). -/
abbrev Reg.pwrFadeCnt : Nat := 0x11002C
/-- PWR_FADE_USk (R514). -/
abbrev Reg.pwrFadeUs : Nat := 0x110030
/-- PWR_TJ (R514). -/
abbrev Reg.pwrTj : Nat := 0x110040
/-- PWR_TJ_PEAK (R514). -/
abbrev Reg.pwrTjPeak : Nat := 0x110044
/-- PWR_POWER (R514). -/
abbrev Reg.pwrPower : Nat := 0x110048
/-- PWR_RAILn (R514). -/
abbrev Reg.pwrRail : Nat := 0x110080
/-- BOOT_STATUS (R525). -/
abbrev Reg.bootStatus : Nat := 0x120000
/-- BOOT_CTRL (R525). -/
abbrev Reg.bootCtrl : Nat := 0x120004
/-- BOOT_SET (R525). -/
abbrev Reg.bootSet : Nat := 0x120008
/-- BOOT_TRIAL (R525). -/
abbrev Reg.bootTrial : Nat := 0x12000C
/-- BOOT_COMPc (R525). -/
abbrev Reg.bootComp : Nat := 0x120010
/-- BOOT_ARBc (R525). -/
abbrev Reg.bootArb : Nat := 0x120014
/-- BOOT_FAIL (R525). -/
abbrev Reg.bootFail : Nat := 0x120040
/-- BOOT_FL_OFF (R525). -/
abbrev Reg.bootFlOff : Nat := 0x120044
/-- BOOT_FL_LEN (R525). -/
abbrev Reg.bootFlLen : Nat := 0x120048
/-- BOOT_FL_HOST_LO (R525). -/
abbrev Reg.bootFlHostLo : Nat := 0x12004C
/-- BOOT_FL_HOST_HI (R525). -/
abbrev Reg.bootFlHostHi : Nat := 0x120050
/-- BOOT_FL_CTRL (R525). -/
abbrev Reg.bootFlCtrl : Nat := 0x120054
/-- BOOT_FL_STATUS (R525). -/
abbrev Reg.bootFlStatus : Nat := 0x120058

end Sys2Proof.Machine
end

