-- ==== Sys2Proof/Machine/Ops.lean ====
section
/-! DEFINITION. The shared operations on the state: registers, tables, time, free values, log records, descriptors and their
completions, host memory. -/

namespace Sys2Proof.Machine

/-! ### Registers -/

/-- Value of a register of `State.regs`. -/
def State.reg (s : State) (k : Nat) : Word := Sparse.get regReset s.regs k

/-- Stores a register of `State.regs`. -/
def State.setReg (s : State) (k : Nat) (v : Word) : State := { s with regs := Sparse.set regReset s.regs k v }

/-- A field of a register. -/
def State.regFld (s : State) (k lo len : Nat) : Nat := fld (s.reg k) lo len

/-- One bit of a register. -/
def State.regBit (s : State) (k i : Nat) : Bool := bitOf (s.reg k) i

/-- Stores a field of a register. -/
def State.setFld (s : State) (k lo len v : Nat) : State := s.setReg k (putFld (s.reg k) lo len v)

/-- Sets one bit of a register: how a status bit is raised. -/
def State.raise (s : State) (k i : Nat) : State := s.setReg k (s.reg k ||| bitMask i)

/-- Clears one bit of a register. -/
def State.lower (s : State) (k i : Nat) : State := s.setReg k (s.reg k &&& ~~~(bitMask i))

/-- A 64-bit value held in two registers, low half first. -/
def State.reg64 (s : State) (lo hi : Nat) : BitVec 64 := (s.reg hi) ++ (s.reg lo)

/-- Offset of a block's lock register. -/
def lockReg : LockBlock → Nat
  | .tb => Reg.tbLock
  | .sht => Reg.shtLock
  | .grd => Reg.grdLock
  | .vec => Reg.vecLock
  | .tier => Reg.tierLock
  | .bnk => Reg.bnkLock
  | .nmd => Reg.nmdLock
  | .tnt => Reg.tntLock
  | .ses => Reg.sesLock
  | .mbx => Reg.mbxLock
  | .reel => Reg.reelLock
  | .sec => Reg.secLock
  | .saf => Reg.safLock
  | .pwr => Reg.pwrLock

/-- The block's lock bit is set. -/
def State.locked (s : State) (b : LockBlock) : Bool := s.regBit (lockReg b) 0

/-! ### Tables -/

/-- Bank `b`. -/
def State.bank (s : State) (b : Nat) : Bank := Sparse.get (fun _ => Bank.init) s.banks.bank b

/-- Changes bank `b`. -/
def State.setBank (s : State) (b : Nat) (x : Bank) : State :=
  { s with banks := { s.banks with bank := Sparse.set (fun _ => Bank.init) s.banks.bank b x } }

/-- Tint entry `t`. -/
def State.tintOf (s : State) (t : Nat) : Tint := Sparse.get (fun _ => Tint.init) s.tints t

/-- Changes tint entry `t`. -/
def State.setTint (s : State) (t : Nat) (x : Tint) : State := { s with tints := Sparse.set (fun _ => Tint.init) s.tints t x }

/-- Hot slot `h`. -/
def State.slotOf (s : State) (h : Nat) : HotSlot := Sparse.get (fun _ => HotSlot.init) s.slots h

/-- Changes hot slot `h`. -/
def State.setSlot (s : State) (h : Nat) (x : HotSlot) : State :=
  { s with slots := Sparse.set (fun _ => HotSlot.init) s.slots h x }

/-- Session context `c`. -/
def State.sesOf (s : State) (c : Nat) : Ses := Sparse.get (fun _ => Ses.init) s.ses c

/-- Changes session context `c`. -/
def State.setSes (s : State) (c : Nat) (x : Ses) : State := { s with ses := Sparse.set (fun _ => Ses.init) s.ses c x }

/-- The object of a handle. -/
def State.obj (s : State) (h : Nat) : Option Obj := Sparse.get (fun _ => none) s.tiers.objs h

/-- Changes the object of a handle. -/
def State.setObj (s : State) (h : Nat) (o : Option Obj) : State :=
  { s with tiers := { s.tiers with objs := Sparse.set (fun _ => none) s.tiers.objs h o } }

/-- The sheet in a slot of an owner. -/
def State.sheet (s : State) (owner slot : Nat) : Option Sheet := Sparse.get (fun _ => none) s.player.store (owner * 64 + slot)

/-- Places or removes a sheet. -/
def State.setSheet (s : State) (owner slot : Nat) (x : Option Sheet) : State :=
  { s with player := { s.player with store := Sparse.set (fun _ => none) s.player.store (owner * 64 + slot) x } }

/-- Player context of a segment: 0-31, 32 the house, 33 the tail. -/
def State.ctx (s : State) (o : Nat) : PlayCtx := s.player.ctx.getD o PlayCtx.init

/-- Changes a player context. -/
def State.setCtx (s : State) (o : Nat) (x : PlayCtx) : State := { s with player := { s.player with ctx := s.player.ctx.set o x } }

/-- Partition `p`. -/
def State.part (s : State) (p : Nat) : Partition := s.prt.part.getD p Partition.init

/-- Changes partition `p`. -/
def State.setPart (s : State) (p : Nat) (x : Partition) : State := { s with prt := { s.prt with part := s.prt.part.set p x } }

/-- Ring set `k`. -/
def State.ringSet (s : State) (k : Nat) : RingSet := s.sets.getD k RingSet.init

/-- Changes ring set `k`. -/
def State.setRingSet (s : State) (k : Nat) (x : RingSet) : State := { s with sets := s.sets.set k x }

/-- Reel-link port `n`. -/
def State.port (s : State) (n : Nat) : Port := s.reel.port.getD n Port.init

/-- Changes reel-link port `n`. -/
def State.setPort (s : State) (n : Nat) (x : Port) : State := { s with reel := { s.reel with port := s.reel.port.set n x } }

/-- NMD `n`. -/
def State.nmdOf (s : State) (n : Nat) : Nmd := s.nmd.getD n Nmd.init

/-- Changes NMD `n`. -/
def State.setNmd (s : State) (n : Nat) (x : Nmd) : State := { s with nmd := s.nmd.set n x }

/-- Update engine of NMD `n`. -/
def State.updOf (s : State) (n : Nat) : UpdEngine := s.upd.getD n UpdEngine.init

/-- Changes the update engine of NMD `n`. -/
def State.setUpd (s : State) (n : Nat) (x : UpdEngine) : State := { s with upd := s.upd.set n x }

/-- Vector unit `u`. -/
def State.unit (s : State) (u : Nat) : VUnit := s.vec.units.getD u VUnit.init

/-- Changes vector unit `u`. -/
def State.setUnit (s : State) (u : Nat) (x : VUnit) : State := { s with vec := { s.vec with units := s.vec.units.set u x } }

/-- Dailies counts of an owner. -/
def State.tallyOf (s : State) (o : Nat) : Tally := s.tally.getD o Tally.init

/-- Changes the dailies counts of an owner. -/
def State.setTally (s : State) (o : Nat) (x : Tally) : State := { s with tally := s.tally.set o x }

/-- Accumulator tile `t`. -/
def State.tile (s : State) (t : Nat) : AccTile := s.grid.tiles.getD t AccTile.init

/-- Changes accumulator tile `t`. -/
def State.setTile (s : State) (t : Nat) (x : AccTile) : State := { s with grid := { s.grid with tiles := s.grid.tiles.set t x } }

/-- UCL port `n`. -/
def State.uclPort (s : State) (n : Nat) : UclPort := s.ucl.getD n UclPort.init

/-- Changes UCL port `n`. -/
def State.setUcl (s : State) (n : Nat) (x : UclPort) : State := { s with ucl := s.ucl.set n x }

/-- Mailbox channel `c`. -/
def State.chan (s : State) (c : Nat) : Channel := s.mbx.getD c Channel.init

/-- Changes mailbox channel `c`. -/
def State.setChan (s : State) (c : Nat) (x : Channel) : State := { s with mbx := s.mbx.set c x }

/-- Applies a change for each number of a list, in order. -/
def State.each {α : Type} (s : State) (xs : List α) (f : State → α → State) : State := xs.foldl f s

/-! ### Time -/

/-- Moves TB forward to an instant that has come; TB never runs back (R40). -/
def State.advance (s : State) (t : Nat) : State :=
  if s.tbm.counting ∧ s.tbm.tb.toNat < t then { s with tbm := { s.tbm with tb := BitVec.ofNat 64 t } } else s

/-- TB as a number. -/
def State.now (s : State) : Nat := s.tbm.tb.toNat

/-- A frame runs that has a commit point: a tick has come since frames started (R44, R546). -/
def State.inFrames (s : State) : Bool := s.tbm.running && decide (0 < s.tbm.ticksRun)

/-- CP(n), the commit point of the present frame (R44). -/
def State.cpAt (s : State) : Nat := s.tbm.tNext.toNat - 20000

/-- An event at `t` is at or after the commit point of the present frame (R21, R44); while frames are stopped there is none (R546). -/
def State.pastCp (s : State) (t : Nat) : Bool := s.inFrames && decide (s.cpAt ≤ t)

/-- Where a request observed at `t` stands (R24): its tick is the next one where the commit point after it has come, or the one that
the next commit point fixes. -/
def State.waitFrom (s : State) (t : Nat) : Wait := if s.tbm.cpPassed && s.inFrames && !s.pastCp t then .armed else .observed t

/-- The present moment lies at or beyond a tick that has not been played yet: what is timestamped now belongs to the frame that the
tick starts (R43). -/
def State.tickReached (s : State) : Bool :=
  (s.tbm.startDue || (s.tbm.running && !s.tbm.stopPending)) && decide (s.tbm.tNext.toNat ≤ s.now)

/-- Place in the order of observation (R376): by timestamp, then ring number, then place in the ring. -/
def obsOrder (t ring n : Nat) : Nat := (t * 16 + ring) * 2 ^ 64 + n

/-- FN as a number. -/
def State.fnNat (s : State) : Nat := s.tbm.fn.toNat

/-- Frame length of a profile in µs; 0 marks it unused (R51). -/
def State.frameUs (s : State) (p : Nat) : Nat := s.regFld (Reg.tbProfFrame + 8 * p) 0 14

/-- House length of a profile in ns (R51). -/
def State.houseNs (s : State) (p : Nat) : Nat := 4 * s.regFld (Reg.tbProfHouse + 8 * p) 0 22

/-- Frame length of the active profile in ns. -/
def State.frameNs (s : State) : Nat := 1000 * s.frameUs s.tbm.active.toNat

/-- Insert cadence in ACLK cycles; 0 is OFF (Table 2.4). -/
def State.cadenceCycles (s : State) : Nat :=
  match s.regFld Reg.tbCtrl 2 2 with
  | 1 => 448
  | 2 => 1750
  | 3 => 7000
  | _ => 0

/-- Insert cadence in ns of a code of Table 2.4; 0 is OFF. -/
def cadenceNs (c : Nat) : Nat :=
  match c with
  | 1 => 256
  | 2 => 1000
  | 3 => 4000
  | _ => 0

/-- Partitions that are ACTIVE, in ascending number. -/
def State.activeParts (s : State) : List Nat := (List.range 32).filter fun p => decide ((s.part p).state = .active)

/-- Partitions whose segments are in the frame: ACTIVE or FROZEN, in ascending number (R404). -/
def State.frameParts (s : State) : List Nat :=
  (List.range 32).filter fun p => decide ((s.part p).state = .active) || decide ((s.part p).state = .frozen)

/-- Some partition counts as active: it is ACTIVE or FROZEN (R399). -/
def State.anyActive (s : State) : Bool := !s.frameParts.isEmpty

/-- Segment length of a partition in a profile, in ns (R400). -/
def State.segNs (s : State) (p prof : Nat) : Nat := (s.part p).alloc.seg.getD prof 0

/-- Offset of a segment from the tick (R18, R404): the house, then the segments of lower partitions; 33 is the tail. -/
def State.segOffset (s : State) (o : Nat) : Nat :=
  let prof := s.tbm.active.toNat
  if o = 32 then 0
  else s.houseNs prof + ((s.frameParts.filter fun q => decide (q < o)).map fun q => s.segNs q prof).sum

/-- End of a segment as an offset from the tick (R19, R52). -/
def State.segEnd (s : State) (o : Nat) : Nat :=
  let prof := s.tbm.active.toNat
  if o = 32 then s.houseNs prof
  else if o < 32 then s.segOffset o + s.segNs o prof
  else s.frameNs

/-! ### Free values -/

/-- A free 32-bit value. -/
def State.draw32 (s : State) : Word × State := (Config.free32 s.free, { s with free := s.free + 1 })

/-- A free choice between two allowed outcomes. -/
def State.drawBool (s : State) : Bool × State := (Config.freeBool s.free, { s with free := s.free + 1 })

/-! ### The continuity log -/

/-- Where a record stands among staged ones: behind every record of an earlier or equal timestamp and event code (R491);
the argument is the buffer, newest first. -/
def stageInto (r : LogRec) : List LogRec → List LogRec
  | [] => [r]
  | x :: xs => if x.tb = r.tb ∧ r.ord < x.ord then x :: stageInto r xs else r :: x :: xs

/-- Stages a record, or drops and counts it when the buffer is full (R491). On hold-up nothing more is staged (R494). -/
def State.stage (s : State) (r : LogRec) : State :=
  if s.clog.holdup then s
  else if 32 ≤ s.clog.staged.length then
    { s with clog := { s.clog with dropped := s.clog.dropped + 1, lostTotal := satAdd 32 s.clog.lostTotal 1 } }.raise Reg.clgStatus 0
  else
    { s with clog := { s.clog with
      staged := (stageInto { r with lost := BitVec.ofNat 16 (min (r.lost.toNat + s.clog.dropped) 0xFFFF) } s.clog.staged.reverse).reverse,
      dropped := 0 } }

/-- FN and epoch of the frame that a tick starts (R45, R46, R58, R74). -/
def State.nextCount (s : State) : BitVec 32 × BitVec 16 :=
  let t := s.tbm
  let en := s.regBit Reg.tbRehearse 16
  let ev := BitVec.ofNat 16 (s.regFld Reg.tbRehearse 0 16)
  if t.presetArmed then (s.reg Reg.tbFnPreset, if en then ev else if t.startDue then t.heldEpoch + 1 else t.epoch)
  else if t.startDue then (0, t.heldEpoch + 1)
  else (t.fn + 1, if t.fn = 0xFFFFFFFF then t.epoch + 1 else t.epoch)

/-- FN and epoch of the frame to which an event at the present moment belongs (R43). -/
def State.stampCount (s : State) : BitVec 32 × BitVec 16 := if s.tickReached then s.nextCount else (s.tbm.fn, s.tbm.epoch)

/-- A record with the state's time stamps (R43, R492). -/
def State.mkRec (s : State) (code : Nat) (owner kind unit : Nat) (args : List Nat) (flags : Nat) : LogRec :=
  { code := BitVec.ofNat 16 code, ord := BitVec.ofNat 16 code, tb := if s.tbm.counting then s.tbm.tb else 0,
    fn := if s.tbm.counting then s.stampCount.1 else 0, epoch := s.stampCount.2, boot := s.boot.boots, owner := BitVec.ofNat 8 owner,
    kind := BitVec.ofNat 8 kind, unit := BitVec.ofNat 32 unit, lost := 0, flags := BitVec.ofNat 16 flags,
    args := (args ++ List.replicate (7 - args.length) 0).map (BitVec.ofNat 32) }

/-- Stages a record of the device as a whole. -/
def State.log (s : State) (code : Nat) (args : List Nat) : State := s.stage (s.mkRec code 0xFF 0xFF 0 args 0)

/-- Stages a record of a unit: owner, unit kind and index. -/
def State.logUnit (s : State) (code owner kind unit : Nat) (args : List Nat) : State :=
  s.stage (s.mkRec code owner kind unit args 0)

/-- Stages a record with its CONT records (R493): the words in runs of seven. A CONT record copies the lost count of the record that
it continues. -/
def State.logLong (s : State) (code : Nat) (words : List Nat) : State :=
  let lost := BitVec.ofNat 16 (min s.clog.dropped 0xFFFF)
  let s := s.log code (words.take 7)
  (chunks 7 ((words.length - 1) / 7) (words.drop 7)).foldl
    (fun s ws => s.stage { s.mkRec 0x0907 0xFF 0xFF 0 ws 0 with ord := BitVec.ofNat 16 code, lost := lost }) s

/-! ### Dailies -/

/-- The 16 bytes of an event entry (R394), as a number. -/
def State.mkEvent (s : State) (kind arg8 tint layer gen arg32 : Nat) : BitVec 128 :=
  BitVec.ofNat 128 (leNat (leBytes 1 kind ++ leBytes 1 arg8 ++ leBytes 2 tint ++ leBytes 2 layer ++ leBytes 2 gen ++
    leBytes 4 s.fnNat ++ leBytes 4 arg32))

/-- Key of a set's QUE_STATUS register (R397). -/
def queStatusKey (set : Nat) : Nat := Reg.queStatusSet + 8 * set

/-- Queues an event for the dailies of a set (R394). -/
def State.event (s : State) (set kind arg8 tint layer gen arg32 : Nat) : State :=
  let r := s.ringSet set
  let d := r.dailies
  if !d.armed then s
  else if 4096 ≤ d.events.length then
    (s.setRingSet set { r with dailies := { d with eventsLost := d.eventsLost + 1 } }).raise (queStatusKey set) 5
  else s.setRingSet set { r with dailies := { d with events := d.events ++ [s.mkEvent kind arg8 tint layer gen arg32] } }

/-! ### Descriptors and their completions -/

/-- Byte `k` of a descriptor's field of `len` bytes. -/
def Item.field (i : Item) (off len : Nat) : Nat := fld i.raw (8 * off) (8 * len)

/-- The descriptor's opcode. -/
def Item.op (i : Item) : Nat := i.field 0 1

/-- The item of a key. -/
def State.item? (s : State) (k : ItemKey) : Option Item := (s.items.find? fun e => decide (e.1 = k)).map (·.2)

/-- Changes the item of a key. -/
def State.modItem (s : State) (k : ItemKey) (f : Item → Item) : State :=
  { s with items := s.items.map fun e => if e.1 = k then (e.1, f e.2) else e }

/-- The set of an item's owner: partition sets by number, 32 the manager. -/
def ItemKey.owner (k : ItemKey) : Nat := k.set

/-- A result area as a number, from its bytes. -/
def result128 (bs : Blob) : BitVec 128 := BitVec.ofNat 128 (leNat (bs.take 16))

/-- Decides an item's completion: status, result (zero from 0x10 upward, R385) and exception nibble. The first decision
stands. -/
def State.finish (s : State) (k : ItemKey) (status : Nat) (result : BitVec 128 := 0) (info : BitVec 4 := 0)
    (outs : List (Nat × Blob) := []) : State :=
  s.modItem k fun i =>
    if i.done.isSome then i
    else { i with phase := .done, done := some { status := BitVec.ofNat 8 status, info := info,
                                                 result := if status < 16 then result else 0,
                                                 outs := if status < 16 then outs else [] } }

/-- Decides the completion of each item of a list. -/
def State.finishAll (s : State) (ks : List ItemKey) (status : Nat) : State := s.each ks fun s k => s.finish k status

/-- Keys of the items for which `p` holds and whose completion is not decided, in order of observation. -/
def State.openItems (s : State) (p : ItemKey → Item → Bool) : List ItemKey :=
  (sortBy (fun e => e.2.order) (s.items.filter fun e => e.2.done.isNone && p e.1 e.2)).map (·.1)

/-- Status codes of Table 13.8. -/
abbrev St.ok : Nat := 0x00
abbrev St.late : Nat := 0x01
abbrev St.tintReloaded : Nat := 0x02
abbrev St.retaken : Nat := 0x03
abbrev St.tintWithdrawn : Nat := 0x10
abbrev St.slotTaken : Nat := 0x11
abbrev St.sessionLimit : Nat := 0x12
abbrev St.positionLimit : Nat := 0x13
abbrev St.checkFailed : Nat := 0x20
abbrev St.uncorrectable : Nat := 0x21
abbrev St.fencedUnit : Nat := 0x22
abbrev St.frameOverrun : Nat := 0x23
abbrev St.badDescriptor : Nat := 0x30
abbrev St.notPermitted : Nat := 0x31
abbrev St.aborted : Nat := 0x32
abbrev St.safeState : Nat := 0x3F

/-! ### Host memory -/

/-- The device writes a run of bytes to host memory. -/
def State.hostWrite (s : State) (addr : Nat) (bs : Blob) : State :=
  { s with host := Sparse.setRun (fun _ => none) s.host addr (bs.map some) }

/-- What the device has written at an address, if anything. -/
def State.hostByte (s : State) (addr : Nat) : Option Byte := Sparse.get (fun _ => none) s.host addr

/-! ### Tier F -/

/-- Reads a run of tier F bytes. -/
def State.readF (s : State) (addr len : Nat) : Blob := Sparse.getRun (fun _ => 0) s.tiers.f addr len

/-- A word of 32 bytes lies in a run of bytes (R254). -/
def wordIn (w : Nat) (r : Nat × Nat) : Bool := decide (32 * w < r.1 + r.2) && decide (r.1 < 32 * w + 32)

/-- Writes a run of tier F bytes: its words are stored anew, with right check bits (R254). -/
def State.writeF (s : State) (addr : Nat) (bs : Blob) : State :=
  { s with tiers := { s.tiers with f := Sparse.setRun (fun _ => 0) s.tiers.f addr bs,
                                   fErr := Sparse.drop s.tiers.fErr fun w => wordIn w (addr, bs.length) } }

/-! ### Register answers -/

/-- The answer of a register read. -/
def State.answer (s : State) (v : Word) : State := { s with uclResp := .data v }

end Sys2Proof.Machine
end

