-- ==== Sys2Proof/Machine/Cues.lean ====
section
/-! DEFINITION. Fields of sheets, cues and shot descriptors (chapter 3), and flits of the reel links (chapter 15). -/

namespace Sys2Proof.Machine

/-! ### Cues (Table 3.2) -/

/-- A cue's 128 bits. -/
abbrev Cue := BitVec 128

/-- A shot descriptor's 64 bytes. -/
abbrev Shot := BitVec 512

def Cue.offset (c : Cue) : Nat := fld c 0 32
def Cue.dur (c : Cue) : Nat := fld c 32 24
def Cue.track (c : Cue) : Nat := fld c 56 2
def Cue.anchor (c : Cue) : Bool := bitOf c 58
def Cue.gate (c : Cue) : Nat := fld c 59 2
def Cue.retake (c : Cue) : Bool := bitOf c 61
def Cue.variant (c : Cue) : Nat := fld c 62 2
def Cue.bay (c : Cue) : Nat := fld c 64 6
def Cue.desc (c : Cue) : Nat := fld c 72 24
def Cue.crc (c : Cue) : Nat := fld c 112 16

/-- The cue's CRC is right (R81). -/
def Cue.crcOk (c : Cue) : Bool := (crc16 (leBytes 14 c.toNat)).toNat = c.crc

/-- Code of a track. -/
def Track.code : Track → Nat
  | .a => 0
  | .v => 1
  | .m => 2
  | .l => 3

/-- The cues of a track. -/
def Sheet.track (x : Sheet) (t : Track) : List Cue := x.cues.getD t.code []

/-- The cue of a track at an index. -/
def Sheet.cue? (x : Sheet) (t : Track) (i : Nat) : Option Cue := (x.track t)[i]?

/-- The descriptor that a cue names. -/
def Sheet.shot (x : Sheet) (c : Cue) : Shot := x.descs.getD c.desc 0

/-- A field of a shot descriptor: byte offset and length. -/
def Shot.f (d : Shot) (off len : Nat) : Nat := fld d (8 * off) (8 * len)

/-- The guard of a sheet in ns (R87). -/
def Sheet.guardNs (x : Sheet) : Nat := x.segmentNs * x.guardPm / 1000

/-- The sheet is a house sheet or a house fallback sheet. -/
def Sheet.isHouse (x : Sheet) : Bool := x.kind = 2 || x.kind = 3

/-! ### Bays (R82) -/

/-- Field of a bay-table entry. -/
def bayFld (b : BitVec 128) (off len : Nat) : Nat := fld b (8 * off) (8 * len)

/-- Kind of a bay: 0 SERVE, 1 PREFILL, 2 TRAIN, 3 FLEX. -/
def Sheet.bayKind (x : Sheet) (i : Nat) : Nat := bayFld (x.bays.getD i 0) 0 1

/-- Retake class of a bay, 0xFF none. -/
def Sheet.bayClass (x : Sheet) (i : Nat) : Nat := bayFld (x.bays.getD i 0) 1 1

/-- Token capacity of a bay. -/
def Sheet.bayRows (x : Sheet) (i : Nat) : Nat := bayFld (x.bays.getD i 0) 2 2

/-- shape_id of a bay. -/
def Sheet.bayShape (x : Sheet) (i : Nat) : Nat := bayFld (x.bays.getD i 0) 4 2

/-- Reel of a bay: 1 forward, 2 reverse, 3 both. -/
def Sheet.bayReel (x : Sheet) (i : Nat) : Nat := bayFld (x.bays.getD i 0) 6 1

/-! ### The sheet of a context -/

/-- The sheet that plays in a segment in the present frame. -/
def State.playing (s : State) (o : Nat) : Option Sheet :=
  match (s.ctx o).slot with
  | some k => s.sheet o k
  | none => none

/-- The cue's variant plays in its bay under the context's flex choices (R33, R92). -/
def PlayCtx.variantOn (x : PlayCtx) (c : Cue) : Bool :=
  match c.variant with
  | 0 => true
  | 1 => !x.training.contains c.bay
  | 2 => x.training.contains c.bay
  | _ => false

/-- The cue plays in this frame: its variant is selected, or its retake slot is assigned (R103). -/
def PlayCtx.selected (x : PlayCtx) (c : Cue) : Bool :=
  if c.retake then x.retakes.any fun r => r.1 = c.bay else x.variantOn c

/-! ### Cycles and time (R19, R500) -/

/-- Period of a fade step in units of 1/105 ns (Table 18.2). -/
def stepPeriod : Nat → Nat
  | 0 => 60
  | 1 => 70
  | 2 => 84
  | _ => 120

/-- ACLK of a fade step in MHz (Table 18.2). -/
def stepMhz : Nat → Nat
  | 0 => 1750
  | 1 => 1500
  | 2 => 1250
  | _ => 875

/-- Time of a segment cycle from the segment's start, in units of 1/105 ns. -/
def State.cycleTime (s : State) (o cyc : Nat) : Nat :=
  let x := s.ctx o
  x.refT + (cyc - x.refCyc) * stepPeriod s.pwr.step

/-- TB at a segment cycle: the first edge at or after it (R41). -/
def State.cycleTb (s : State) (o cyc : Nat) : Nat := (s.ctx o).startTb + cdiv (s.cycleTime o cyc) 105

/-- The first segment cycle whose edge is at or after an instant. -/
def State.cycleAt (s : State) (o tb : Nat) : Nat :=
  let x := s.ctx o
  x.refCyc + cdiv ((tb - x.startTb) * 105 - x.refT) (stepPeriod s.pwr.step)

/-- TB at which an L-track cue's cycle falls: cycles at F0, whatever the clock (R426). -/
def State.lTb (s : State) (o cyc : Nat) : Nat := (s.ctx o).startTb + cdiv (cyc * 4) 7

/-! ### Flits (Table 15.1) -/

/-- A flit: kind, flags, stream, seq, fn and payload, with its CRC. -/
def mkFlit (kind flags stream seq fn : Nat) (payload : Blob) : Blob :=
  let body := leBytes 1 kind ++ leBytes 1 flags ++ leBytes 2 stream ++ leBytes 4 seq ++ leBytes 4 fn ++ (padTo 240 payload).take 240
  body ++ leBytes 4 (crc32 body).toNat

def flitKind (f : Blob) : Nat := leAt f 0 1
def flitFlags (f : Blob) : Nat := leAt f 1 1
def flitStream (f : Blob) : Nat := leAt f 2 2
def flitSeq (f : Blob) : Nat := leAt f 4 4
def flitFn (f : Blob) : Nat := leAt f 8 4
def flitPayload (f : Blob) : Blob := slice f 12 240

/-- The flit has its 256 bytes and its CRC is right (R421). -/
def flitCrcOk (f : Blob) : Bool := f.length = 256 && (crc32 (f.take 252)).toNat = leAt f 252 4

/-- A port carries flits out: it is UP or in ALIGN; a grey port sends nothing (R423, R424). -/
def Port.carries (p : Port) : Bool := p.state = .up || p.state = .align

/-- Sends flits on a port, in order (R420). -/
def State.sendFlits (s : State) (n : Nat) (fs : List Blob) : State :=
  let p := s.port n
  if p.carries then s.setPort n { p with sent := fs.reverse ++ p.sent, tx := p.tx + BitVec.ofNat 52 fs.length } else s

/-- A VOID for a stream with its reason (Table 15.2). -/
def State.voidFlit (s : State) (stream reason : Nat) : Blob := mkFlit 2 3 stream 0 s.fnNat (leBytes 1 reason)

/-! ### L-track descriptors (Table 15.4) -/

def Shot.lOp (d : Shot) : Nat := d.f 1 1
def Shot.portOut (d : Shot) : Nat := fld d 16 3
def Shot.portIn (d : Shot) : Nat := fld d 20 3
def Shot.lLocal (d : Shot) : Bool := bitOf d 24
def Shot.lOrigin (d : Shot) : Bool := bitOf d 25
def Shot.stream (d : Shot) : Nat := d.f 4 2
def Shot.lBay (d : Shot) : Nat := d.f 6 1
def Shot.lBytes (d : Shot) : Nat := d.f 8 4
def Shot.lRef (d : Shot) : Nat := d.f 12 4
def Shot.delayNs (d : Shot) : Nat := d.f 16 2
def Shot.lTint (d : Shot) : Nat := d.f 18 2

/-- The cue transmits: SEND, PASS or VERDICT (R434). -/
def Shot.transmits (d : Shot) : Bool := d.lOp = 1 || d.lOp = 3 || d.lOp = 4

/-- Each transmitting cue of a segment that has started and not ended sends one VOID with reason 1 at once (R434); it has
then ended, and a PASS forwards and writes nothing more. -/
def State.voidStarted (s : State) (o : Nat) : State :=
  match s.playing o with
  | none => s
  | some x =>
    let open_ := ((s.ctx o).started.filter fun e => e.1 = .l && !(s.ctx o).ended.contains (e.1, e.2.1)).map (·.2.1)
    s.each open_ fun s i =>
      match x.cue? .l i with
      | none => s
      | some c =>
        let d := x.shot c
        if d.transmits then
          let s := s.sendFlits d.portOut [s.voidFlit d.stream 1]
          let s := { s with reel := { s.reel with port := s.reel.port.map fun (p : Port) =>
            { p with xfers := p.xfers.map fun (t : Transfer) => if t.owner = o ∧ t.cue = i then { t with out := none, dest := none } else t } } }
          s.setCtx o { s.ctx o with ended := (s.ctx o).ended ++ [(.l, i)] }
        else s

end Sys2Proof.Machine
end

