-- ==== Sys2Proof/Machine/Shots.lean ====
section
/-! DEFINITION. The A-track shot descriptor, its tiles and lanes, and the draws of a drain that is cut short (chapters 4 and 6). -/

namespace Sys2Proof.Machine

/-! ### Fields of the A-track shot descriptor (Tables 4.3-4.5) -/

def Shot.op (d : Shot) : Nat := d.f 1 1
def Shot.ctl (d : Shot) : Nat := d.f 2 2
def Shot.first (d : Shot) : Bool := bitOf d 16
def Shot.last (d : Shot) : Bool := bitOf d 17
def Shot.tile (d : Shot) : Nat := fld d 18 2
def Shot.transA (d : Shot) : Bool := bitOf d 20
def Shot.transB (d : Shot) : Bool := bitOf d 21
def Shot.retakeWatch (d : Shot) : Bool := bitOf d 22
def Shot.accWrap (d : Shot) : Bool := bitOf d 23
def Shot.initBias (d : Shot) : Bool := bitOf d 24
def Shot.summaryEn (d : Shot) : Bool := bitOf d 25
def Shot.opTag (d : Shot) : BitVec 16 := BitVec.ofNat 16 (d.f 4 2)
def Shot.kLen (d : Shot) : Nat := d.f 6 2
def Shot.rowsM (d : Shot) : Nat := d.f 8 2
def Shot.colsN (d : Shot) : Nat := d.f 10 2
def Shot.aFmt (d : Shot) : Nat := fld d 96 4
def Shot.aBlk (d : Shot) : Nat := fld d 100 3
def Shot.bFmt (d : Shot) : Nat := fld d 104 4
def Shot.bBlk (d : Shot) : Nat := fld d 108 3
def Shot.aZp (d : Shot) : Nat := d.f 14 1
def Shot.bZp (d : Shot) : Nat := d.f 15 1
def Shot.aRef (d : Shot) : Nat := d.f 16 4
def Shot.bRef (d : Shot) : Nat := d.f 20 4
def Shot.outRef (d : Shot) : Nat := d.f 24 4
def Shot.lutRef (d : Shot) : Nat := d.f 28 4
def Shot.biasRef (d : Shot) : Nat := d.f 32 4
def Shot.sumRef (d : Shot) : Nat := d.f 36 4
def Shot.drain (d : Shot) : Nat := d.f 40 4
def Shot.outFmt (d : Shot) : Nat := fld d 320 4
def Shot.outBlk (d : Shot) : Nat := fld d 324 3
def Shot.headroom (d : Shot) : Bool := bitOf d 327
def Shot.stoch (d : Shot) : Bool := bitOf d 328
def Shot.srN (d : Shot) : Nat := fld d 329 4 + 1
def Shot.ieee (d : Shot) : Bool := bitOf d 333
def Shot.outWrap (d : Shot) : Bool := bitOf d 334
def Shot.meter (d : Shot) : Bool := bitOf d 335
def Shot.outZp (d : Shot) : Nat := fld d 336 8
def Shot.shiftS (d : Shot) : Nat := fld d 344 6
def Shot.mult (d : Shot) : Int := (BitVec.ofNat 32 (d.f 44 4)).toInt
def Shot.aLd (d : Shot) : Nat := d.f 48 2
def Shot.bLd (d : Shot) : Nat := d.f 50 2
def Shot.outLd (d : Shot) : Nat := d.f 52 2
def Shot.qBase (d : Shot) : Nat := d.f 54 2

/-- Tile rows and columns of the output. -/
def Shot.tilesM (d : Shot) : Nat := cdiv d.rowsM 64
def Shot.tilesN (d : Shot) : Nat := cdiv d.colsN 64

/-- The accumulation domain is int32: both operands are integers without block scales. -/
def Shot.isInt (d : Shot) : Bool := fmtInt d.aFmt && fmtInt d.bFmt && d.aBlk = 0 && d.bBlk = 0

/-- k_cycles of R119. -/
def Shot.kCycles (d : Shot) : Nat :=
  match max (fmtClass d.aFmt) (fmtClass d.bFmt) with
  | 0 => cdiv d.kLen 2
  | 1 => d.kLen
  | _ => 4 * d.kLen

/-- Quad that computes output tile (i, j) (R121). -/
def Shot.quad (d : Shot) (i j : Nat) : Nat := (d.qBase + i * d.tilesN + j) % 640

/-- Output tiles, in row-major order. -/
def Shot.outTiles (d : Shot) : List (Nat × Nat) :=
  (List.range d.tilesM).flatMap fun i => (List.range d.tilesN).map fun j => (i, j)

/-- Valid columns of output tile column `j`, and valid rows of tile row `i`. -/
def Shot.validCols (d : Shot) (j : Nat) : Nat := min 64 (d.colsN - 64 * j)
def Shot.validRows (d : Shot) (i : Nat) : Nat := min 64 (d.rowsM - 64 * i)

/-- Lane of row `r` of an output tile that a quad computes (R170). -/
def laneOf (quad r : Nat) : Nat := 16 * (4 * quad + r / 16) + r % 16

/-- A draw from lane `l` of an owner's states (R171, R172). -/
def State.drawLane (s : State) (o l n : Nat) : Nat × State :=
  let ls := s.lanes.getD o (LaneSet.init 0)
  let x := (Sparse.get (fun _ => none) ls.states l).getD (seedLane ls.seed l)
  let (r, y) := ldraw n x
  (r, { s with lanes := s.lanes.set o { ls with states := Sparse.set (fun _ => none) ls.states l (some y) } })

/-- Several draws from a lane whose values are not used. -/
def State.skipDraws (s : State) (o l n count : Nat) : State := (List.range count).foldl (fun (s : State) _ => (s.drawLane o l n).2) s

/-- A drain that a fence discards after `n` cycles of its read-out: what its lanes have drawn so far stays consumed, one element of each
row in each cycle (R124, R172, R174, R187; DEDUCED, log entry 57). -/
def State.cutDraws (s : State) (dr : Drain) (n : Nat) : State :=
  let d : Shot := dr.shot
  if d.isInt || d.outFmt = 11 || !d.stoch then s
  else s.each d.outTiles fun s e => s.each (List.range (d.validRows e.1)) fun s r =>
    s.skipDraws dr.owner (laneOf (d.quad e.1 e.2) r) d.srN (min n (d.validCols e.2))

end Sys2Proof.Machine
end

