-- ==== Sys2Proof/Machine/Safe.lean ====
section
/-! DEFINITION. Detections and fences (chapter 17): the safe state, what makes a detection dangerous, and what each fence counts
and reports. -/

namespace Sys2Proof.Machine

/-- Every descriptor of the pending store completes with DEVICE_SAFE_STATE; a record already due is replaced (R395, R396). -/
def State.decideSafe (s : State) : State :=
  { s with items := s.items.map fun e =>
      (e.1, { e.2 with phase := .done, done := some { status := 0x3F, info := 0, result := 0, outs := [] } }) }

/-- What the safe state stops (R483): cues, tiles, tier writes by played cues, update passes, pending work, ACLK. -/
def State.haltEngines (s : State) : State :=
  let s := s.each (List.range 33) fun s o => s.voidStarted o
  let s := s.each (List.range 4) fun s t => s.setTile t AccTile.init
  let s := { s with grid := { s.grid with drains := [] } }
  let s := { s with vec := { s.vec with units := s.vec.units.map fun (u : VUnit) => { u with prog := none, due := [], loops := [], cue := none } } }
  let s := { s with tiers := { s.tiers with running := [] } }
  let s := { s with reel := { s.reel with port := s.reel.port.map fun (p : Port) => { p with xfers := [] } } }
  let s := { s with upd := s.upd.map fun (u : UpdEngine) => { u with queue := [], running := false, paused := false } }
  let s := { s with ins := { s.ins with queue := [], step := 0, row := none, draining := false } }
  let s := s.decideSafe
  { s with pwr := { s.pwr with gated := true } }

/-- The cause registers take a detection (R484, R497). -/
def State.setCause (s : State) (cls kind unit : Nat) : State :=
  { s with saf := { s.saf with causeClass := BitVec.ofNat 8 cls, causeKind := BitVec.ofNat 8 kind,
                               causeUnit := BitVec.ofNat 16 unit, causeFn := s.tbm.fn, causeTb := s.tbm.tb } }

/-- A dangerous detection of a class (R483, R484): the first one starts the safe state and sets the cause; each is logged; of two
at one edge the lower class is the cause. -/
def State.enterSafe (s : State) (cls kind unit : Nat) : State :=
  let s := s.stage (s.mkRec 0x0901 0xFF kind (if kind = 0xFF then 0 else unit) [cls] 1)
  if s.saf.safe then
    if s.saf.causeTb = s.tbm.tb ∧ cls < s.saf.causeClass.toNat then s.setCause cls kind unit else s
  else
    let s := s.setCause cls kind unit
    let s := { s with saf := { s.saf with safe := true, hbA := false, hbB := false } }
    s.haltEngines

/-- SAF_PROMOTE makes the class dangerous on every detection (R478). -/
def State.promoted (s : State) (cls : Nat) : Bool := s.regBit Reg.safPromote cls

/-- A detection of a class: dangerous where the class or SAF_PROMOTE makes it so (R477, R478). -/
def State.detect (s : State) (cls : Nat) (dangerous : Bool) (kind unit : Nat) : State :=
  if dangerous || s.promoted cls then s.enterSafe cls kind unit else s

/-- What every fence does besides its unit's own change (R485): its counter, SAF_STATUS.fence, the dailies event of the manager
set and of the unit's owner, and for kinds 5-8 and 10 the FENCE record (a0 1 detected, 2 request). -/
def State.countFence (s : State) (kind unit owner : Nat) (requested : Bool) : State :=
  let s := { s with saf := { s.saf with fenceCnt := s.saf.fenceCnt.modify kind fun c => satAdd 32 c 1 } }
  let s := s.raise Reg.safStatus 3
  let s := s.event 32 9 kind 0 0 0 unit
  let s := if owner < 32 then s.event owner 9 kind 0 0 0 unit else s
  if (5 ≤ kind ∧ kind ≤ 8) ∨ kind = 10 then s.logUnit 0x0905 owner kind unit [if requested then 2 else 1] else s

/-- A partition is fenced (R107, Table 9.5): the fence takes effect at the next tick. -/
def State.fencePartition (s : State) (p : Nat) : State :=
  if s.saf.reqs.any fun r => r.kind = 6 && r.unit = p then s
  else { s with saf := { s.saf with reqs := s.saf.reqs ++ [{ kind := 6, unit := p, since := s.now, armed := true, due := false, requested := false }] } }

/-- A tint is fenced (R487): the fence takes effect at the next tick. -/
def State.fenceTint (s : State) (t : Nat) : State :=
  if s.saf.reqs.any fun r => r.kind = 7 && r.unit = t then s
  else { s with saf := { s.saf with reqs := s.saf.reqs ++ [{ kind := 7, unit := t, since := s.now, armed := true, due := false, requested := false }] } }

/-- A session is fenced (R488): it ends at the next tick. -/
def State.fenceSession (s : State) (c : Nat) : State :=
  if s.saf.reqs.any fun r => r.kind = 8 && r.unit = c then s
  else { s with saf := { s.saf with reqs := s.saf.reqs ++ [{ kind := 8, unit := c, since := s.now, armed := true, due := false, requested := false }] } }

/-- Writes the lanes of a V register that have a value. -/
def VUnit.putLanes (x : VUnit) (d : Nat) (lanes : List (Option (BitVec 16))) : VUnit :=
  { x with v := (lanes.zipIdx).foldl (fun (m : Sparse (BitVec 16)) e =>
      match e.1 with
      | some c => Sparse.set (fun _ => 0) m (d * 128 + e.2) c
      | none => m) x.v }

/-- A register result becomes visible in its unit; writes to P0 are ignored (R188). -/
def VUnit.take (x : VUnit) : VResult → VUnit
  | .v d lanes => x.putLanes d lanes
  | .s d w => { x with s := Sparse.set (fun _ => 0) x.s d w }
  | .p d mask w =>
    if d = 0 then x else { x with p := Sparse.set (fun _ => 0) x.p d ((Sparse.get (fun _ => 0) x.p d &&& ~~~mask) ||| (w &&& mask)) }
  | .k ks => { x with keyed := Sparse.setRun (fun _ => 0) x.keyed 0 ks }
  | .mem _ _ => x

/-- Each program that runs for a segment stops (R212): no later instruction issues, and the memory instructions already issued
complete. -/
def State.stopPrograms (s : State) (o : Nat) : State :=
  s.each (List.range 32) fun s u =>
    let x := s.unit u
    match x.cue with
    | some (o', _) =>
      if o' = o then
        let s := s.setUnit u { x with prog := none, due := [], loops := [], cue := none }
        x.due.foldl (fun (s : State) e => match e.2 with
          | .mem a bs => s.writeF a bs
          | _ => s) s
      else s
    | none => s

/-- The drains of some tiles that began in a segment's present sheet write nothing; what their lanes have drawn stays consumed (R106,
R138, R174). -/
def State.dropDrains (s : State) (o : Nat) (ts : List Nat) : State :=
  let gone := s.grid.drains.filter fun (d : Drain) => ts.contains d.tile && d.seg = o && d.startTb = (s.ctx o).startTb && !d.lane
  let n := fun d : Drain => s.cycleAt o s.now - (d.endCyc - 88)
  let s := { s with grid := { s.grid with drains := s.grid.drains.filter fun d => !gone.contains d } }
  s.each gone fun s d => s.cutDraws d (n d)

/-- The segment of a fenced sheet is VOID and its work stops: transmissions, tiles, drains and programs (R106, R107). A hold that runs counts
up to the fence (R108). -/
def State.cutSheet (s : State) (o : Nat) : State :=
  let x := s.ctx o
  let s := s.voidStarted o
  let held := x.heldNs + (if x.state = .hold then s.now - x.holdTb else 0)
  let s := s.setCtx o { s.ctx o with state := .void, holdCue := none, heldNs := held }
  let ts := if s.cadenceCycles ≠ 0 then [0, 1, 2] else [0, 1, 2, 3]
  ((s.each ts fun s t => s.setTile t AccTile.init).dropDrains o ts).stopPrograms o

/-- The slot is grey and what was committed before the fence no longer governs its owner (R106); the cause is counted. -/
def State.greySheet (s : State) (o slot why : Nat) : State :=
  let p := s.player
  { s with player := { p with
      grey := if p.grey.contains (o * 64 + slot) then p.grey else p.grey ++ [o * 64 + slot],
      forced := if p.forced.contains o then p.forced else p.forced ++ [o],
      nextRecs := p.nextRecs.filter fun r => r.1 ≠ o, afterRecs := p.afterRecs.filter fun r => r.1 ≠ o,
      fixedRecs := p.fixedRecs.filter fun r => r.1 ≠ o,
      fenceCrc := if why = 1 ∨ why = 2 then satAdd 16 p.fenceCrc 1 else p.fenceCrc,
      fenceColl := if why = 3 then satAdd 16 p.fenceColl 1 else p.fenceColl } }

/-- The fence of a sheet is reported and counted. -/
def State.noteSheetFence (s : State) (o slot why : Nat) : State :=
  ((s.raise Reg.shtStatus 3).logUnit 0x0203 o 9 (o * 64 + slot) [why]).countFence 9 (o * 64 + slot) o false

/-- A fence of the house sheet discards the frame's pending retakes (R107). -/
def State.dropRetakes (s : State) (o : Nat) : State :=
  if o = 32 then
    let s := s.setCtx 32 { s.ctx 32 with retakes := [] }
    { s with player := { s.player with jobs := [] } }
  else s

/-- A sheet is fenced at the cycle of its detection (R106, R107): the segment becomes VOID, its tiles idle, its slot grey. `why` is the cause
code of the record 0x0203: 1 CRC, 2 track, 3 tile collision, 4 access fault, 5 write collision. -/
def State.fenceSheet (s : State) (o why : Nat) : State :=
  let x := s.ctx o
  if x.state = .void then s
  else
    let slot := x.slot.getD 0
    let fb := x.fallback || (match s.playing o with | some h => h.kind = 1 || h.kind = 3 | none => false)
    let s := (((s.cutSheet o).greySheet o slot why).noteSheetFence o slot why).dropRetakes o
    if o < 32 ∧ fb then (s.detect 0x0D false 9 (o * 64 + slot)).fencePartition o
    else s.detect 0x0D (o = 32 && fb) 9 (o * 64 + slot)

end Sys2Proof.Machine
end

