-- ==== Sys2Proof/Machine/Ports.lean ====
section
/-! DEFINITION. The ports of the banks: errors of stored words, conflicts of requesters, and words that both ports reach in one cycle
(chapter 9, R253, R261, R262, R264, R266). -/

namespace Sys2Proof.Machine

/-! ### Items that end together -/

/-- The session context that an item names. -/
def Item.ctxNo (i : Item) : Nat := i.field 0x10 2

/-- A serve item: SERVE_STEP or SERVE_PREFILL. -/
def Item.serves (i : Item) : Bool := i.op = 1 || i.op = 2

/-- Ends items together: none of their results is delivered, and their sessions are no longer in passage. -/
def State.endItems (s : State) (ks : List ItemKey) (status : Nat) : State :=
  s.each ks fun s k =>
    match s.item? k with
    | some i =>
      let s := if i.serves && i.phase = .passage then s.setSes i.ctxNo { s.sesOf i.ctxNo with inPassage := false } else s
      s.finish k status
    | none => s

/-! ### Errors of stored words (R264, R266, R276) -/

/-- A word of a bank was corrected or found uncorrectable (R264, R266, R276): the bank's counters, and its fence where one is due. -/
def State.bankError (s : State) (b word : Nat) (found : EccResult) : State :=
  let k := s.bank b
  let ref := BitVec.ofNat 32 (b * 262144 + word / 2)
  match found with
  | .clean => s
  | .corrected =>
    let n := min (k.ce + 1) 0xFFFF
    let limit := max 1 (s.regFld Reg.bnkCtrl 0 8)
    let s := s.setBank b { k with ce := n, fence := if k.fence = 0 ∧ k.state ≠ .grey ∧ limit ≤ n then 2 else k.fence }
    let s := if k.fence = 2 then s else { s with banks := { s.banks with errRef := ref } }
    { s with banks := { s.banks with ceTotal := satAdd 32 s.banks.ceTotal 1 } }.raise Reg.bnkStatus 0
  | .uncorrectable =>
    let s := s.setBank b { k with fence := if k.fence = 0 ∧ k.state ≠ .grey then 1 else k.fence }
    { s with banks := { s.banks with ueTotal := satAdd 32 s.banks.ueTotal 1, errRef := ref } }.raise Reg.bnkStatus 1

/-- What a read of a word finds (R264): a single error is corrected and the corrected word written back. -/
def State.readWord (s : State) (w : Nat) (found : EccResult) : State :=
  let s := s.bankError (w / 524288) (w % 524288) found
  if found = .corrected then { s with tiers := { s.tiers with fErr := Sparse.drop s.tiers.fErr fun k => k = w } } else s

/-- Words with errors in some runs of bytes. -/
def State.badWords (s : State) (runs : List (Nat × Nat)) : List (Nat × EccResult) :=
  s.tiers.fErr.filter fun e => runs.any (wordIn e.1)

/-- Some runs of bytes are read: their words with errors are corrected or found uncorrectable (R264, R266). Answers whether some word
was uncorrectable. -/
def State.eccRead (s : State) (runs : List (Nat × Nat)) : State × Bool :=
  let bad := s.badWords runs
  (bad.foldl (fun (s : State) e => s.readWord e.1 e.2) s, bad.any fun e => e.2 = .uncorrectable)

/-! ### Conflicts at a port (R253, R261) -/

/-- Requesters of Table 9.4. -/
abbrev Rq.grid : Nat := 0
abbrev Rq.vec : Nat := 1
abbrev Rq.drain : Nat := 2
abbrev Rq.mover : Nat := 3
abbrev Rq.packer : Nat := 4
abbrev Rq.insert : Nat := 5
abbrev Rq.director : Nat := 6

/-- Port of a requester: 0 for the array operands and the vector units, 1 for the others (R253). -/
def rqPort (r : Nat) : Nat := if r ≤ 1 then 0 else 1

/-- Time of a segment cycle in 1/105 ns of TB. -/
def State.cycleT (s : State) (o cyc : Nat) : Nat := (s.ctx o).startTb * 105 + s.cycleTime o cyc

/-- The banks of a run of bytes. -/
def banksOf (addr len : Nat) : List Nat :=
  if len = 0 then [] else (List.range ((addr + len - 1) / 16777216 + 1 - addr / 16777216)).map fun i => addr / 16777216 + i

/-- Banks of some runs of bytes. -/
def runBanks (runs : List (Nat × Nat)) : List Nat := dedup (runs.flatMap fun r => banksOf r.1 r.2)

/-- A requester waits at a bank: BNK_CONFr counts (R261, R276). -/
def State.countWaits (s : State) (b r n : Nat) : State :=
  let k := s.bank b
  s.setBank b { k with conf := k.conf.set r (satAdd 32 (k.conf.getD r 0) n) }

/-- The program at the front of the insert lane ends without a result. -/
def State.cutProgram (s : State) (status : Nat) : State :=
  match s.ins.queue with
  | [] => s
  | k :: rest =>
    ({ s with ins := { s.ins with queue := rest, step := 0, row := none, draining := false, last := none } }).finish k status

/-- An insert program's access is refused or comes too late (R260): the program ends with FENCED_UNIT. -/
def State.faultProgram (s : State) (owner : Nat) : State :=
  ((s.logUnit 0x0203 owner 0xFF 0 [4]).cutProgram St.fencedUnit).detect 0x0D false 0xFF 0

/-- A played access has missed its fixed latency (R205, R261): an access fault. The movers and the packers have no fixed latency. -/
def State.missLatency (s : State) (req owner : Nat) : State :=
  if req = Rq.vec then (s.raise Reg.vecStatus 3).fenceSheet owner 4
  else if req = Rq.grid || req = Rq.drain then s.fenceSheet owner 4
  else if req = Rq.insert then s.faultProgram owner
  else s

/-- Two accesses meet at a bank's port. The one of the higher requester code waits, of two of one code the later. How often they meet is
open unless each is one cycle; whether a wait makes an access miss its latency is open too (log entry 3). -/
def State.meet (s : State) (b : Nat) (u x : BankUse) : State :=
  let late := if x.req < u.req then u else x
  let once := decide (u.from_ = u.until_) && decide (x.from_ = x.until_)
  let (w, s) := s.draw32
  let n := if once then 1 else w.toNat
  let s := s.countWaits b late.req n
  let (miss, s) := s.drawBool
  if miss && n ≠ 0 then s.missLatency late.req late.owner else s

/-- Accesses under way at an access's port in its time. -/
def State.rivals (s : State) (x : BankUse) : List BankUse :=
  s.ports.filter fun u => rqPort u.req = rqPort x.req && decide (u.from_ ≤ x.until_) && decide (x.from_ ≤ u.until_)

/-- An access is made: it meets those under way at the same port of the same banks (R261), and is noted. -/
def State.usePort (s : State) (x : BankUse) : State :=
  if x.runs.isEmpty then s
  else
    let bs := runBanks x.runs
    let s := s.each (s.rivals x) fun s u => s.each ((runBanks u.runs).filter bs.contains) fun s b => s.meet b u x
    { s with ports := s.ports.filter (fun u => decide (x.from_ ≤ u.until_)) ++ [x] }

/-- An access that is over several cycles, with nothing kept of what it found. -/
def mkUse (req owner : Nat) (write : Bool) (runs : List (Nat × Nat)) (from_ until_ : Nat) : BankUse :=
  { req := req, owner := owner, write := write, runs := runs, from_ := from_, until_ := until_, old := [] }

/-! ### Both ports at one word (R262) -/

/-- What a read of one cycle returns where the other port writes in it: the old bytes (R262). -/
def State.oldBytes (s : State) (port t a : Nat) (bs : Blob) : Blob :=
  match s.ports.filter fun u => u.write && rqPort u.req ≠ port && decide (u.from_ = t) && decide (u.until_ = t) && !u.old.isEmpty with
  | [] => bs
  | us => bs.zipIdx.map fun e =>
    match us.findSome? fun u => u.old.findSome? fun o => if o.1 ≤ a + e.2 then o.2[a + e.2 - o.1]? else none with
    | some x => x
    | none => e.1

/-- A write of one cycle at `t`, about to be made: what its runs hold is kept for reads of the other port in that cycle. -/
def State.writeUse (s : State) (req owner t : Nat) (runs : List (Nat × Nat)) : BankUse :=
  { mkUse req owner true runs t t with old := runs.map fun r => (r.1, s.readF r.1 r.2) }

/-- Two runs of bytes have a 32-byte word in common (R254). -/
def wordsMeet (a m b n : Nat) : Bool := decide (0 < m) && decide (0 < n) && decide (a / 32 ≤ (b + n - 1) / 32) && decide (b / 32 ≤ (a + m - 1) / 32)

/-- A write collision at some addresses (R262): each is logged, BNK_STATUS.wcol is set, and the sheet of the segment is fenced. -/
def State.collide (s : State) (o : Nat) (hits : List Nat) : State :=
  let s := s.each hits fun s a => s.logUnit 0x0502 o 2 (a / 16777216) [a / 64]
  (s.fenceSheet o 5).raise Reg.bnkStatus 2

/-- Writes of port 1 that are under way over several cycles at `t` and have a word in common with a run. In which cycle each word is
written is open. -/
def State.writersAt (s : State) (t a n : Nat) : List BankUse :=
  s.ports.filter fun u => u.write && rqPort u.req = 1 && decide (u.from_ < u.until_) && decide (u.from_ ≤ t) && decide (t ≤ u.until_) &&
    u.runs.any fun r => wordsMeet r.1 r.2 a n

/-- A store of a vector unit reaches tier F in a cycle (R262): where a writer of port 1 is at one of its words in that very cycle, which is
open while that writer is under way, the word keeps port 1's data and the writes collide. -/
def State.landStore (s : State) (o t a : Nat) (bs : Blob) : State :=
  match s.writersAt t a bs.length with
  | [] => s.writeF a bs
  | _ :: _ =>
    let (hit, s) := s.drawBool
    if hit then s.collide o [a] else s.writeF a bs

/-! ### Results of the vector units -/

/-- A result becomes visible at a segment cycle: in its unit, or in tier F, where port 0 writes it (R191, R253). -/
def State.landResult (s : State) (u o cyc : Nat) (r : VResult) : State :=
  match r with
  | .mem a bs =>
    let t := s.cycleT o cyc
    (s.usePort (s.writeUse Rq.vec o t [(a, bs.length)])).landStore o t a bs
  | r => s.setUnit u ((s.unit u).take r)

/-- Notes a store to tier F that became visible at a segment cycle, beside the others of that cycle (R262). -/
def State.noteStore (s : State) (o cyc : Nat) (r : VResult) : State :=
  match r with
  | .mem a bs => { s with vec := { s.vec with
      stores := (s.vec.stores.filter fun e => e.1 = o && e.2.1 = cyc) ++ [(o, cyc, a, bs.length)] } }
  | _ => s

/-- Results of every unit that are visible from a segment cycle on are written, in order of their cycles (R191). -/
def State.flushUnits (s : State) (cyc : Nat) : State :=
  s.each (List.range 32) fun s u =>
    let x := s.unit u
    let due := sortBy (fun (e : Nat × VResult) => e.1) (x.due.filter fun e => decide (e.1 ≤ cyc))
    if due.isEmpty then s
    else
      let s := s.setUnit u { x with due := x.due.filter fun e => decide (cyc < e.1) }
      due.foldl (fun (s : State) e => (s.landResult u x.owner e.1 e.2).noteStore x.owner e.1 e.2) s

end Sys2Proof.Machine
end

