-- ==== Sys2Proof/Machine/Player.lean ====
section
/-! DEFINITION. The sheet player: when a cue starts, is held, is shed, is skipped or is fenced (R94-R106), where tier F
references lie and whether a bank may be accessed (R259-R260, R301). -/

namespace Sys2Proof.Machine

/-! ### The reels' gates (R26, R96) -/

/-- Layers of the loaded plate. -/
def State.layerCount (s : State) : Nat :=
  match s.plate.plate with
  | some p => p.layers.length
  | none => 0

/-- The loaded plate is resident (R30). -/
def State.isResident (s : State) : Bool :=
  match s.plate.plate with
  | some p => p.resident
  | none => false

/-- The layer that a reel presents at a reel position (R26). -/
def State.layerAt (s : State) (rev : Bool) (p : Nat) : Nat := if rev then s.layerCount - 1 - p else p

/-- Buffers of a reel: forward 0 and 1, reverse 2 and 3 (R237). -/
def bufsOf (rev : Bool) : List Nat := if rev then [2, 3] else [0, 1]

/-- Layer buffer `i`. -/
def State.buf (s : State) (i : Nat) : LayerBuf := s.tiers.bufs.getD i LayerBuf.init

/-- Changes layer buffer `i`. -/
def State.setBuf (s : State) (i : Nat) (b : LayerBuf) : State := { s with tiers := { s.tiers with bufs := s.tiers.bufs.set i b } }

/-- Some buffer of a reel holds a layer, verified. -/
def State.holdsLayer (s : State) (rev : Bool) (l : Nat) : Bool :=
  (bufsOf rev).any fun i => (s.buf i).layer = some l && (s.buf i).ready

/-- A reel's layer for the frame's reel position is ready; one fetch serves both reels at a middle layer (R240). -/
def State.reelReady (s : State) (rev : Bool) : Bool :=
  let l := s.layerAt rev s.player.reelPos
  s.holdsLayer rev l || (s.layerAt (!rev) s.player.reelPos = l && s.holdsLayer (!rev) l)

/-- A gate is ready (R96). -/
def State.gateReady (s : State) (gate : Nat) : Bool :=
  s.isResident || (match gate with
    | 0 => true
    | 1 => s.reelReady false
    | 2 => s.reelReady true
    | _ => s.reelReady false && s.reelReady true)

/-! ### Cues that are due -/

/-- The cue has started, or was shed or skipped. -/
def PlayCtx.gone (p : PlayCtx) (t : Track) (i : Nat) : Bool :=
  p.skipped.contains (t, i) || p.started.any fun e => e.1 = t && e.2.1 = i

/-- The tracks that share a segment's slip (R95). -/
def slipTracks : List Track := [.a, .v, .m]

/-- Selected non-anchored cues of a sheet that are still to come, as (track, index, cue). -/
def PlayCtx.waiting (p : PlayCtx) (x : Sheet) : List (Track × Nat × Cue) :=
  slipTracks.flatMap fun t =>
    ((x.track t).zipIdx.filter fun e => !e.1.anchor && p.selected e.1 && !p.gone t e.2).map fun e => (t, e.2, e.1)

/-- No waiting non-anchored cue comes before the offset. -/
def PlayCtx.isNext (p : PlayCtx) (x : Sheet) (off : Nat) : Bool := (p.waiting x).all fun e => off ≤ e.2.2.offset

/-- The start cycle of a cue that has started. -/
def PlayCtx.startOf (p : PlayCtx) (t : Track) (i : Nat) : Option Nat :=
  (p.started.find? fun e => e.1 = t && e.2.1 = i).map fun e => e.2.2

/-- Bays of cues that were not played: the partition and bay of a retake cue, or the segment's own bay. -/
def State.breakBay (s : State) (o : Nat) (c : Cue) : State :=
  if c.retake then
    match (s.ctx o).retakes.find? fun r => r.1 = c.bay with
    | some r =>
      let q := s.ctx r.2.1
      s.setCtx r.2.1 { q with broken := if q.broken.contains r.2.2.bay then q.broken else q.broken ++ [r.2.2.bay] }
    | none => s
  else if c.bay = 63 then s
  else
    let q := s.ctx o
    s.setCtx o { q with broken := if q.broken.contains c.bay then q.broken else q.broken ++ [c.bay] }

/-- SHED (R98): the cue and every later non-anchored cue of the segment are not played. -/
def State.shed (s : State) (o : Nat) (x : Sheet) : State :=
  let rest := (s.ctx o).waiting x
  let s := s.each rest fun s e => s.breakBay o e.2.2
  let p := s.ctx o
  let s := s.setCtx o { p with state := .shed, holdCue := none, skipped := p.skipped ++ rest.map (fun e => (e.1, e.2.1)),
                               shedCues := p.shedCues + rest.length }
  let s := { s with player := { s.player with shedCnt := satAdd 32 s.player.shedCnt rest.length } }
  s.raise Reg.shtStatus 2

/-- The shed test fails for a cue at the present time (R98). -/
def State.shedTest (s : State) (o : Nat) (c : Cue) : Bool := decide ((s.ctx o).endTb < s.now + cdiv (c.dur * 8) 7)

/-- Marks a cue as started at a cycle. -/
def State.markStarted (s : State) (o : Nat) (t : Track) (i cyc : Nat) : State :=
  let p := s.ctx o
  s.setCtx o { p with started := p.started ++ [(t, i, cyc)] }

/-- The checks on a cue as it is played (R104): 1 CRC, 2 track; none when it may play. -/
def Cue.fault (c : Cue) (t : Track) : Option Nat :=
  if !c.crcOk then some 1 else if c.track ≠ t.code then some 2 else none

/-- A window of the insert lane opens at a segment cycle that is a whole number of cadences (R56). -/
def State.windowAt (s : State) (o cyc : Nat) : Bool := decide (s.cycleTb o cyc + 37 ≤ (s.ctx o).endTb)

/-- The cycle at which a cue of `dur` cycles that is due at a cycle starts: A and V starts pause while a window is open, and such a cue
does not run into the next one (R56). None where no gap between windows holds it. -/
def State.clearStart (s : State) (o : Nat) (t : Track) (cyc dur : Nat) : Option Nat :=
  let c := s.cadenceCycles
  if c = 0 || t = .m || t = .l then some cyc
  else
    let cyc := if cyc % c < 32 && s.windowAt o (cyc - cyc % c) then cyc - cyc % c + 32 else cyc
    let next := cyc - cyc % c + c
    if cyc + dur ≤ next || !s.windowAt o next then some cyc
    else if dur + 32 ≤ c then some (next + 32)
    else none

/-- The waiting cue at a compiled offset whose layer is not ready, if there is one: it holds the segment (R96, R97). -/
def State.holder (s : State) (p : PlayCtx) (x : Sheet) (off : Nat) : Option (Track × Nat × Cue) :=
  (p.waiting x).find? fun e => e.2.2.offset = off && !s.gateReady e.2.2.gate && (e.2.2.bay = 63 || e.2.2.retake || !p.broken.contains e.2.2.bay)

/-- The cue is passed over: it is not played. -/
def PlayCtx.skip (p : PlayCtx) (t : Track) (i : Nat) : PlayCtx := { p with skipped := p.skipped ++ [(t, i)] }

/-- A cue of track A, V or M is due in a segment: `act` is what the shot does when the cue starts (R95-R98, R104). Non-anchored
cues start in order of offset in RUN; anchored ones at their compiled cycle in every state but IDLE (R106: a fence stops
non-anchored cues). An A or V cue starts outside the insert windows (R56) and ends inside its segment (R18, R52, R98). -/
def State.startCue (s : State) (o : Nat) (t : Track) (i : Nat) (kind : Shot → Bool) (act : State → Sheet → Cue → State) : State :=
  match s.playing o with
  | none => s
  | some x =>
    match x.cue? t i with
    | none => s
    | some c =>
      let p := s.ctx o
      if s.saf.safe || p.state = .idle || p.gone t i || !p.selected c || !kind (x.shot c) then s
      else if c.anchor then
        match s.clearStart o t c.offset c.dur with
        | none => (s.breakBay o c).setCtx o (((s.breakBay o c).ctx o).skip t i)
        | some start =>
          let s := s.advance (s.cycleTb o start)
          if (t = .a || t = .v) && decide ((s.ctx o).endTb < s.cycleTb o (start + c.dur)) then (s.breakBay o c).setCtx o (((s.breakBay o c).ctx o).skip t i)
          else
            let s := (s.flushUnits start).markStarted o t i start
            match c.fault t with
            | some why => s.fenceSheet o why
            | none => act s x c
      else if p.state ≠ .run || !p.isNext x c.offset then s
      else if c.bay ≠ 63 && !c.retake && p.broken.contains c.bay then
        s.setCtx o (p.skip t i)
      else
        let due := c.offset + p.slip
        let s := s.advance (s.cycleTb o due)
        match s.holder p x c.offset with
        | some e => s.setCtx o { p with state := .hold, holdCue := some (e.1, e.2.1, due, 1), holdTb := s.now }
        | none =>
          match s.clearStart o t due c.dur with
          | none => (s.breakBay o c).setCtx o (((s.breakBay o c).ctx o).skip t i)
          | some start =>
            let s := s.advance (s.cycleTb o start)
            if s.shedTest o c then s.shed o x
            else
              let s := (s.flushUnits start).markStarted o t i start
              match c.fault t with
              | some why => s.fenceSheet o why
              | none => act s x c

/-- HOLD_RESUME (R96, R97, R98): the resume check `start + k * C` of a hold. A ready gate ends the hold; the held cue then
meets the shed test. Otherwise the next resume check is one cadence later. -/
def execHoldResume (owner : Nat) (s : State) : Host.Outcome State Fault Refusal :=
  let p := s.ctx owner
  match p.holdCue, s.playing owner with
  | some (t, i, start, k), some x =>
    match x.cue? t i with
    | none => .next s
    | some c =>
      if p.state ≠ .hold || s.saf.safe then .next s
      else
        let cyc := max 1 s.cadenceCycles
        let s := s.advance (s.cycleTb owner (start + k * cyc))
        if s.gateReady c.gate then
          let s := s.setCtx owner { p with state := .run, holdCue := none, heldNs := p.heldNs + (s.now - p.holdTb), slip := p.slip + k * cyc }
          .next (if s.shedTest owner c then s.shed owner x else s)
        else .next (s.setCtx owner { p with holdCue := some (t, i, start, k + 1) })
  | _, _ => .next s

/-- The end of a segment: a hold that has not ended is held to the segment's end, and what is left is shed. -/
def State.closeSegment (s : State) (o : Nat) : State :=
  let p := s.ctx o
  match s.playing o with
  | none => s
  | some x =>
    if p.state = .hold then
      (s.setCtx o { p with heldNs := p.heldNs + (p.endTb - p.holdTb) }).shed o x
    else if p.state = .run && !(p.waiting x).isEmpty then s.shed o x
    else s

/-! ### Bindings and references -/

/-- The binding that a cue plays with: its bay's, or that of the bay assigned to its retake slot (R94, R103). -/
def State.cueBinding (s : State) (o : Nat) (c : Cue) : Option Binding :=
  let p := s.ctx o
  if c.retake then (p.retakes.find? fun r => r.1 = c.bay).map fun r => r.2.2
  else if c.bay = 63 then none
  else p.bindings.find? fun b => b.bay = c.bay

/-- The partition and bay that a cue works for (R103). -/
def State.cueBay (s : State) (o : Nat) (c : Cue) : Option (Nat × Nat) :=
  if c.retake then ((s.ctx o).retakes.find? fun r => r.1 = c.bay).map fun r => (r.2.1, r.2.2.bay)
  else if c.bay = 63 then none
  else some (o, c.bay)

/-- The owner of the work of a cue: the partition of a retake's bay, else the segment's owner (R171). -/
def State.workOwner (s : State) (o : Nat) (c : Cue) : Nat :=
  match s.cueBay o c with
  | some (q, _) => q
  | none => o

/-- First byte and bytes of a tint's hot slot, if it claims one. -/
def State.slotRun (s : State) (t : Nat) : Option (Nat × Nat) :=
  let x := s.tintOf t
  match x.slot with
  | some h => some ((s.slotOf h).base * 16777216, (s.part x.owner).alloc.slotBanks * 16777216)
  | none => none

/-- A tint is in its hot slot: HOT, or EVICTING with items still in passage (R298). -/
def State.tintHeld (s : State) (t : Nat) : Bool :=
  match (s.tintOf t).state with
  | .hot | .evicting | .queuedOn => (s.tintOf t).slot.isSome
  | _ => false

/-- What a reference of a shot resolves to (R301). -/
inductive Place
  /-- A tier F byte address. -/
  | at_ (addr : Nat)
  /-- A byte address within the bound tint's hot slot, with the bytes left in the slot from it. -/
  | inSlot (addr room : Nat)
  /-- A slot-relative reference of a bay that is not bound: reads give zero, writes are discarded. -/
  | unbound
  deriving DecidableEq, Repr

/-- Resolves a tier F reference, in 64-byte units (R301). -/
def State.resolve (s : State) (b : Option Binding) (ref : Nat) : Place :=
  if ref < 2147483648 then .at_ (64 * ref)
  else
    match b with
    | none => .unbound
    | some b =>
      match s.slotRun b.tint with
      | some (base, len) => .inSlot (base + 64 * (ref - 2147483648)) (len - 64 * (ref - 2147483648))
      | none => .unbound

/-- A place moved on by some bytes. -/
def Place.plus : Place → Nat → Place
  | .at_ a, n => .at_ (a + n)
  | .inSlot a r, n => .inSlot (a + n) (r - n)
  | .unbound, _ => .unbound

/-! ### Bank access (R256, R259, R260) -/

/-- Played cues of an owner may access a bank. -/
def State.bankOk (s : State) (o : Nat) (write : Bool) (b : Nat) : Bool :=
  let k := s.bank b
  b < 1536 && k.state = .on && k.usable && (k.owner = o || (k.shared && !write))

/-- A played access of a segment's owner to a run of bytes is allowed: in banks that it owns and that are ON, or reads as shared;
in a hot slot, inside the slot. -/
def State.accessOk (s : State) (o : Nat) (write : Bool) (p : Place) (len : Nat) : Bool :=
  match p with
  | .unbound => true
  | .at_ a => (banksOf a len).all (s.bankOk o write)
  | .inSlot a room => decide (len ≤ room) && (banksOf a len).all fun b => (s.bank b).state = .on && (s.bank b).usable

/-- Bytes read at a place. -/
def State.readAt (s : State) (p : Place) (len : Nat) : Blob :=
  match p with
  | .at_ a | .inSlot a _ => s.readF a len
  | .unbound => List.replicate len 0

/-- Bytes written at a place. -/
def State.writeAt (s : State) (p : Place) (bs : Blob) : State :=
  match p with
  | .at_ a | .inSlot a _ => s.writeF a bs
  | .unbound => s

/-- The run of bytes of a place; none through the reference of a bay that is not bound. -/
def Place.run : Place → Nat → List (Nat × Nat)
  | .at_ a, n | .inSlot a _, n => if n = 0 then [] else [(a, n)]
  | .unbound, _ => []

/-- A shot of a cue reads some runs of bytes: the items of its bay end with UNCORRECTABLE where a word was (R3, R266). -/
def State.shotRead (s : State) (o : Nat) (c : Cue) (runs : List (Nat × Nat)) : State :=
  let b := s.cueBinding o c
  match s.eccRead runs with
  | (s, false) => s
  | (s, true) => match b with
    | some b => s.endItems b.items St.uncorrectable
    | none => s

/-- Bytes that a port reads at a place in one cycle. -/
def State.portRead (s : State) (port t : Nat) (p : Place) (len : Nat) : Blob :=
  match p with
  | .at_ a | .inSlot a _ => s.oldBytes port t a (s.readF a len)
  | .unbound => List.replicate len 0

/-! ### The start of a segment -/

/-- A tile is IDLE at the segment's start; a read-out that still runs ends in the first 64 cycles (R105, R124). -/
def State.clearTile (s : State) (t : Nat) : State := s.setTile t AccTile.init

/-- The vector registers are cleared at every segment start (R190). -/
def State.clearUnits (s : State) : State := { s with vec := { s.vec with units := List.replicate 32 VUnit.init } }

/-- Owners of the segments of a frame, in order: the house, the partitions in the frame, the tail (R18, R52, R404). -/
def State.segOrder (s : State) : List Nat := 32 :: s.frameParts ++ [33]

/-- SEGMENT_START (R18, R19, R95, R105, R126, R190): segment by segment in the frame's order, the player context starts with slip 0
and held_ns 0, in RUN with a sheet and in IDLE without one. -/
def execSegmentStart (owner : Nat) (s : State) : Host.Outcome State Fault Refusal :=
  let before := s.segOrder.takeWhile fun q => q ≠ owner
  if !s.tbm.running || s.saf.safe || !s.segOrder.contains owner || (s.ctx owner).begun || !(before.all fun q => (s.ctx q).begun) then .next s
  else
    let t0 := s.tbm.tLast.toNat
    let start := t0 + s.segOffset owner
    let s := s.advance start
    let s := s.each before fun s q => s.closeSegment q
    let s := s.each (if s.cadenceCycles = 0 then [0, 1, 2, 3] else [0, 1, 2]) fun s t => s.clearTile t
    let s := s.clearUnits
    let p := s.ctx owner
    let play := s.player.playing && (s.playing owner).isSome && !(owner < 32 && (s.part owner).state ≠ .active)
    let s := s.setCtx owner { p with
      state := if play then .run else .idle, begun := true, startTb := start, endTb := t0 + s.segEnd owner, slip := 0, heldNs := 0,
      shedCues := 0, holdCue := none, refCyc := 0, refT := 0, winK := 0 }
    .next s

end Sys2Proof.Machine
end

