-- ==== Sys2Proof/Machine/Timebase.lean ====
section
/-! DEFINITION. The timebase: starting and stopping frames, profiles and cadence, the tick word and the follower's discipline
(chapter 2). The tick itself is put together in Tick.lean. -/

namespace Sys2Proof.Machine

/-- The outcome of every command that changes the state. -/
abbrev Out := Host.Outcome State Fault Refusal

/-! ### Frame profiles (R51) -/

/-- A length is a multiple of the insert cadence of a code, where that is not OFF. -/
def onCadence (code ns : Nat) : Bool := cadenceNs code = 0 || ns % cadenceNs code = 0

/-- A frame and house length with segment lengths, all under a cadence code, make a valid profile (R51). -/
def lengthsValid (us house : Nat) (segs : List Nat) (code : Nat) : Bool :=
  64 ≤ us && us ≤ 16000 && 8000 ≤ house && house % 4 = 0 && house + segs.sum ≤ 1000 * us &&
    onCadence code (1000 * us) && onCadence code house && segs.all (onCadence code)

/-- A profile with given lengths is valid with the segments that are in the frame (R51, R404). -/
def State.validWith (s : State) (p us house code : Nat) : Bool :=
  lengthsValid us house (s.frameParts.map fun q => s.segNs q p) code

/-- The profile is in use: its frame length field is not 0. -/
def State.used (s : State) (p : Nat) : Bool := s.frameUs p ≠ 0

/-- The profile is used and valid at present (R51). -/
def State.valid (s : State) (p : Nat) : Bool := s.validWith p (s.frameUs p) (s.houseNs p) (s.regFld Reg.tbCtrl 2 2)

/-- Every used profile is valid under a cadence code (R55). -/
def State.allValid (s : State) (code : Nat) : Bool :=
  (List.range 4).all fun p => !s.used p || s.validWith p (s.frameUs p) (s.houseNs p) code

/-- TB_STATUS.cfg_err is set: a configuration write was ignored. -/
def State.tbErr (s : State) : State := s.raise Reg.tbStatus 10

/-- The device is a follower (TB_CTRL.role). -/
def State.follower (s : State) : Bool := s.regBit Reg.tbCtrl 1

/-! ### Reads with a latch -/

/-- TB_NOW_READ (R75): TB[31:0] is read and TB[63:32] latched. -/
def execTbNowRead (s : State) : Out :=
  .next ({ s with tbm := { s.tbm with nowHi := BitVec.ofNat 32 (fld s.tbm.tb 32 32) } }.answer (BitVec.ofNat 32 (fld s.tbm.tb 0 32)))

/-- TICK_LAST_READ (R75): T(FN)[31:0] is read and its upper half latched. -/
def execTickLastRead (s : State) : Out :=
  .next ({ s with tbm := { s.tbm with lastHi := BitVec.ofNat 32 (fld s.tbm.tLast 32 32) } }.answer
    (BitVec.ofNat 32 (fld s.tbm.tLast 0 32)))

/-! ### The count of TB (R39, R40, R66) -/

/-- The next nanosecond of the phase correction is due: it is spread evenly over the frame (R66). -/
def Timebase.phaseDue (t : Timebase) (frameNs : Nat) : Bool :=
  let n := t.phaseStep.natAbs
  decide (t.phaseLeft ≠ 0) && decide ((2 * (n - t.phaseLeft.natAbs) + 1) * frameNs ≤ 2 * n * (t.tb - t.tLast).toNat)

/-- TB one nanosecond later: it counts one, and one more or one less where a slew is due, no more than 1 ns in any 1 µs (R40). The
frequency correction gathers and is slewed by whole nanoseconds (R66). -/
def Timebase.count (t : Timebase) (frameNs : Nat) : Timebase :=
  let f := t.freqAcc + t.freqPpb
  let free := decide (t.slewTb + 1000 ≤ t.tb.toNat)
  if free && t.phaseDue frameNs then
    let d := t.phaseLeft.sign
    { t with tb := t.tb + BitVec.ofInt 64 (1 + d), slewTb := t.tb.toNat, phaseLeft := t.phaseLeft - d, freqAcc := f }
  else if free && decide (1000000000 ≤ f.natAbs) then
    { t with tb := t.tb + BitVec.ofInt 64 (1 + f.sign), slewTb := t.tb.toNat, freqAcc := f - 1000000000 * f.sign }
  else { t with tb := t.tb + 1, freqAcc := f }

/-! ### Starting and stopping frames -/

/-- RUN_START (R54, R58, R59): run written 1. A master's first tick falls 1,000 ns later; a follower waits for a
synchronisation; behind a pending stop the start is queued. -/
def execRunStart (s : State) : Out :=
  if s.locked .tb then .next s
  else if !(s.used s.tbm.active.toNat && s.valid s.tbm.active.toNat) && (s.tbm.stopPending || !(s.tbm.running || s.tbm.startDue || s.tbm.waitSync)) then
    .next s.tbErr
  else if s.tbm.stopPending then .next { s with tbm := { s.tbm with restartQueued := true } }
  else if s.tbm.running || s.tbm.startDue || s.tbm.waitSync then .next s
  else
    let s := s.setFld Reg.tbCtrl 0 1 1
    if s.follower then .next { s with tbm := { s.tbm with waitSync := true } }
    else .next { s with tbm := { s.tbm with startDue := true, tNext := s.tbm.tb + 1000 } }

/-- RUN_STOP (R59): run written 0. Allowed only with no partition active and SHT_CTRL.en 0; frames stop at the end of the
current frame. It cancels a queued restart, and a start whose first tick has not come. -/
def execRunStop (s : State) : Out :=
  if s.locked .tb then .next s
  else if s.anyActive || s.regBit Reg.shtCtrl 0 then .next s.tbErr
  else if s.tbm.stopPending then .next { s with tbm := { s.tbm with restartQueued := false } }
  else
    let s := s.setFld Reg.tbCtrl 0 1 0
    if s.tbm.running then .next { s with tbm := { s.tbm with stopPending := true } }
    else .next { s with tbm := { s.tbm with startDue := false, waitSync := false } }

/-- SET_CADENCE (R55): accepted only with no partition active and if every used profile stays valid. -/
def execSetCadence (c : BitVec 2) (s : State) : Out :=
  if s.locked .tb then .next s
  else if s.anyActive || !s.allValid c.toNat then .next s.tbErr
  else .next (s.setFld Reg.tbCtrl 2 2 c.toNat)

/-- SYNC_ARM (R72): accepted only with no partition active. -/
def execSyncArm (s : State) : Out :=
  if s.anyActive then .next s.tbErr else .next (s.setFld Reg.tbCtrl 5 1 1)

/-- The profile that the house record of a commit names, if there is one (R53). -/
def houseProfile (recs : List (Nat × CommitRec)) : Option (BitVec 2) := (recs.find? fun r => r.1 = 32).map fun r => r.2.profile

/-- The profiles that commits name for the frames to come (R53): the next frame's, the one fixed for the frame after it, and on a master
those of the records that stand. -/
def State.committedProfiles (s : State) : List (BitVec 2) :=
  let named := fun (recs : List (Nat × CommitRec)) => (houseProfile recs).toList
  [s.tbm.next, s.tbm.announced] ++ (if s.follower then [] else named s.player.nextRecs ++ named s.player.afterRecs)

/-- TB_PROFILE.pending (R53, R75): 1 while a committed change awaits its tick. -/
def State.updatePending (s : State) : State :=
  { s with tbm := { s.tbm with pending := s.committedProfiles.any fun p => p ≠ s.tbm.active } }

/-- The profile is the active one while frames run, or a committed next one while a change is pending (R54). -/
def State.profileBusy (s : State) (p : BitVec 2) : Bool :=
  (s.tbm.running && p = s.tbm.active) || (s.tbm.pending && s.committedProfiles.contains p)

/-- PROFILE_WRITE (R54): a profile's frame or house length, while it is neither active nor committed and TB_LOCK is clear. -/
def execProfileWrite (n : BitVec 2) (house : Bool) (v : Word) (s : State) : Out :=
  if s.locked .tb || s.profileBusy n then .next s.tbErr
  else if house then .next (s.setFld (Reg.tbProfHouse + 8 * n.toNat) 0 22 (fld v 0 22))
  else .next (s.setFld (Reg.tbProfFrame + 8 * n.toNat) 0 14 (fld v 0 14))

/-- REHEARSE_ARM (R74): arms the preset for the next tick, with no partition active. -/
def execRehearseArm (epochValue : BitVec 16) (epochEn : Bool) (s : State) : Out :=
  if s.anyActive then .next s.tbErr
  else
    let s := (s.setFld Reg.tbRehearse 0 16 epochValue.toNat).setFld Reg.tbRehearse 16 1 (b2n epochEn)
    .next { s with tbm := { s.tbm with presetArmed := true } }

/-! ### The tick word (Table 2.7) -/

/-- The tick word of the present frame. -/
def State.tickWord (s : State) : BitVec 128 :=
  let t := s.tbm
  let n := t.tLast.toNat + 2 ^ 64 * t.fn.toNat + 2 ^ 96 * t.epoch.toNat + 2 ^ 112 * t.active.toNat + 2 ^ 114 * t.next.toNat +
    2 ^ 116 * b2n (t.holdover || t.upstreamHoldover) + 2 ^ 117 * b2n (t.next ≠ t.active)
  BitVec.ofNat 128 (n + 2 ^ 120 * (crc8 (beBytes 15 n)).toNat)

/-- The word's CRC is right (R61). -/
def tickWordOk (w : BitVec 128) : Bool := (crc8 (beBytes 15 (fld w 0 120))).toNat = fld w 120 8

/-- Code of a tick source (Table 2.6). -/
def TickSource.code : TickSource → Nat
  | .tickIn => 1
  | .beacon p => 8 + p

/-- Code of the primary and of the secondary source. -/
def State.primary (s : State) : Nat := s.regFld Reg.tbTickSrc 0 4
def State.secondary (s : State) : Nat := s.regFld Reg.tbTickSrc 4 4

/-- Path delay plus trim of a source in ns (R63, R64, R65). -/
def State.compensation (s : State) : TickSource → Int
  | .tickIn => s.regFld Reg.tbTickInDly 0 10
  | .beacon p => ((s.tbm.bcnDelay.getD p (0, false)).1.toNat : Int) + (BitVec.ofNat 8 (s.regFld (Reg.tbBcnTrim + 4 * p) 0 8)).toInt

/-- A source is configured: primary or secondary, with a code that is not NONE. -/
def State.configured (s : State) (src : TickSource) : Bool := src.code = s.primary || src.code = s.secondary

/-- Logs a change of source and makes it (R68). -/
def State.switchSrc (s : State) (n : BitVec 2) (code : Nat) : State :=
  ({ s with tbm := { s.tbm with srcActive := n } }).log 0x0104 [code]

/-- A tick for which a source delivered no acceptable word (R65, R68). -/
def State.missTick (s : State) (src : TickSource) : State :=
  let t := s.tbm
  let prim := decide (src.code = s.primary)
  let sec := decide (src.code = s.secondary)
  let act := (prim && t.srcActive = 1) || (sec && t.srcActive = 2)
  let t := { t with missCnt := satAdd 32 t.missCnt 1 }
  let t := if prim then { t with missPrimary := t.missPrimary + 1, primaryRun := 0 } else t
  let t := if sec then { t with missSecondary := t.missSecondary + 1, secondaryOk := false } else t
  let t := if act then { t with lockRun := 0, alignRun := 0, acceptRun := 0, locked := false } else t
  let s := { s with tbm := t }
  if prim && t.secondaryOk && t.srcActive = 1 then s.switchSrc 2 s.secondary else s

/-- MISSED_TICK (R65): no acceptable word of a configured source came for a tick; the local tick still fires. -/
def execMissedTick (src : TickSource) (s : State) : Out :=
  if s.follower && s.tbm.running && s.configured src then .next (s.missTick src) else .next s

/-- The frequency correction after an accepted tick with phase error `e` (R66). The rule does not say how the fraction is rounded:
a free choice between the two neighbouring values. -/
def State.newFreq (s : State) (e : Int) : Int × State :=
  let d : Int := 16 * s.frameNs
  let n := s.tbm.freqPpb * d - e * 1000000000
  let (up, s') := s.drawBool
  let q := if d = 0 then s.tbm.freqPpb else n / d + (if n % d = 0 then 0 else if up then 1 else 0)
  (max (-200000) (min 200000 q), s')

/-- DISCIPLINE_UPDATE (R66, R67, R71): an accepted word with phase error `e` for the tick of frame `fn`. The runs of accepted ticks go on
only from the tick before. -/
def State.discipline (s : State) (e : Int) (fn : BitVec 32) : State :=
  let (f, s) := s.newFreq e
  let near := decide (-4 ≤ e ∧ e ≤ 4)
  let run := fun n : Nat => if s.tbm.acceptFn = some (fn - 1) then n + 1 else 1
  { s with tbm := { s.tbm with
      phaseErr := BitVec.ofInt 16 e, freqPpb := f, phaseNext := -e, acceptFn := some fn, acceptRun := run s.tbm.acceptRun,
      lockRun := if near then run s.tbm.lockRun else 0, alignRun := if near then 0 else run s.tbm.alignRun,
      locked := s.tbm.locked && near } }

/-- The slot that an owner's fallback designation names for a profile, if the designation is valid (R78, R109). -/
def State.fallbackSlot (s : State) (o prof : Nat) : Option Nat :=
  let r := if o = 32 then s.reg Reg.shtHouseFb else s.reg (Reg.shtFb + 4 * o)
  if bitOf r 31 then some (fld r (8 * prof) 6) else none

/-- The slot of an owner's fallback sheet for the active profile: it must be loaded and not grey. -/
def State.fallbackPlays (s : State) (o : Nat) : Option Nat :=
  (s.fallbackSlot o s.tbm.active.toNat).filter fun k => (s.sheet o k).isSome && !s.player.grey.contains (o * 64 + k)

/-- The active partitions play their fallback sheets in the present frame, with no bay bound (R73). -/
def State.playFallbacks (s : State) : State :=
  s.each s.activeParts fun s p =>
    s.setCtx p { s.ctx p with slot := s.fallbackPlays p, fallback := true, bindings := [], training := [] }

/-- PROFILE record: old, new, and what happened (0x0108). -/
def State.logProfile (s : State) (old new : BitVec 2) (what : Nat) : State := s.log 0x0108 [old.toNat, new.toNat, what]

/-- What an accepted word says of the profiles (R73): the frame's profile, and the next. `fired`: the local tick has come. -/
def State.wordProfiles (s : State) (word : BitVec 128) (fired : Bool) : State :=
  let prof := BitVec.ofNat 2 (fld word 112 2)
  let nxt := BitVec.ofNat 2 (fld word 114 2)
  if fired then
    let old := s.tbm.active
    let s := { s with tbm := { s.tbm with next := nxt, announced := nxt, pending := decide (nxt ≠ prof) } }
    if prof = old then s
    else
      let s := { s with tbm := { s.tbm with
        active := prof, mismatch := true, tNext := s.tbm.tLast + BitVec.ofNat 64 (1000 * s.frameUs prof.toNat) } }
      (s.logProfile old prof 2).playFallbacks
  else
    { s with tbm := { s.tbm with wordProfile := if prof = s.tbm.next then none else some prof, announced := nxt } }

/-- A timestamp that TB has left behind by a step back is the present moment's. -/
def Wait.upTo (now : Nat) : Wait → Wait
  | .observed t => .observed (min t now)
  | w => w

/-- What was observed before a step of TB lies in its past (R40, R546). -/
def State.restamp (s : State) : State :=
  let now := s.now
  let cap := fun w : Option Wait => w.map (Wait.upTo now)
  { s with
    items := s.items.map fun x => (x.1, { x.2 with obs := if now < x.2.obs.toNat then s.tbm.tb else x.2.obs }),
    tints := Sparse.mapListed (fun _ => Tint.init) (fun _ (t : Tint) => { t with evict := cap t.evict, withdraw := cap t.withdraw }) s.tints,
    ses := Sparse.mapListed (fun _ => Ses.init) (fun _ (x : Ses) => { x with close := cap x.close }) s.ses,
    prt := { s.prt with part := s.prt.part.map fun (x : Partition) =>
      { x with activate := cap x.activate, deactivate := cap x.deactivate, teardown := cap x.teardown, freeze := cap x.freeze } },
    saf := { s.saf with reqs := s.saf.reqs.map fun (r : FenceReq) => { r with since := min r.since now } } }

/-- SYNC_STEP (R72): TB is stepped so that the tick falls at the word's tb plus the compensation; FN, epoch and profile are taken. -/
def State.syncStep (s : State) (src : TickSource) (word : BitVec 128) (arrival : BitVec 64) : State :=
  let tb := fld word 0 64
  let step : Int := tb + s.compensation src - arrival.toNat
  let prof := BitVec.ofNat 2 (fld word 112 2)
  let nxt := BitVec.ofNat 2 (fld word 114 2)
  let s := s.setFld Reg.tbCtrl 5 1 0
  let run := s.tbm.running || s.tbm.waitSync
  let s := { s with tbm := { s.tbm with
      tb := BitVec.ofInt 64 (s.tbm.tb.toNat + step), fn := BitVec.ofNat 32 (fld word 64 32), epoch := BitVec.ofNat 16 (fld word 96 16),
      lastEpoch := BitVec.ofNat 16 (fld word 96 16), acceptFn := none, phaseLeft := 0, freqAcc := 0, slewTb := 0, heldEpoch := BitVec.ofNat 16 (fld word 96 16), active := prof, next := nxt, announced := nxt, pending := run && nxt ≠ prof,
      tLast := BitVec.ofNat 64 tb, tNext := BitVec.ofNat 64 (tb + 1000 * s.frameUs prof.toNat), running := run, waitSync := false,
      cpPassed := if s.tbm.running then false else true, srcActive := if src.code = s.primary then 1 else 2,
      lockRun := 0, alignRun := 0, acceptRun := 0, locked := false, missPrimary := 0, missSecondary := 0, phaseNext := 0,
      upstreamHoldover := bitOf word 116 } }
  s.restamp.log 0x0106 [(BitVec.ofInt 32 step).toNat, (BitVec.ofInt 32 (step / 2 ^ 32)).toNat]

/-- An accepted word (R65-R68, R73). -/
def State.acceptWord (s : State) (src : TickSource) (word : BitVec 128) (e : Int) (fired : Bool) : State :=
  let prim := decide (src.code = s.primary)
  let sec := decide (src.code = s.secondary)
  let fn := BitVec.ofNat 32 (fld word 64 32)
  let s := if prim then { s with tbm := { s.tbm with missPrimary := 0, primaryRun := s.tbm.primaryRun + 1 } } else s
  let s := if sec then { s with tbm := { s.tbm with missSecondary := 0, secondaryOk := true } } else s
  let s := if !prim && s.tbm.srcActive = 1 && 0 < s.tbm.missPrimary then s.switchSrc 2 s.secondary else s
  -- without an active source, the first word of a tick disciplines
  let act := (s.tbm.srcActive = 0 && s.tbm.acceptFn ≠ some fn) || (prim && s.tbm.srcActive = 1) || (sec && s.tbm.srcActive = 2)
  if act then
    let s := s.discipline e fn
    let s := { s with tbm := { s.tbm with upstreamHoldover := bitOf word 116 } }
    s.wordProfiles word fired
  else s

/-- TICK_WORD (R65, R71, R72): a word on TICK_IN or a beacon, with its arrival in local TB. -/
def execTickWord (src : TickSource) (word : BitVec 128) (arrival : BitVec 64) (s : State) : Out :=
  if !s.configured src then .next s
  else if !tickWordOk word then .next (if s.follower && s.tbm.running then s.missTick src else s)
  else if s.regBit Reg.tbCtrl 5 then .next (s.syncStep src word arrival)
  else if !(s.follower && s.tbm.running) then .next s
  else
    let at_ : Int := arrival.toNat - s.compensation src
    let e : Int := at_ - fld word 0 64
    -- the tick that the word belongs to: the last one, or the one still to come
    let fired := decide ((at_ - s.tbm.tLast.toNat).natAbs ≤ (at_ - s.tbm.tNext.toNat).natAbs)
    let fn := if fired then s.tbm.fn else s.tbm.fn + 1
    let wfn := BitVec.ofNat 32 (fld word 64 32)
    let wep := BitVec.ofNat 16 (fld word 96 16)
    -- the local epoch before the word's tick
    let epoch := if fired then s.tbm.lastEpoch else s.tbm.epoch
    if wfn ≠ fn || !(wep = epoch || (wfn = 0 && wep = epoch + 1)) then
      .next (((s.raise Reg.tbStatus 11).log 0x0109 []).missTick src)
    else if e < -64 || 64 < e then .next (s.missTick src)
    else .next (s.acceptWord src word e fired)

/-- SRC_RETURN (R68): after 64 consecutive accepted primary ticks the follower returns to its primary source. -/
def execSrcReturn (s : State) : Out :=
  if s.tbm.srcActive = 2 && 64 ≤ s.tbm.primaryRun then .next (s.switchSrc 1 s.primary) else .next s

/-- FOLLOWER_LOCK (R67): 16 consecutive accepted ticks with |e| at most 4 ns. -/
def execFollowerLock (s : State) : Out :=
  if s.follower && 16 ≤ s.tbm.lockRun then .next { s with tbm := { s.tbm with locked := true } } else .next s

/-- ALIGN_ERR (R67): 4 consecutive accepted ticks with |e| above 4 ns. -/
def execAlignErr (s : State) : Out :=
  if 4 ≤ s.tbm.alignRun then
    .next (({ s with tbm := { s.tbm with alignRun := 0 } }.raise Reg.tbStatus 9).log 0x0105 [(s.tbm.phaseErr.signExtend 32).toNat])
  else .next s

/-- TICK_LOST (R69): every configured source has missed two consecutive ticks; holdover begins and the SRD is told. -/
def execTickLost (s : State) : Out :=
  let t := s.tbm
  let lost := (s.primary ≠ 0 || s.secondary ≠ 0) && (s.primary = 0 || 2 ≤ t.missPrimary) && (s.secondary = 0 || 2 ≤ t.missSecondary)
  if s.follower && t.running && !t.holdover && lost then
    let src := if t.srcActive = 2 then s.secondary else s.primary
    let s := { s with tbm := { t with holdover := true, srcActive := 0, acceptRun := 0 } }
    .next (((s.raise Reg.tbStatus 8).log 0x0103 [src]).detect 0x05 false 0xFF 0)
  else .next s

/-- HOLDOVER_EXIT (R71): 4 consecutive accepted ticks. -/
def execHoldoverExit (s : State) : Out :=
  if s.tbm.holdover && 4 ≤ s.tbm.acceptRun then
    .next { s with tbm := { s.tbm with holdover := false, srcActive := if 0 < s.tbm.primaryRun then 1 else 2 } }
  else .next s

/-! ### The timebase's part of a tick -/

/-- A tick is due: a start's first tick, or the end of a frame whose commit point has passed (R45, R58, R59, R508); none without main power. -/
def State.tickDue (s : State) : Bool :=
  !s.pwr.refLost && s.pins.mainOn && (s.tbm.startDue || (s.tbm.running && s.tbm.cpPassed && !s.tbm.stopPending))

/-- The profile that a tick applies, and whether an accepted word brought it (R53, R73). -/
def State.nextProfile (s : State) : BitVec 2 × Bool :=
  if s.tbm.startDue then (s.tbm.active, false)
  else match s.tbm.wordProfile with
    | some p => (p, true)
    | none => (s.tbm.next, false)

/-- The timebase's part of a tick: TB reaches the tick, FN and epoch count, the profile switches, the heartbeat toggles, the tick
word goes out (R45-R47, R53, R58, R63, R74, R482). -/
def State.tickTime (s : State) : State :=
  let s := s.advance s.tbm.tNext.toNat
  let start := s.tbm.startDue
  let preset := s.tbm.presetArmed
  let wrap := !start && !preset && s.tbm.fn = 0xFFFFFFFF
  let (fn, epoch) := s.nextCount
  let old := s.tbm.active
  let (prof, mism) := s.nextProfile
  let en := s.regBit Reg.tbRehearse 16
  let nxt := if start then prof else s.tbm.announced
  let s := { s with tbm := { s.tbm with
      fn := fn, epoch := epoch, heldEpoch := epoch, lastEpoch := s.tbm.epoch, tLast := s.tbm.tNext,
      tNext := s.tbm.tNext + BitVec.ofNat 64 (1000 * s.frameUs prof.toNat), running := true, startDue := false,
      cpPassed := false, ticksRun := min 2 (s.tbm.ticksRun + 1), active := prof, next := nxt, announced := nxt,
      pending := decide (nxt ≠ prof), presetArmed := false, wordProfile := none, mismatch := mism, secondaryOk := false,
      phaseStep := s.tbm.phaseNext, phaseLeft := s.tbm.phaseNext, phaseNext := 0 } }
  let s := if wrap then s.log 0x0101 [] else s
  let s := if start then s.log 0x0102 [] else s
  let s := if preset then
      let seen := fun (i : Item) => if i.eligible.isSome then { i with eligible := some fn } else i
      { (s.raise Reg.tbStatus 12).log 0x0107 [fn.toNat, epoch.toNat, b2n en] with items := s.items.map fun e => (e.1, seen e.2) }
    else s
  let s := if prof ≠ old then s.logProfile old prof (if mism then 2 else 0) else s
  let s := if s.saf.safe || !s.pins.vaux then s else { s with saf := { s.saf with hbA := !s.saf.hbA, hbB := s.saf.hbA } }
  let word := s.tickWord
  let s := { s with tbm := { s.tbm with wordOut := word, tickOut := if s.regBit Reg.tbCtrl 4 then some word else none } }
  let beacon := mkFlit 3 3 0 0 fn.toNat (leBytes 16 s.tbm.wordOut.toNat)
  s.each (List.range 8) fun s n => if (s.port n).state = PortState.up then s.sendFlits n [beacon] else s

end Sys2Proof.Machine
end

