-- ==== Sys2Proof/Machine/Grid.lean ====
section
/-! DEFINITION. The array grid: the matrix shot and its accumulation, the drain, fences of arrays and the switch of the roving
shadow check (chapter 4). -/

namespace Sys2Proof.Machine

/-! ### Tiles in tier F (R227) -/

/-- Code of row `r`, column `c` in an element area. -/
def codeAt (area : Blob) (f r c : Nat) : Nat :=
  match fmtBits f with
  | 4 => (leAt area (32 * r + c / 2) 1) / (if c % 2 = 0 then 1 else 16) % 16
  | 8 => leAt area (64 * r + c) 1
  | _ => leAt area (128 * r + 2 * c) 2

/-- Scale byte of row `r`, column `c` in a scale area, if the blk code carries one. -/
def scaleAt (area : Blob) (blk r c : Nat) : Option Nat :=
  if blk = 0 then none else some (leAt area (r * scalesPerRow blk + c / min 64 (blkLen blk)) 1)

/-- An operand of a shot: format, blk, zero point, place of its first tile and tiles between tile rows. -/
structure Operand where
  fmt : Nat
  blk : Nat
  zp : Nat
  place : Place
  ld : Nat
  trans : Bool
  lut : Nat → Nat

/-- Element of operand row `i`, reduction index `k` as it enters the multiplier (R121, R122, R123). Reads through the reference of
a bay that is not bound give zero (R301). -/
def State.elem (s : State) (x : Operand) (i k : Nat) : Val :=
  match x.place with
  | .unbound => .fin false 0 0
  | p =>
    let (t, r, c) := if x.trans then ((k / 64) * x.ld + i / 64, k % 64, i % 64) else ((i / 64) * x.ld + k / 64, i % 64, k % 64)
    let tile := s.readAt (p.plus (t * readySize x.fmt x.blk)) (readySize x.fmt x.blk)
    let sc := 64 * scalesPerRow x.blk
    expand x.fmt x.zp x.lut (codeAt (tile.drop (64 + sc)) x.fmt r c) (scaleAt ((tile.drop 64).take sc) x.blk r c)

/-- Key of an accumulator: the cell in row `r` and column `c` of a quad's tile (R110, R111). -/
def accKey (quad r c : Nat) : Nat := ((4 * quad + r / 16) * 16 + r % 16) * 64 + c

/-- An accumulator. -/
def State.accAt (s : State) (t key : Nat) : Word := Sparse.get (fun _ => 0) s.grid.acc (key * 4 + t)

/-- Changes an accumulator. -/
def State.setAcc (s : State) (t key : Nat) (w : Word) : State :=
  { s with grid := { s.grid with acc := Sparse.set (fun _ => 0) s.grid.acc (key * 4 + t) w } }

/-- ORs conditions into the nibble of an output tile of the operation on tile `t` (R130). -/
def State.orNibble (s : State) (t idx : Nat) (n : BitVec 4) : State :=
  let x := s.tile t
  s.setTile t { x with nibbles := Sparse.set (fun _ => 0) x.nibbles idx (Sparse.get (fun _ => 0) x.nibbles idx ||| n) }

/-- One binary32 addition of an exact product (R127, R128). -/
def accStep (acc : Word) (a b : Val) : Word × BitVec 4 :=
  let (p, n1) := a.mul b
  let (q, n2) := (f32v acc).add p
  let (w, o) := toF32o q
  (w, n1 ||| n2 ||| (if o then Nib.overflow else 0))

/-- The integer of an exact integer value. -/
def Val.toInt : Val → Int
  | .fin n m e => let v : Int := (m * 2 ^ e.toNat : Nat); if n then -v else v
  | _ => 0

/-- One int32 addition of an exact product (R129). -/
def accStepInt (wrap : Bool) (acc : Word) (a b : Val) : Word × BitVec 4 :=
  let y := acc.toInt + a.toInt * b.toInt
  let (c, o) := fitInt false 32 wrap y
  (BitVec.ofNat 32 c, if o then Nib.sat else 0)

/-- The operands of a shot with its binding. -/
def State.operandsOf (s : State) (d : Shot) (b : Option Binding) : Operand × Operand :=
  let table := s.readAt (s.resolve b d.lutRef) 32
  ({ fmt := d.aFmt, blk := d.aBlk, zp := d.aZp, place := s.resolve b d.aRef, ld := d.aLd, trans := d.transA, lut := fun _ => 0 },
   { fmt := d.bFmt, blk := d.bBlk, zp := d.bZp, place := s.resolve b d.bRef, ld := d.bLd, trans := d.transB,
     lut := fun i => leAt table (2 * i) 2 })

/-- Where the accumulator of output element (i, j) starts in a shot (R127, R129): its own value unless the shot opens the operation. A
column beyond n has no bias and starts from -0. -/
def State.accStart (s : State) (d : Shot) (bias : Blob) (key j : Nat) : Word :=
  if !d.first then s.accAt d.tile key
  else if d.isInt then 0
  else if d.initBias && decide (j < d.colsN) then toF32 (f32v (widenBf16 (leAt bias (2 * j) 2)))
  else 0x80000000

/-- One cell's products of a shot, in ascending k (R127-R129): `x` and `y` are its operands, zero beyond m or n (R121). -/
def Shot.cell (d : Shot) (start : Word) (x y : Nat → Val) : Word × BitVec 4 :=
  (List.range d.kLen).foldl (fun (acc : Word × BitVec 4) k =>
    let (w, n) := if d.isInt then accStepInt d.accWrap acc.1 (x k) (y k) else accStep acc.1 (x k) (y k)
    (w, acc.2 ||| n)) (start, 0)

/-- The accumulation of one shot over all 64 × 64 cells of each output tile (R121, R127-R130): operand row i of A is `x i`, operand row
j of B is `y j`, and those beyond m or n are zero operands. -/
def State.accumulateOn (s : State) (d : Shot) (bias : Blob) (x y : Nat → Nat → Val) : State :=
  let zero : Nat → Val := fun _ => .fin false 0 0
  s.each (List.range (64 * d.tilesM)) fun s i => s.each (List.range (64 * d.tilesN)) fun s j =>
    let key := accKey (d.quad (i / 64) (j / 64)) (i % 64) (j % 64)
    let (w, n) := d.cell (s.accStart d bias key j) (if i < d.rowsM then x i else zero) (if j < d.colsN then y j else zero)
    (s.setAcc d.tile key w).orNibble d.tile (i / 64 * d.tilesN + j / 64) n

/-- The accumulation of a shot of a sheet from its operands in tier F. -/
def State.accumulate (s : State) (d : Shot) (b : Option Binding) : State :=
  let (xa, xb) := s.operandsOf d b
  s.accumulateOn d (s.readAt (s.resolve b d.biasRef) (2 * d.colsN)) (s.elem xa) (s.elem xb)

/-- A run of tiles that a shot reads or writes: place of the first, tile rows, tiles per row, tiles between rows, size. -/
def tileRuns (p : Place) (rows cols ld size : Nat) : List (Place × Nat) :=
  (List.range rows).map fun i => (p.plus (i * ld * size), cols * size)

/-- The bytes that a shot accesses: (place, length, write) (R121, R260). -/
def State.shotAccesses (s : State) (d : Shot) (b : Option Binding) : List (Place × Nat × Bool) :=
  let kk := cdiv d.kLen 64
  let op := fun (ref ld : Nat) (fmt blk : Nat) (tr : Bool) (rows : Nat) =>
    (tileRuns (s.resolve b ref) (if tr then kk else rows) (if tr then rows else kk) ld (readySize fmt blk)).map fun e => (e.1, e.2, false)
  op d.aRef d.aLd d.aFmt d.aBlk d.transA d.tilesM ++ op d.bRef d.bLd d.bFmt d.bBlk d.transB d.tilesN ++
    (if d.bFmt = 3 then [(s.resolve b d.lutRef, 32, false)] else []) ++
    (if d.first && d.initBias then [(s.resolve b d.biasRef, 2 * d.colsN, false)] else []) ++
    (if d.last then (tileRuns (s.resolve b d.outRef) d.tilesM d.tilesN d.outLd (readySize d.outFmt d.outBlk)).map fun e => (e.1, e.2, true) else []) ++
    (if d.last && d.summaryEn then [(s.resolve b d.sumRef, 4, true)] else [])

/-- The collision rule of R105 for a shot that starts at a segment cycle: the tile's read-out has ended by its last cycle. -/
def AccTile.collides (t : AccTile) (d : Shot) (cyc : Nat) : Bool :=
  if d.first then !(t.state = .idle || (t.state = .drain && t.until_ ≤ cyc))
  else !(t.state = .acc && t.op = d.opTag)

/-- What a matrix shot does at its start (R105, R116, R121, R127-R129, R260): access check, collision check, accumulation. -/
def State.playMma (s : State) (o i : Nat) (x : Sheet) (c : Cue) : State :=
  let d := x.shot c
  let b := s.cueBinding o c
  if !((s.shotAccesses d b).all fun e => s.accessOk o e.2.2 e.1 e.2.1) then s.fenceSheet o 4
  else
    let t := s.tile d.tile
    let cyc := ((s.ctx o).startOf .a i).getD 0
    if t.collides d cyc then s.fenceSheet o 3
    else
      let runs := (s.shotAccesses d b).flatMap fun e => if e.2.2 then [] else e.1.run e.2.1
      let s := s.usePort (mkUse Rq.grid o false runs (s.cycleT o cyc) (s.cycleT o (cyc + d.kCycles)))
      let s := s.shotRead o c runs
      if (s.ctx o).state = .void then s else
      let s := s.setTile d.tile { t with state := .acc, op := d.opTag, shot := some (o, i),
                                         nibbles := if d.first then [] else t.nibbles }
      s.accumulate d b

/-- MMA (R116): a matrix shot starts at its cue. -/
def execMma (owner idx : Nat) (s : State) : Out :=
  .next (s.startCue owner .a idx (fun d => d.f 0 1 = 0 && d.op = 1) fun s x c => s.playMma owner idx x c)

/-! ### The drain -/

/-- Free spares in ascending physical number (R135). -/
def State.physState (s : State) (p : Nat) : Nat :=
  Sparse.get (fun p => if p % 672 < 640 then 0 else 1) s.grid.phys p

def State.freeSpares (s : State) : List Nat := (List.range 2688).filter fun p => s.physState p = 1

/-- Physical array of a logical one (R112). -/
def State.physOf (s : State) (g : Nat) : Nat := Sparse.get (fun g => g / 640 * 672 + g % 640) s.grid.map g

/-- The spare that shadows a logical array in the present frame (R135). -/
def State.shadowOf (s : State) (g : Nat) : Option Nat := s.freeSpares[(g + 2560 - s.grid.base % 2560) % 2560]?

/-- Comparisons run: chk_en is 1 (R137). -/
def State.checking (s : State) : Bool := s.regBit Reg.grdCtrl 0

/-- The accumulators of a tile that a drain reads out. -/
def State.readOut (s : State) (d : Shot) : Sparse Word :=
  (s.grid.acc.filter fun e => e.1 % 4 = d.tile).map fun e => (e.1 / 4, e.2)

/-- A tile enters DRAIN (R124): its accumulators are read out. `lane` marks a step of the insert lane. -/
def State.beginDrain (s : State) (seg owner : Nat) (d : Shot) (b : Option Binding) (bay : Option (Nat × Nat)) (endCyc : Nat) (lane : Bool) : State :=
  let t := s.tile d.tile
  let quads := (d.outTiles.map fun e => d.quad e.1 e.2)
  let shadow := if s.checking then
      quads.flatMap fun q => (List.range 4).filterMap fun r => (s.shadowOf (4 * q + r)).map fun sp => (4 * q + r, sp)
    else []
  let s := s.setTile d.tile { t with state := .drain, until_ := endCyc + 64, shot := none }
  { s with grid := { s.grid with
      drains := s.grid.drains ++ [{ tile := d.tile, owner := owner, seg := seg, shot := d, binding := b, bay := bay, nibbles := t.nibbles,
                                    acc := s.readOut d, shadow := shadow, endCyc := endCyc + 88, startTb := (s.ctx seg).startTb,
                                    fn := s.tbm.fn, lane := lane }] } }

/-- The segment cycle that a drain counts in, as far as its segment goes on: later it is past its end. -/
def State.drainCycle (s : State) (dr : Drain) : Nat :=
  let x := s.ctx dr.seg
  if x.begun && x.startTb = dr.startTb then s.cycleAt dr.seg s.now else dr.endCyc

/-- What GRD_TILES shows of a tile (R105, R124, R139): it is in ACC until its last shot ends, in DRAIN for the 64 cycles of its
read-out, and IDLE after them, while the output is still to be written. -/
def State.tileNow (s : State) (t : Nat) : TileState :=
  if (s.tile t).state ≠ .drain then (s.tile t).state
  else match (s.grid.drains.filter fun (d : Drain) => d.tile = t).getLast? with
    | none => .idle
    | some dr =>
      let c := s.drainCycle dr
      if c + 88 < dr.endCyc then .acc else if c + 24 < dr.endCyc then .drain else .idle

/-- SHOT_END (R124): a shot with last = 1 ends and its tile drains. -/
def execShotEnd (owner idx : Nat) (s : State) : Out :=
  match s.playing owner with
  | none => .next s
  | some x =>
    match x.cue? .a idx with
    | none => .next s
    | some c =>
      let d := x.shot c
      let t := s.tile d.tile
      if t.state = .acc && t.shot = some (owner, idx) && d.last then
        let endCyc := ((s.ctx owner).startOf .a idx).getD 0 + d.kCycles
        let s := s.advance (s.cycleTb owner endCyc)
        .next (s.beginDrain owner (s.workOwner owner c) d (s.cueBinding owner c) (s.cueBay owner c) endCyc false)
      else .next s

/-- The roundings of the columns of one drained row: one draw for each element under SR-n, in ascending column order. -/
def State.rowRnds (s : State) (o l : Nat) (d : Shot) (cols : Nat) : List Rnd × State :=
  if !d.stoch then (List.replicate cols .rne, s)
  else (List.range cols).foldl (fun (a : List Rnd × State) _ =>
    let (r, s) := a.2.drawLane o l d.srN
    (a.1 ++ [.sr d.srN r], s)) ([], s)

/-- The result of draining one row of one output tile: each column's code, the bits it raised, its scale byte and the meter's
pair. -/
structure DrainRow where
  codes : List (Nat × BitVec 4)
  scales : List Nat
  meter : List (Word × Word)

/-- Converts a run of columns that share a scale. -/
def drainBlock (d : Shot) (vs : List (Word × Rnd)) : DrainRow :=
  let (codes, sc) := convertBlock d.outFmt (d.outBlk ≠ 0) d.headroom (vs.map fun e => (f32v e.1, e.2)) 0 d.ieee d.outWrap
  { codes := codes, scales := codes.map fun _ => sc,
    meter := (vs.zip codes).map fun e =>
      (e.1.1, toF32 (expand d.outFmt 0 (fun _ => 0) e.2.1 (if d.outBlk = 0 then none else some sc))) }

/-- An empty row. -/
def DrainRow.empty : DrainRow := { codes := [], scales := [], meter := [] }

/-- Joins the rows of successive blocks. -/
def DrainRow.join (a b : DrainRow) : DrainRow :=
  { codes := a.codes ++ b.codes, scales := a.scales ++ b.scales, meter := a.meter ++ b.meter }

/-- The bits that a row's elements raised. -/
def DrainRow.nib (x : DrainRow) : BitVec 4 := x.codes.foldl (fun a c => a ||| c.2) 0

/-- An int32 element drained: the rescale of R179. -/
def rescale (d : Shot) (acc : Word) : Nat × BitVec 4 :=
  let t := acc.toInt * d.mult
  let t := if 0 < d.shiftS then t + 2 ^ (d.shiftS - 1) else t
  let y := t / 2 ^ d.shiftS + d.outZp
  let (c, o) := fitInt (fmtUint d.outFmt) (fmtBits d.outFmt) d.outWrap y
  (c, if o then Nib.sat else 0)

/-- The meter's pair of an int32 element (R133, R182): the accumulator as the wide value and the code's value, less the zero point, as the
narrow one, each rounded to binary32 (DEDUCED, log entry 57: the spec names no conversion). -/
def rescalePair (d : Shot) (acc : Word) : Word × Word :=
  (toF32 (.ofInt acc.toInt), toF32 (expand d.outFmt d.outZp (fun _ => 0) (rescale d acc).1 none))

/-- Accumulator words of a row of an output tile. -/
def Drain.row (dr : Drain) (i j r : Nat) : List Word :=
  let d : Shot := dr.shot
  (List.range (d.validCols j)).map fun c => Sparse.get (fun _ => 0) dr.acc (accKey (d.quad i j) r c)

/-- Cuts a row of joined tiles at their borders. -/
def DrainRow.cut (x : DrainRow) : List Nat → List DrainRow
  | [] => []
  | n :: ns =>
    { codes := x.codes.take n, scales := x.scales.take n, meter := x.meter.take n } ::
      DrainRow.cut { x with codes := x.codes.drop n, scales := x.scales.drop n, meter := x.meter.drop n } ns

/-- The roundings of a row of several output tiles, tile by tile. -/
def State.rowsRnds (s : State) (dr : Drain) (i : Nat) (js : List Nat) (r : Nat) : List (List Rnd) × State :=
  let d : Shot := dr.shot
  js.foldl (fun (a : List (List Rnd) × State) j =>
    let (rn, s) := a.2.rowRnds dr.owner (laneOf (d.quad i j) r) d (d.validCols j)
    (a.1 ++ [rn], s)) ([], s)

/-- Drains one row of output tiles (i, j) for j in `js`: one tile, or for B128 the pair of tiles that share their scales (R132,
R159, R177). -/
def State.drainRow (s : State) (dr : Drain) (i : Nat) (js : List Nat) (r : Nat) : List DrainRow × State :=
  let d : Shot := dr.shot
  let rows := js.map fun j => dr.row i j r
  if d.isInt then
    (rows.map fun ws => { codes := ws.map (rescale d), scales := [], meter := ws.map (rescalePair d) }, s)
  else if d.outFmt = 11 then
    (rows.map fun ws =>
      { codes := ws.map fun w => ((pair16 w).1 + 65536 * (pair16 w).2, 0), scales := [],
        meter := ws.map fun w => (w, toF32 (((fpBF16.value (pair16 w).1).add (fpBF16.value (pair16 w).2)).1)) }, s)
  else
    let (rns, s) := s.rowsRnds dr i js r
    let vss := (rows.zip rns).map fun e => e.1.zip e.2
    if d.outBlk = 4 then ((drainBlock d vss.flatten).cut (rows.map List.length), s)
    else
      let g := if d.outBlk = 0 then 64 else blkLen d.outBlk
      (vss.map fun vs =>
        (chunks g (cdiv vs.length g) vs).foldl (fun (a : DrainRow) b => a.join (drainBlock d b)) DrainRow.empty, s)

/-- Writes one row of codes and scales into a tile (R227); elements beyond the valid columns stay as they were. -/
def State.writeRow (s : State) (p : Place) (f blk r : Nat) (codes scales : List Nat) : State :=
  let base := 64 + 64 * scalesPerRow blk
  let s := (codes.zipIdx).foldl (fun (s : State) (e : Nat × Nat) =>
    match fmtBits f with
    | 4 =>
      let q := p.plus (base + 32 * r + e.2 / 2)
      let old := leNat (s.readAt q 1)
      s.writeAt q (leBytes 1 (if e.2 % 2 = 0 then old / 16 * 16 + e.1 else old % 16 + 16 * e.1))
    | 8 => s.writeAt (p.plus (base + 64 * r + e.2)) (leBytes 1 e.1)
    | _ =>
      if f = 11 then
        (s.writeAt (p.plus (64 + 128 * r + 2 * e.2)) (leBytes 2 e.1)).writeAt (p.plus (64 + 8192 + 128 * r + 2 * e.2)) (leBytes 2 (e.1 / 65536))
      else s.writeAt (p.plus (base + 128 * r + 2 * e.2)) (leBytes 2 e.1)) s
  if blk = 0 then s
  else (scales.zipIdx).foldl (fun (s : State) e =>
    s.writeAt (p.plus (64 + r * scalesPerRow blk + e.2 / min 64 (blkLen blk))) (leBytes 1 e.1)) s

/-- The tag line of a tile (Table 8.3). -/
def tagLine (fmt blk rows cols flags handle index fn nibble mse nf : Nat) : Blob :=
  leBytes 1 (fmt + 16 * blk) ++ leBytes 1 rows ++ leBytes 1 cols ++ leBytes 1 flags ++ leBytes 4 handle ++ leBytes 4 index ++
    leBytes 4 fn ++ List.replicate 16 0 ++ leBytes 1 nibble ++ [0] ++ leBytes 2 mse ++ leBytes 4 nf ++ List.replicate 24 0

/-- The meter's blocks of a row: a row for blk NONE, else the scale blocks, a B128 block as its half in the tile (R182). -/
def meterBlocks (blk : Nat) (ps : List (Word × Word)) : List (List (Word × Word)) :=
  let g := if blk = 0 then 64 else min 64 (blkLen blk)
  chunks g (cdiv ps.length g) ps

/-- Adds metered blocks to an owner's dailies (R183); a NaN mse counts as the largest. -/
def State.tallyMeter (s : State) (o : Nat) (ms : List (Word × Nat × Word)) : State :=
  ms.foldl (fun (s : State) m =>
    let t := s.tallyOf o
    s.setTally o { t with meterS := (fadd t.meterS m.1).1, meterPairs := (fadd t.meterPairs (f32OfNat m.2.1)).1,
                          meterMax := mseMax t.meterMax m.2.2 }) s

/-- Counts an output tile's nibble (R131). -/
def State.countNibble (s : State) (o : Nat) (n : BitVec 4) : State :=
  let t := s.tallyOf o
  let bits := (List.range 4).map fun i => b2n (bitOf n i)
  let s := s.setTally o { t with exc := (t.exc.zip bits).map fun (e : Nat × Nat) => e.1 + e.2 }
  let s := { s with grid := { s.grid with excCnt := (s.grid.excCnt.zip bits).map fun (e : Word × Nat) => satAdd 32 e.1 e.2 } }
  s.setReg Reg.grdExcStatus (s.reg Reg.grdExcStatus ||| n.setWidth 32)

/-- One output tile's rows, as drained, written with its tag line, its meter and its nibble (R130-R133). Answers the nibble. -/
def State.writeTile (s : State) (dr : Drain) (i j : Nat) (rows : List DrainRow) : State × BitVec 4 :=
  let d : Shot := dr.shot
  let p := (s.resolve dr.binding d.outRef).plus ((i * d.outLd + j) * readySize d.outFmt d.outBlk)
  let s := (rows.zipIdx).foldl (fun (s : State) (e : DrainRow × Nat) => s.writeRow p d.outFmt d.outBlk e.2 (e.1.codes.map fun c => c.1) e.1.scales) s
  let nib := rows.foldl (fun a row => a ||| row.nib) (Sparse.get (fun _ => 0) dr.nibbles (i * d.tilesN + j))
  let met := if d.meter then (rows.flatMap fun row => meterBlocks d.outBlk row.meter).map fun b => (meterBlock b, b.length) else []
  let mse := met.foldl (fun a m => mseMax a m.1.2.2.2) (0 : Word)
  let nf := (met.map fun m => m.1.2.2.1).sum
  let s := s.writeAt p (tagLine d.outFmt d.outBlk (d.validRows i) (d.validCols j) 1 0 0 s.fnNat nib.toNat (bf16Of mse) nf)
  let s := s.tallyMeter dr.owner (met.map fun m => (m.1.1, m.2 - m.1.2.2.1, m.1.2.2.2))
  (s.countNibble dr.owner nib, nib)

/-- Drains the output tiles (i, j) for j in `js`, row by row. Answers their nibbles. -/
def State.drainTiles (s : State) (dr : Drain) (i : Nat) (js : List Nat) : State × List (BitVec 4) :=
  let d : Shot := dr.shot
  let (rows, s) := (List.range (d.validRows i)).foldl (fun (a : List (List DrainRow) × State) r =>
    let (x, s) := a.2.drainRow dr i js r
    (a.1 ++ [x], s)) ([], s)
  (js.zipIdx).foldl (fun (a : State × List (BitVec 4)) e =>
    let (s, n) := a.1.writeTile dr i e.1 (rows.map fun row => row.getD e.2 DrainRow.empty)
    (s, a.2 ++ [n])) (s, [])

/-- The groups of output tiles that drain together. -/
def Shot.drainGroups (d : Shot) : List (Nat × List Nat) :=
  (List.range d.tilesM).flatMap fun i =>
    if d.outBlk = 4 && !d.isInt then
      (List.range (cdiv d.tilesN 2)).map fun h => (i, if 2 * h + 1 < d.tilesN then [2 * h, 2 * h + 1] else [2 * h])
    else (List.range d.tilesN).map fun j => (i, [j])

/-- Flags a bay for retake (R103): a bay of partition `q` by its number. A flag raised in the house segment, where the retakes
themselves play, is kept there as partition × 64 + bay. -/
def State.flagBay (s : State) (seg : Nat) (bay : Option (Nat × Nat)) : State :=
  match bay with
  | some (q, b) =>
    let (o, n) := if seg = 32 then (32, q * 64 + b) else (q, b)
    let x := s.ctx o
    s.setCtx o { x with flagged := if x.flagged.contains n then x.flagged else x.flagged ++ [n] }
  | none => s

/-- A drain flags its bay (R103); where its frame has ended meanwhile, it flags the bay among those whose retakes are still to be
assigned (R125). -/
def State.flagDrain (s : State) (dr : Drain) : State :=
  if dr.fn = s.tbm.fn then s.flagBay dr.seg dr.bay
  else match dr.bay with
    | some (q, b) =>
      { s with player := { s.player with jobs := s.player.jobs.map fun (j : RetakeJob) =>
          if j.owner = q && j.binding.bay = b && j.alternate = decide (dr.seg = 32) then { j with flagged := true } else j } }
    | none => s

/-- A drain's output tiles, its summary word and its retake flag (R103, R130-R133). -/
def State.drainOut (s : State) (dr : Drain) : State :=
  let d : Shot := dr.shot
  let (s, nibs) := d.drainGroups.foldl (fun (a : State × List (BitVec 4)) e =>
    let (s, ns) := a.1.drainTiles dr e.1 e.2
    (s, a.2 ++ ns)) (s, [])
  let all := nibs.foldl (fun a n => a ||| n) (0 : BitVec 4)
  let cnt := (nibs.filter fun n => n ≠ 0).length
  let s := if d.summaryEn then s.writeAt (s.resolve dr.binding d.sumRef) (leBytes 4 (all.toNat + 65536 * min cnt 0xFFFF)) else s
  if d.retakeWatch && (all &&& (Nib.invalid ||| Nib.overflow)) ≠ 0 then s.flagDrain dr else s

/-- A step of the insert lane drains (R314, R316): its row, with its scales and its nibble, is held for the next step or the completion.
Its meter and its nibble count as a sheet's do (R131, R183). -/
def State.laneOut (s : State) (dr : Drain) : State :=
  let d : Shot := dr.shot
  let (rows, s) := s.drainRow dr 0 [0] 0
  let row := rows.headD DrainRow.empty
  let nib := row.nib ||| Sparse.get (fun _ => 0) dr.nibbles 0
  let met := if d.meter then (meterBlocks d.outBlk row.meter).map fun b => (meterBlock b, b.length) else []
  let s := s.tallyMeter dr.owner (met.map fun m => (m.1.1, m.2 - m.1.2.2.1, m.1.2.2.2))
  let s := s.countNibble dr.owner nib
  -- a program that has ended meanwhile takes no row
  if s.ins.step = 0 then s else { s with ins := { s.ins with row := some (row.codes.map (·.1), row.scales, nib) } }

/-- The tile of a drain is IDLE unless a later operation has taken it meanwhile (R105, R124). -/
def State.idleTile (s : State) (t : Nat) : State :=
  let x := s.tile t
  if x.state = .drain && !(s.grid.drains.any fun (d : Drain) => d.tile = t) then s.setTile t { x with state := .idle } else s

/-- Runs of tier F bytes that a drain writes: its output tiles and its summary word. -/
def State.drainRuns (s : State) (dr : Drain) : List (Nat × Nat) :=
  let d : Shot := dr.shot
  let run := fun (p : Place) (n : Nat) => match p with | .at_ a | .inSlot a _ => [(a, n)] | .unbound => []
  let p := s.resolve dr.binding d.outRef
  let z := readySize d.outFmt d.outBlk
  if dr.lane then [] else
  (d.drainGroups.flatMap fun e => e.2.flatMap fun j => run (p.plus ((e.1 * d.outLd + j) * z)) z) ++
    (if d.summaryEn then run (s.resolve dr.binding d.sumRef) 4 else [])

/-- Ends a drain: its output, and the comparison by the spares that shadow its arrays (R124, R136). `differs` names the logical arrays
whose shadowing spare saw a difference. -/
def State.endDrain (s : State) (dr : Drain) (differs : List Nat) : State :=
  let s := { s with grid := { s.grid with drains := s.grid.drains.erase dr } }.idleTile dr.tile
  let t := s.cycleT dr.seg dr.endCyc
  let s := if dr.lane then s.laneOut dr else (s.usePort (s.writeUse Rq.drain dr.seg t (s.drainRuns dr))).drainOut dr
  if s.checking then
    let gs := dr.shadow.map (·.1)
    { s with grid := { s.grid with
        compared := s.grid.compared ++ gs.filter fun g => !s.grid.compared.contains g,
        mismatches := s.grid.mismatches ++ dr.shadow.filter fun e => differs.contains e.1 } }
  else s

/-- The end of a drain is due at its 88th cycle after its last shot (R124), while its segment runs. -/
def State.toDrainEnd (s : State) (dr : Drain) : State :=
  let x := s.ctx dr.seg
  if x.begun && x.startTb = dr.startTb then s.advance (s.cycleTb dr.seg dr.endCyc) else s

/-- Stores of vector units, on port 0, that reach a word in the cycle in which the drain writes it on port 1 (R253, R262): visible
already, or due at that cycle. Their byte addresses. -/
def State.drainHits (s : State) (dr : Drain) : List Nat :=
  let due := s.vec.units.flatMap fun (x : VUnit) => x.due.filterMap fun e =>
    match e.2 with | .mem a bs => if x.owner = dr.seg && e.1 = dr.endCyc then some (a, bs.length) else none | _ => none
  let seen := s.vec.stores.filterMap fun e => if e.1 = dr.seg && e.2.1 = dr.endCyc then some e.2.2 else none
  let runs := s.drainRuns dr
  ((seen ++ due).filter fun w => runs.any fun r => wordsMeet w.1 w.2 r.1 r.2).map (·.1)

/-! ### Fences and the check's switch -/

/-- Changes a physical array's state. -/
def State.setPhys (s : State) (p st : Nat) : State :=
  { s with grid := { s.grid with phys := Sparse.set (fun p => if p % 672 < 640 then 0 else 1) s.grid.phys p st } }

/-- A physical array turns grey (R113). -/
def State.greyArray (s : State) (p : Nat) (requested : Bool) : State :=
  if s.physState p = 2 then s
  else
    let s := s.setPhys p 2
    { s with grid := { s.grid with greyCnt := s.grid.greyCnt + 1 } }.countFence 0 p 0xFF requested

/-- ARRAY_FENCE_REQ (R113, R115): fences a logical array: its physical array shows grey, and the replacement takes over at the next
tick. -/
def execArrayFenceReq (logical : Nat) (s : State) : Out :=
  if 2559 < logical ∨ s.freeSpares.isEmpty then .next (s.raise Reg.grdStatus 4)
  else
    let s := s.greyArray (s.physOf logical) true
    .next { s with grid := { s.grid with fences := if s.grid.fences.contains logical then s.grid.fences else s.grid.fences ++ [logical] } }

/-- CHECK_DISABLE (R137, R139): chk_en written 0; accepted only while no partition is active, and logged. Comparisons stop. -/
def execCheckDisable (s : State) : Out :=
  if s.locked .grd then .next s
  else if s.anyActive then .next (s.raise Reg.grdStatus 4)
  else if s.checking then .next ((s.setFld Reg.grdCtrl 0 1 0).log 0x0304 [0])
  else .next s

end Sys2Proof.Machine
end

