-- ==== Sys2Proof/Machine/Sheets.lean ====
section
/-! DEFINITION. Sheet images and their load checks (R79-R91 and the checks of the tracks' chapters), the sheet store's registers,
and the director's commits (R21, R53, R92, R102). -/

namespace Sys2Proof.Machine

/-! ### The image (Table 3.1) -/

/-- Byte offsets and sizes of the parts of an image, in order: A, V, M, L cues, bays, retake table, descriptors. -/
def imageParts (img : Blob) : List (Nat × Nat) :=
  (List.range 4).map (fun i => (leAt img (0x34 + 4 * i) 4, 16 * leAt img (0x24 + 4 * i) 4)) ++
    [(leAt img 0x44 4, 16 * leAt img 0x21 1), (leAt img 0x48 4, 64), (leAt img 0x4C 4, 64 * leAt img 0x50 4)]

/-- The parts stand in order, each on a 64-byte boundary, from a position on; answers whether the last ends at or before `lim`. -/
def partsOk (lim : Nat) : Nat → List (Nat × Nat) → Bool
  | pos, [] => decide (pos ≤ lim)
  | pos, p :: ps => p.1 % 64 = 0 && decide (pos ≤ p.1) && partsOk lim (p.1 + p.2) ps

/-- FORMAT for the header (R79, R84 step 2). -/
def headerOk (img : Blob) (len : Nat) : Bool :=
  let kind := leAt img 6 2
  let nret := leAt img 0x22 1
  decide (320 ≤ len) && len % 64 = 0 && leAt img 0 4 = 0x5448534B && leAt img 4 2 = 1 && decide (kind ≤ 3) && leAt img 8 4 = len &&
    decide (leAt img 0x0E 1 ≤ 3) && decide (leAt img 0x0F 1 ≤ 3) &&
    decide (10 ≤ leAt img 0x14 2) && decide (leAt img 0x14 2 ≤ 250) && decide (875 ≤ leAt img 0x16 2) && decide (leAt img 0x16 2 ≤ 1750) &&
    decide (leAt img 0x20 1 ≤ 1) && decide (leAt img 0x21 1 ≤ 63) && decide (nret ≤ 64) && (nret = 0 || kind = 2) &&
    leAt img 0x23 1 = 0 && leAt img 0x54 12 = 0 && leAt img 0xC0 64 = 0 && partsOk (len - 64) 256 (imageParts img)

/-- Reads an image into a sheet. -/
def parseSheet (img : Blob) (len : Nat) : Sheet :=
  let cues := fun i : Nat => (List.range (leAt img (0x24 + 4 * i) 4)).map fun j =>
    BitVec.ofNat 128 (leAt img (leAt img (0x34 + 4 * i) 4 + 16 * j) 16)
  { kind := leAt img 6 2, size := len, sheetId := BitVec.ofNat 16 (leAt img 0x0C 2), profile := BitVec.ofNat 2 (leAt img 0x0E 1),
    cadence := BitVec.ofNat 2 (leAt img 0x0F 1), segmentNs := leAt img 0x10 4, guardPm := leAt img 0x14 2, fitMhz := leAt img 0x16 2,
    spanCycles := leAt img 0x18 4, posLo := leAt img 0x1C 2, posHi := leAt img 0x1E 2, resident := decide (leAt img 0x20 1 = 1),
    bays := (List.range (leAt img 0x21 1)).map fun j => BitVec.ofNat 128 (leAt img (leAt img 0x44 4 + 16 * j) 16),
    retake := (List.range (leAt img 0x22 1)).map fun j => leAt img (leAt img 0x48 4 + j) 1,
    cues := (List.range 4).map cues,
    descs := (List.range (leAt img 0x50 4)).map fun j => BitVec.ofNat 512 (leAt img (leAt img 0x4C 4 + 64 * j) 64),
    digest := digestOf (slice img (len - 64) 64) }

/-! ### The window and the resident layers (R237, R238) -/

/-- First byte of layer buffer `i`: the four buffers stand in the window in the order forward 0, 1, reverse 0, 1. -/
def State.bufBase (s : State) (i : Nat) : Nat := (s.tiers.winBase + i * (s.tiers.winBanks)) * 16777216

/-- Engine-ready bytes of a plate part. -/
def PlatePart.readyBytes (p : PlatePart) : Nat := p.tiles * readySize p.fmt p.blk

/-- The layers that a tier F reference (64-byte units) of a sheet reads, when it plays at reel positions `lo` to `hi`. -/
def State.layersAt (s : State) (lo hi ref : Nat) : List Nat :=
  match s.plate.plate with
  | none => []
  | some p =>
    let a := 64 * ref
    if p.resident then
      let base := s.tiers.resBase.1 * 16777216
      (List.range p.layers.length).filter fun l =>
        let b := base + ((p.layers.take l).map PlatePart.readyBytes).sum
        decide (b ≤ a) && decide (a < b + (p.layers.getD l p.embed).readyBytes)
    else
      let n := 16777216 * s.tiers.winBanks
      let ps := (List.range (hi + 1 - lo)).map fun i => lo + i
      if s.bufBase 0 ≤ a ∧ a < s.bufBase 0 + 2 * n then ps
      else if s.bufBase 2 ≤ a ∧ a < s.bufBase 2 + 2 * n then ps.map fun q => p.layers.length - 1 - q
      else []

/-! ### FORMAT of the descriptors -/

/-- blk codes 0 to 4 exist (R156). -/
def blkOk (b : Nat) : Bool := decide (b ≤ 4)

/-- A zero point of an operand (R147). -/
def zpOk (fmt zp : Nat) : Bool := if fmt = 5 then true else if fmt = 1 then decide (zp ≤ 15) else zp = 0

/-- Greatest k_len of a shot (Table 4.6). -/
def kMax (d : Shot) : Nat :=
  match max (fmtClass d.aFmt) (fmtClass d.bFmt) with
  | 0 => 2048
  | 1 => 1024
  | _ => 256

/-- The drain is allowed by Table 4.8, R154, R158 and R180. -/
def drainOk (d : Shot) : Bool :=
  let f := d.outFmt
  let k := d.outBlk
  (if d.isInt then (f = 0 || f = 1 || f = 4 || f = 5 || f = 10) && k = 0
   else if f = 11 then k = 0
   else if f = 2 then k ≠ 0 && blkOk k
   else (f = 6 || f = 7 || f = 8 || f = 9) && blkOk k) &&
  decide (d.shiftS ≤ 62) && fld d.drain 30 2 = 0 &&
  (if f = 0 || f = 4 || f = 10 then d.outZp = 0 else if f = 1 then decide (d.outZp ≤ 15) else true)
where
  fld (w lo len : Nat) : Nat := w / 2 ^ lo % 2 ^ len

/-- An A-track shot descriptor on its own (R116-R120, R140, R147, R180, R545). -/
def aShotOk (d : Shot) : Bool :=
  d.f 0 1 = 0 && d.op = 1 && fld d 26 6 = 0 && bitOf d 103 = false && bitOf d 111 = false &&
    decide (d.aFmt ≤ 10) && d.aFmt ≠ 3 && decide (d.bFmt ≤ 10) && blkOk d.aBlk && blkOk d.bBlk &&
    zpOk d.aFmt d.aZp && zpOk d.bFmt d.bZp &&
    decide (1 ≤ d.kLen) && decide (d.kLen ≤ kMax d) && (d.last || d.kLen % 64 = 0) &&
    decide (1 ≤ d.rowsM) && decide (1 ≤ d.colsN) && decide (d.tilesM * d.tilesN ≤ 640) &&
    (d.bFmt = 3 || d.lutRef = 0) && (d.initBias || d.biasRef = 0) && (d.summaryEn || d.sumRef = 0) &&
    drainOk d && decide (d.qBase ≤ 639) && d.f 0x38 8 = 0

/-- Two shots carry the fields that all shots of one operation share (R120). -/
def sameOperation (a b : Shot) : Bool :=
  a.rowsM = b.rowsM && a.colsN = b.colsN && a.f 0x0C 4 = b.f 0x0C 4 && a.accWrap = b.accWrap && a.drain = b.drain && a.qBase = b.qBase

/-- Fields of a V-track shot descriptor (Table 7.9). -/
def Shot.units (d : Shot) : Nat := d.f 4 4
def Shot.prog (d : Shot) : Nat := d.f 8 1
def Shot.katPart (d : Shot) : Nat := d.f 9 1
def Shot.vCycles (d : Shot) : Nat := d.f 0x0A 2
def Shot.pairs (d : Shot) : Nat := d.f 0x0C 4
def Shot.progDigest (d : Shot) : Nat := d.f 0x10 16
def Shot.arg (d : Shot) (i : Nat) : Nat := d.f (0x20 + 4 * i) 4

/-- Units that a V cue occupies: all 32 for KAT (R210). -/
def Shot.unitList (d : Shot) : List Nat := (List.range 32).filter fun u => d.op = 2 || bitOf d (32 + u)

/-- A V-track shot descriptor on its own (R209, R214, R545), with its program (R210). -/
def State.vShotOk (s : State) (d : Shot) : Bool :=
  d.f 0 1 = 1 && fld d 17 15 = 0 &&
    (match d.op with
     | 1 => decide (d.prog ≤ 63) && d.katPart = 0 && d.pairs = 0 &&
        (match Sparse.get (fun _ => none) s.vec.slots d.prog with
         | some p => fld p.digest 0 128 = d.progDigest
         | none => false)
     | 2 => d.units = 0 && d.prog = 0 && decide (d.katPart ≤ 11) && d.pairs = 0 && d.progDigest = 0
     | 3 => d.prog = 0 && d.katPart = 0 && decide (128 ≤ d.pairs) && d.progDigest = 0
     | _ => false)

/-- Fields of an M-track shot descriptor (Table 8.5). -/
def Shot.mReverse (d : Shot) : Bool := bitOf d 16
def Shot.mExport (d : Shot) : Bool := bitOf d 17
def Shot.mMx (d : Shot) : Bool := bitOf d 18
def Shot.mFirst (d : Shot) : Nat := d.f 4 4
def Shot.mCount (d : Shot) : Nat := d.f 8 4
def Shot.mStacks (d : Shot) : Nat := fld d 96 12
def Shot.mBay (d : Shot) : Nat := d.f 0x0E 1
def Shot.mRef (d : Shot) : Nat := d.f 0x10 4
def Shot.mLen (d : Shot) : Nat := d.f 0x14 4
def Shot.mArg (d : Shot) : Nat := d.f 0x18 8

/-- An M-track shot descriptor on its own (R234, R545). -/
def mShotOk (d : Shot) : Bool :=
  d.f 0 1 = 2 && decide (1 ≤ d.op) && decide (d.op ≤ 7) && fld d 19 13 = 0 && fld d 108 4 = 0 && decide (d.mBay ≤ 63) &&
    d.f 0x0F 1 = 0 && (if d.op = 5 then true else if d.op = 6 then d.mArg = 1 || d.mArg = 2 else d.mArg = 0) &&
    d.f 0x20 32 = 0

/-- An L-track shot descriptor on its own (R427, R431, R545). -/
def lShotOk (d : Shot) : Bool :=
  d.f 0 1 = 3 && decide (1 ≤ d.lOp) && decide (d.lOp ≤ 4) && bitOf d 19 = false && bitOf d 23 = false && fld d 26 6 = 0 &&
    (d.transmits || d.portOut = 0) && (d.lOp ≠ 1 || d.portIn = 0) && (d.lOp = 3 || !d.lLocal) && (d.lOp = 4 || !d.lOrigin) &&
    decide (d.lBay ≤ 63) && d.f 7 1 = 0 && (if d.lOp = 4 then d.lBytes = 0 else decide (1 ≤ d.lBytes)) &&
    (d.lOp = 4 || d.lTint = 0) && d.f 0x14 44 = 0

/-- Formats of the plate's weights, of a tint's parts, and of activations (Table 5.11). -/
def plateFmt (f : Nat) : Bool := decide (f ≤ 9)
def tintFmt (f : Nat) : Bool := f = 6 || f = 8 || f = 9
def activationFmt (f : Nat) : Bool := f = 0 || f = 2 || f = 4 || f = 5 || f = 6 || f = 7 || f = 8 || f = 9 || f = 10

/-- A reference of a sheet lies in the layer window, the head or the resident layers of the loaded plate (R237, R238). -/
def State.inPlate (s : State) (ref : Nat) : Bool :=
  match s.plate.plate with
  | none => false
  | some p =>
    let b := ref / 262144
    let within := fun lo n : Nat => decide (lo ≤ b) && decide (b < lo + n)
    within s.tiers.headBase s.tiers.headBanks ||
      (if p.resident then within s.tiers.resBase.1 (cdiv (p.layers.map PlatePart.readyBytes).sum 16777216)
       else within s.tiers.winBase (4 * s.tiers.winBanks))

/-- The format of an operand is one of the row of its tensor (R162): a slot-relative reference is a part of a tint, and one in the plate's
regions is the plate's; of any other the spec does not tell the sheet's loader what it is. -/
def State.tensorOk (s : State) (ref fmt : Nat) : Bool :=
  if 2147483648 ≤ ref then tintFmt fmt else if s.inPlate ref then plateFmt fmt else true

/-- A shot descriptor by its track code (R83, R84 step 6). -/
def State.shotOk (s : State) (d : Shot) : Bool :=
  match d.f 0 1 with
  | 0 => aShotOk d && s.tensorOk d.aRef d.aFmt && s.tensorOk d.bRef d.bFmt
  | 1 => s.vShotOk d
  | 2 => mShotOk d
  | 3 => lShotOk d
  | _ => false

/-- Tier F references that a descriptor gives as fields. -/
def Shot.refs (d : Shot) : List Nat :=
  match d.f 0 1 with
  | 0 => [d.aRef, d.bRef, d.outRef, d.lutRef, d.biasRef, d.sumRef]
  | 1 => if d.op = 2 then [d.arg 0] else []
  | 2 => [d.mRef]
  | 3 => if d.lOp = 1 ∨ d.lOp = 2 ∨ d.lLocal then [d.lRef] else []
  | _ => []

/-- A cue in the list of track code `t` (R80, R301). -/
def Sheet.cueOk (x : Sheet) (t : Nat) (c : Cue) : Bool :=
  let d := x.shot c
  c.track = t && decide (c.desc < x.descs.length) && decide (1 ≤ c.dur) && c.variant ≠ 3 && fld c 70 2 = 0 && fld c 96 16 = 0 &&
    (t ≠ 3 || c.anchor) && (!c.retake || x.kind = 2) && d.f 0 1 = t &&
    (c.retake || c.bay ≠ 63 || d.refs.all fun r => decide (r < 2147483648))

/-- A bay-table entry: reserved codes and bytes (R82, Table 11.4). -/
def bayOk (b : BitVec 128) : Bool :=
  decide (bayFld b 0 1 ≤ 3) && (decide (bayFld b 1 1 ≤ 2) || bayFld b 1 1 = 0xFF) && decide (1 ≤ bayFld b 6 1) &&
    decide (bayFld b 6 1 ≤ 3) && bayFld b 7 9 = 0

/-- Every cue of a sheet with its track code, list by list. -/
def Sheet.allCues (x : Sheet) : List (Nat × Cue) := (List.range 4).flatMap fun t => (x.cues.getD t []).map fun c => (t, c)

/-- The KAT cues of a house sheet: parts 0-11 in ascending offset, each within the segment at F0 (R216). -/
def Sheet.katsOk (x : Sheet) : Bool :=
  let ks := (sortBy Cue.offset (x.track .v)).filter fun c => (x.shot c).op = 2
  ks.map (fun c => (x.shot c).katPart) = List.range 12 && ks.all fun c => decide (4 * (c.offset + 384) ≤ 7 * x.segmentNs)

/-- A house sheet drains an output tile on every quad (R479). -/
def Sheet.coversQuads (x : Sheet) : Bool :=
  let ds := ((x.track .a).filter fun c => !c.retake && c.variant = 0 && (x.shot c).last).map fun c => x.shot c
  (List.range 640).all fun q => ds.any fun d => d.outTiles.any fun e => d.quad e.1 e.2 = q

/-- UINT operands that read plate layers: (layers, format, zero point). -/
def State.uintReads (s : State) (x : Sheet) : List (List Nat × Nat) :=
  (x.descs.filter fun d => Shot.f d 0 1 = 0).flatMap fun d =>
    let d : Shot := d
    (if fmtUint d.aFmt then [(s.layersAt x.posLo x.posHi d.aRef, d.aZp)] else []) ++
      (if fmtUint d.bFmt then [(s.layersAt x.posLo x.posHi d.bRef, d.bZp)] else [])

/-- Loaded sheets of an owner outside a slot. -/
def State.otherSheets (s : State) (o slot : Nat) : List Sheet :=
  s.player.store.filterMap fun e => if e.1 / 64 = o ∧ e.1 ≠ o * 64 + slot then e.2 else none

/-- A full-parameter partition reads each UINT layer with one zero point (R360). -/
def State.zpAgree (s : State) (o slot : Nat) (x : Sheet) : Bool :=
  if !(decide (o < 32) && (s.part o).alloc.fullParam) then true
  else
    let mine := s.uintReads x
    let all := mine ++ (s.otherSheets o slot).flatMap s.uintReads
    mine.all fun e => all.all fun g => e.2 = g.2 || !(e.1.any g.1.contains)

/-! ### The tile simulation (R90, R105, R125) -/

/-- A simulated tile: in ACC with the shots so far, or free from a cycle on. -/
inductive SimTile
  | free (at_ : Nat)
  | acc (shots : List Shot)
  deriving DecidableEq, Repr

/-- Simulates shots in order of start: (tiles, tile rules hold, operations agree). A shot that collides ends the simulation. -/
def simTiles : List (Nat × Shot) → List SimTile → Bool × Bool → List SimTile × Bool × Bool
  | [], ts, r => (ts, r)
  | (cyc, d) :: rest, ts, r =>
    let t := ts.getD d.tile (.free 64)
    let (ok, shots) : Bool × List Shot :=
      match t with
      | .free at_ => (d.first && decide (at_ ≤ cyc), [])
      | .acc ss => (!d.first && (ss.getD 0 0).opTag = d.opTag, ss)
    if !ok then (ts, false, r.2)
    else
      let t' := if d.last then SimTile.free (cyc + d.kCycles + 64) else .acc (shots ++ [d])
      simTiles rest (ts.set d.tile t') (r.1, r.2 && shots.all (sameOperation d))

/-- All sublists of a list. -/
def sublists {α : Type} : List α → List (List α)
  | [] => [[]]
  | x :: xs => (sublists xs).flatMap fun ys => [ys, x :: ys]

/-- The A cues of a sheet that play with some flex bays in their training variant and some retake slots assigned. -/
def Sheet.played (x : Sheet) (train slots : List Nat) : List (Nat × Shot) :=
  ((x.track .a).filter fun c =>
    if c.retake then slots.contains c.bay
    else if c.variant = 1 then !train.contains c.bay
    else if c.variant = 2 then train.contains c.bay
    else true).map fun c => (c.offset, x.shot c)

/-- The simulation through every combination of variants and retake slots: (tile rules hold, operations agree). -/
def Sheet.simulate (x : Sheet) : Bool × Bool :=
  let flex := dedup (((x.track .a).filter fun c => !c.retake && c.variant ≠ 0).map Cue.bay)
  let slots := dedup (((x.track .a).filter Cue.retake).map Cue.bay)
  let runs := (sublists flex).flatMap fun f => (sublists slots).map fun r =>
    let (ts, ok) := simTiles (x.played f r) (List.replicate 4 (.free 64)) (true, true)
    (ok.1 && ts.all fun t => match t with | .acc _ => false | .free _ => true, ok.2)
  (runs.all (·.1) && ((x.track .a).all fun c => !c.retake || decide (128 ≤ c.offset)) &&
      (x.cadence = 0 || (x.track .a).all fun c => (x.shot c).tile ≠ 3), runs.all (·.2))

/-! ### FIT and CLEARANCE -/

/-- The sheet fits at a clock in MHz (R88). -/
def Sheet.fits (x : Sheet) (f : Nat) : Bool :=
  x.allCues.all fun e => e.2.anchor || decide (e.2.offset * 1000 + cdiv (e.2.dur * 8) 7 * f ≤ (x.segmentNs - x.guardNs) * f)

/-- The lowest clock of `f`, `f + 1`, … at which the sheet fits, over `n` clocks. -/
def Sheet.fitFrom (x : Sheet) (f : Nat) : Nat → Option Nat
  | 0 => none
  | n + 1 => if x.fits f then some f else x.fitFrom (f + 1) n

/-- The fit clock (R88). -/
def Sheet.fit (x : Sheet) : Option Nat := x.fitFrom 875 876

/-- The two variants of one flex bay at one place (R89, R33). -/
def Sheet.paired (x : Sheet) (a b : Cue) : Bool :=
  !a.retake && !b.retake && a.bay = b.bay && x.bayKind a.bay = 3 && ((a.variant = 1 && b.variant = 2) || (a.variant = 2 && b.variant = 1)) &&
    a.offset = b.offset && a.dur = b.dur

/-- Two cues overlap in time. -/
def Cue.overlaps (a b : Cue) : Bool := decide (a.offset < b.offset + b.dur) && decide (b.offset < a.offset + a.dur)

/-- A cues stand in ascending offset order, and no two of them overlap unless they are a pair of variants (R89). -/
def Sheet.aOrder (x : Sheet) : List Cue → Bool
  | [] => true
  | c :: cs => (cs.all fun e => decide (c.offset ≤ e.offset) && (!c.overlaps e || x.paired c e)) && x.aOrder cs

/-- V cues that overlap name disjoint units, or are a pair of variants (R89, R210). -/
def Sheet.vDisjoint (x : Sheet) : List Cue → Bool
  | [] => true
  | c :: cs =>
    (cs.all fun e => !c.overlaps e || x.paired c e || ((x.shot c).unitList.all fun u => !(x.shot e).unitList.contains u)) && x.vDisjoint cs

/-- The cycle count that a V descriptor must carry (R210, R214). -/
def State.vCount (s : State) (d : Shot) : Option Nat :=
  match d.op with
  | 1 => (Sparse.get (fun _ => none) s.vec.slots d.prog).map Program.cycles
  | 2 => some 384
  | _ => if d.unitList.isEmpty then none else some (64 + 4 * cdiv d.pairs (128 * d.unitList.length))

/-- Time that an L cue transmits on its port_out, in 1/35 ns from the segment's start; a SEND's TAG flit counts (R420, R426, R428, R432,
R461). -/
def Sheet.sends (x : Sheet) (c : Cue) : Option (Nat × Nat) :=
  let d := x.shot c
  match d.lOp with
  | 1 => some (20 * c.offset, 20 * c.offset + 84 * (cdiv d.lBytes 240 + 1))
  | 3 => some (20 * c.offset + 840, 20 * (c.offset + c.dur) + 924)
  | 4 => some (20 * c.offset, 20 * (c.offset + c.dur))
  | _ => none

/-- No two cues of the list transmit on one port at one time (R431); the variants of a flex bay never both play. -/
def Sheet.lDisjoint (x : Sheet) : List Cue → Bool
  | [] => true
  | c :: cs =>
    (cs.all fun e =>
      match x.sends c, x.sends e with
      | some i, some j => (x.shot c).portOut ≠ (x.shot e).portOut || x.paired c e || decide (i.2 ≤ j.1) || decide (j.2 ≤ i.1)
      | _, _ => true) && x.lDisjoint cs

/-- Ports that a sheet's L descriptors name. -/
def Sheet.ports (x : Sheet) : List Nat :=
  dedup (x.descs.flatMap fun d =>
    let d : Shot := d
    if d.f 0 1 ≠ 3 then [] else
    (if d.transmits then [d.portOut] else []) ++ (if d.lOp = 1 then [] else [d.portIn]))

/-- The port is named by a loaded sheet of any owner: use SCHEDULED (R425). -/
def State.scheduled (s : State) (n : Nat) : Bool :=
  s.player.store.any fun e => match e.2 with | some x => x.ports.contains n | none => false

/-- Ports of house L cues that run past the house segment. -/
def State.houseOver (s : State) (x : Sheet) : List Nat :=
  (x.track .l).flatMap fun c =>
    if 20 * (c.offset + c.dur) ≤ 35 * s.houseNs x.profile.toNat then []
    else (if (x.shot c).transmits then [(x.shot c).portOut] else []) ++ (if (x.shot c).lOp = 1 then [] else [(x.shot c).portIn])

/-- Transmit time of a port in a sheet, in 1/35 ns; of two paired variants one counts. -/
def Sheet.portTime (x : Sheet) (n : Nat) : Nat :=
  ((x.track .l).map fun c =>
    if (x.shot c).portOut = n ∧ !(c.variant = 2 && (x.track .l).any fun e => x.paired e c && (x.shot e).portOut = n) then
      match x.sends c with
      | some i => i.2 - i.1
      | none => 0
    else 0).sum

/-- CLEARANCE (R89, R119, R210, R425, R431). -/
def State.clearance (s : State) (o : Nat) (x : Sheet) : Bool :=
  let c := match x.cadence.toNat with | 1 => 448 | 2 => 1750 | 3 => 7000 | _ => 0
  let frame := 1000 * s.frameUs x.profile.toNat
  let av := x.track .a ++ x.track .v
  x.aOrder (x.track .a) && x.vDisjoint (x.track .v) &&
    (av.all fun e => decide (e.dur ≤ 1024) && (c = 0 || (decide (32 ≤ e.offset % c) && decide (e.offset % c + e.dur ≤ c)))) &&
    ((x.track .a).all fun e => decide ((x.shot e).kCycles ≤ e.dur)) &&
    (x.descs.all fun (d : Shot) => d.f 0 1 ≠ 1 || s.vCount d = some d.vCycles) &&
    ((x.track .v).all fun e => decide ((x.shot e).vCycles ≤ e.dur)) &&
    x.spanCycles = (x.allCues.filter fun e => !e.2.anchor).foldl (fun m e => max m (e.2.offset + e.2.dur)) 0 &&
    (x.isHouse || (x.track .a ++ x.track .v ++ x.track .m).all fun e => !e.anchor) &&
    (!x.isHouse || (((x.track .m).all fun e => !e.anchor || decide ((e.offset + e.dur) * 8 ≤ 7 * frame)) &&
      (x.track .l).all fun e => decide ((e.offset + e.dur) * 4 ≤ 7 * frame))) &&
    (x.ports.all fun n => (s.port n).use = .free) &&
    ((x.track .l).all fun e =>
      (match x.sends e with
        | some i => !x.isHouse || decide (840 ≤ i.1)
        | none => true) && ((x.shot e).lOp ≠ 1 || decide (84 * (cdiv (x.shot e).lBytes 240 + 1) ≤ 20 * e.dur))) &&
    x.lDisjoint (x.track .l) &&
    (if x.isHouse then
      (s.houseOver x).all fun n => !(s.player.store.any fun e => e.1 < 2048 && match e.2 with | some y => y.ports.contains n | none => false)
     else x.ports.all fun n => !(s.player.store.any fun e => 2048 ≤ e.1 && match e.2 with | some y => (s.houseOver y).contains n | none => false)) &&
    ((List.range 8).all fun n => decide (x.portTime n ≤ 35 * ((if x.isHouse then 16 else (s.part o).alloc.reel) * frame / 256)))

/-! ### BAYS -/

/-- The bay fields of a cue (R80, R83, R327). -/
def Sheet.bayFieldsOk (x : Sheet) (c : Cue) : Bool :=
  if c.retake then decide (c.bay < x.retake.length) && c.variant = 0
  else (c.bay = 63 || decide (c.bay < x.bays.length)) &&
    (c.variant = 0 || (c.bay ≠ 63 && x.bayKind c.bay = 3)) && (c.variant ≠ 1 || decide (c.gate ≤ 1))

/-- The places (track, offset, duration) of one variant of a bay. -/
def Sheet.places (x : Sheet) (b v : Nat) : List (Nat × Nat × Nat) :=
  (x.allCues.filter fun e => !e.2.retake && e.2.bay = b && e.2.variant = v).map fun e => (e.1, e.2.offset, e.2.dur)

/-- BAYS (R33, R78, R83, R327): fallback sheets have no bays; where a flex bay has both variants, they occupy identical cycles. -/
def Sheet.baysOk (x : Sheet) : Bool :=
  (!(x.kind = 1 || x.kind = 3) || x.bays.isEmpty) && (x.allCues.all fun e => x.bayFieldsOk e.2) &&
    (List.range x.bays.length).all fun b =>
      let p := x.places b 1
      let q := x.places b 2
      p.isEmpty || q.isEmpty || (p.length = q.length && p.all fun e => p.count e = q.count e)

/-! ### The load -/

/-- The owner exists (R85): the house, or a partition that is neither FREE nor CREATING. -/
def State.ownerExists (s : State) (o : Nat) : Bool :=
  o = 32 || (decide (o < 32) && (s.part o).state ≠ .free && (s.part o).state ≠ .creating)

/-- The owner's segment in a profile, in ns. -/
def State.ownerSeg (s : State) (o prof : Nat) : Nat := if o = 32 then s.houseNs prof else s.segNs o prof

/-- A valid designation names the slot as a fallback (R78, R109). -/
def State.designated (s : State) (o slot : Nat) : Bool := (List.range 4).any fun p => s.used p && s.fallbackSlot o p = some slot

/-- The slot plays in the present frame. -/
def State.slotPlays (s : State) (o slot : Nat) : Bool := s.player.playing && (s.ctx o).slot = some slot

/-- A commit record for a frame not yet started names the slot. -/
def State.slotNamed (s : State) (o slot : Nat) : Bool :=
  (s.player.nextRecs ++ s.player.afterRecs ++ s.player.fixedRecs).any fun r => r.1 = o && r.2.slot = slot

/-- Bytes that the sheet store holds outside a slot. -/
def State.storeUsed (s : State) (o slot : Nat) : Nat :=
  (s.player.store.map fun e => if e.1 = o * 64 + slot then 0 else match e.2 with | some x => x.size | none => 0).sum

/-- The checks of R84 steps 2 to 14, in order: the code of Table 3.3. -/
def State.checkSheet (s : State) (l : SheetLoad) (img : Blob) : Nat :=
  let o := l.owner
  if !headerOk img l.len then 0x02
  else
    let x := parseSheet img l.len
    let sim := x.simulate
    if !s.ownerExists o || x.isHouse ≠ decide (o = 32) then 0x0D
    else if sha512 (img.take (l.len - 64)) ≠ x.digest then 0x03
    else if !(x.allCues.all fun e => e.2.crcOk) then 0x04
    else if !((x.allCues.all fun e => x.cueOk e.1 e.2) && x.bays.all bayOk && x.retake.all (fun c => decide (c ≤ 2)) &&
        allZero (slice img (leAt img 0x48 4 + x.retake.length) (64 - x.retake.length)) && x.descs.all (fun d => s.shotOk d) &&
        (!x.isHouse || (x.katsOk && x.coversQuads)) && s.zpAgree o l.slot x && sim.2) then 0x02
    else if (match s.plate.plate with | some p => decide (p.digest ≠ digestOf (slice img 0x60 64)) | none => true) then 0x05
    else if !(s.used x.profile.toNat && s.valid x.profile.toNat && x.segmentNs = s.ownerSeg o x.profile.toNat &&
        x.cadence.toNat = s.regFld Reg.tbCtrl 2 2) then 0x06
    else if x.fit ≠ some x.fitMhz || ((x.kind = 1 || x.kind = 3) && !x.fits 875) then 0x07
    else if !s.clearance o x then 0x08
    else if !x.baysOk then 0x0A
    else if !sim.1 then 0x09
    else if 1048576 * s.regFld Reg.shtStore 0 10 < s.storeUsed o l.slot + l.len then 0x0C
    else if (s.sheet o l.slot).isSome && (s.slotPlays o l.slot || s.slotNamed o l.slot || s.designated o l.slot) then 0x0B
    else 0

/-- SHEET_LOAD (R84, R109): SHT_LOAD_CTRL written with go = 1. A write while a load runs is ignored. -/
def execSheetLoad (owner slot : Nat) (s : State) : Out :=
  if s.player.load.isSome then .next s
  else
    let s := s.setFld Reg.shtLoadCtrl 0 12 (slot % 64 + 64 * (owner % 64))
    let l : SheetLoad := { owner := owner % 64, slot := slot % 64, addr := s.reg64 Reg.shtLoadAddrLo Reg.shtLoadAddrHi,
                           len := (s.reg Reg.shtLoadLen).toNat }
    .next { s with player := { s.player with load := some l } }

/-- A house HOST cue is in progress: bulk transfers with host memory advance while the player plays (R84, R207, R392). -/
def State.hostCueOpen (s : State) : Bool :=
  match s.playing 32 with
  | none => false
  | some x => (s.ctx 32).started.any fun e => e.1 = .m && !(s.ctx 32).ended.contains (.m, e.2.1) &&
      match x.cue? .m e.2.1 with
      | some c => (x.shot c).op = 5
      | none => false

/-- A bulk host transfer may proceed: at once while SHT_CTRL.en is 0, else in a house HOST cue (R84). -/
def State.hostBulk (s : State) : Bool := !s.regBit Reg.shtCtrl 0 || s.hostCueOpen

/-- A verified sheet enters its slot, and the slot's grey bit clears (R84, R86). -/
def State.placeSheet (s : State) (o slot : Nat) (x : Sheet) : State :=
  let s := s.setSheet o slot (some x)
  { s with player := { s.player with grey := s.player.grey.filter fun g => g ≠ o * 64 + slot } }

/-- SHEET_LOAD_DONE (R84-R86): the load ends with the image that was read, or none where the host read failed. -/
def execSheetLoadDone (img : Option Blob) (s : State) : Out :=
  match s.player.load with
  | none => .next s
  | some l =>
    if !s.hostBulk then .next s
    else
      let bytes := img.map fun b => slice b 0 l.len
      let code := match bytes with | none => 0x0E | some b => s.checkSheet l b
      let s := { s with player := { s.player with load := none, loadCode := code } }
      match bytes with
      | some b =>
        if code = 0 then .next (s.placeSheet l.owner l.slot (parseSheet b l.len)) else .next s
      | none => .next s

/-! ### Registers of the player -/

/-- SHT_STATUS.cfg_err is set. -/
def State.shtErr (s : State) : State := s.raise Reg.shtStatus 6

/-- The owner's fallback designation names a loaded fallback sheet of the profile (R78, R109). -/
def State.hasFallback (s : State) (o prof : Nat) : Bool :=
  match s.fallbackSlot o prof with
  | some k => match s.sheet o k with
    | some x => x.kind = (if o = 32 then 3 else 1) && x.profile.toNat = prof
    | none => false
  | none => false

/-- PLAYER_ENABLE (R109, R26, R27): en written 1. The house must have a loaded sheet and a fallback for the active profile. -/
def execPlayerEnable (atFn : Bool) (s : State) : Out :=
  if s.locked .sht then .next s
  else
    let prof := s.tbm.active.toNat
    let ready := (s.player.store.any fun e => 2048 ≤ e.1 && match e.2 with | some x => x.kind = 2 && x.profile.toNat = prof | none => false) &&
      s.hasFallback 32 prof
    if s.regBit Reg.shtCtrl 0 then .next (s.setFld Reg.shtCtrl 1 1 (b2n atFn))
    else if !ready then .next s.shtErr
    else
      let s := s.setFld Reg.shtCtrl 0 2 (1 + 2 * b2n atFn)
      let fn := s.reg Reg.shtStartFn
      let at_ : Option (BitVec 32) := if atFn && decide (0 < sdiff s.tbm.fn fn) then some fn else none
      .next { s with player := { s.player with startAt := some at_ } }

/-- PLAYER_DISABLE (R109): en written 0, ignored while a partition is active. The player stops with the frame. -/
def execPlayerDisable (s : State) : Out :=
  if s.locked .sht then .next s
  else if s.anyActive then .next s.shtErr
  else
    let s := s.setFld Reg.shtCtrl 0 1 0
    .next { s with player := { s.player with startAt := none } }

/-- SET_SHEET_STORE (R109). -/
def execSetSheetStore (mib : Nat) (s : State) : Out :=
  if s.locked .sht then .next s
  else if s.regBit Reg.shtCtrl 0 || mib < 16 || 1023 < mib then .next s.shtErr
  else .next (s.setFld Reg.shtStore 0 10 mib)

/-- A word's fallback slots are valid for an owner (R78, R109): every used profile names a loaded fallback sheet of it. -/
def State.fallbacksOk (s : State) (o : Nat) (v : Word) : Bool :=
  (List.range 4).all fun p => !s.used p ||
    (match s.sheet o (fld v (8 * p) 6) with
      | some x => x.kind = (if o = 32 then 3 else 1) && x.profile.toNat = p
      | none => false)

/-- FALLBACK_DESIGNATE (R78, R109): SHT_HOUSE_FB or SHT_FBp written. -/
def execFallbackDesignate (owner : Nat) (v : Word) (s : State) : Out :=
  if 32 < owner || (owner = 32 && s.locked .sht) then .next s
  else if (owner < 32 && s.frameParts.contains owner) || (bitOf v 31 && !s.fallbacksOk owner v) then .next s.shtErr
  else .next (s.setReg (if owner = 32 then Reg.shtHouseFb else Reg.shtFb + 4 * owner) (v &&& 0xBF3F3F3F))

/-! ### The director's commits -/

/-- A profile field is acceptable at a commit: used, and valid at that moment (R53). -/
def State.profileOk (s : State) (p : BitVec 2) : Bool := s.used p.toNat && s.valid p.toNat

/-- Judges the house record's profile field (R53): a rejected one is logged and taken as no change. `fixed` is the profile fixed
for the frame that the record governs. -/
def State.judgeProfile (s : State) (fixed : BitVec 2) (recs : List (Nat × CommitRec)) : State × List (Nat × CommitRec) :=
  recs.foldl (fun (a : State × List (Nat × CommitRec)) r =>
    if r.1 = 32 ∧ !a.1.profileOk r.2.profile then (a.1.logProfile fixed r.2.profile 1, a.2 ++ [(32, { r.2 with profile := fixed })])
    else (a.1, a.2 ++ [r])) (s, [])

/-- A commit made now governs the frame after the next: it is at or after the commit point of the present frame (R21, R44, R546). -/
def State.commitsLate (s : State) : Bool := s.inFrames && (s.tbm.cpPassed || s.pastCp s.now)

/-- A commit (R16, R17, R21, R53, R92): the records for the segments of the next frame, or after the commit point of the frame after it,
replace any earlier ones for that frame. -/
def State.takeCommit (s : State) (recs : List (Nat × CommitRec)) : State :=
  let late := s.commitsLate
  let (s, recs) := s.judgeProfile (if late then s.tbm.announced else s.tbm.next) recs
  if late then { s with player := { s.player with afterRecs := recs, afterDone := true } }.updatePending
  else { s with player := { s.player with nextRecs := recs, nextDone := true } }.updatePending

/-- A commit of the director that changes only the profile (R102); with no house sheet committed yet its house record names the fallback
sheet, which plays then (R546). -/
def State.commitProfile (s : State) (p : BitVec 2) : State :=
  let put := fun (rs : List (Nat × CommitRec)) =>
    if rs.any fun r => r.1 = 32 then rs.map fun r => if r.1 = 32 then (32, { r.2 with profile := p }) else r
    else match s.player.lastHouse with
      | some h => (32, { h with profile := p }) :: rs
      | none => (32, { slot := (s.fallbackSlot 32 s.tbm.active.toNat).getD 0, bindings := [], training := [], profile := p }) :: rs
  if s.commitsLate then { s with player := { s.player with afterRecs := put s.player.afterRecs, afterDone := true } }.updatePending
  else { s with player := { s.player with nextRecs := put s.player.nextRecs, nextDone := true } }.updatePending

/-- Every active partition and the house have a sheet and a fallback for a profile (R102). -/
def State.sheetsFor (s : State) (p : Nat) : Bool :=
  (32 :: s.frameParts).all fun o => s.hasFallback o p &&
    s.player.store.any fun e => e.1 / 64 = o && match e.2 with
      | some x => x.profile.toNat = p && (x.kind = 0 || x.kind = 2)
      | none => false

/-- The used profile with the next longer frame than the active one (R102). -/
def State.nextLonger (s : State) : Option Nat :=
  let now := s.frameUs s.tbm.active.toNat
  (sortBy s.frameUs ((List.range 4).filter fun p => decide (now < s.frameUs p))).head?

/-- LONGER_PROFILE (R102): with ovr_consec at 3, a tick master's director commits the next longer profile, or stays and says so. -/
def execLongerProfile (s : State) : Out :=
  if s.player.ovrConsec < 3 || s.follower || s.saf.safe || !s.tbm.running then .next s
  else
    let old := s.tbm.active
    match s.nextLonger with
    | some p =>
      let q := BitVec.ofNat 2 p
      if s.sheetsFor p && s.profileOk q then
        let s := s.commitProfile q
        .next { s with player := { s.player with cameFrom := some old } }
      else .next ((s.raise Reg.shtStatus 5).logProfile old q 3)
    | none => .next ((s.raise Reg.shtStatus 5).logProfile old old 3)

/-- POLICY_REVIEW (R102, R337): in a frame with FN mod 1,024 = 0, once, retake holds end, retake counts reset, and after 1,024 frames
without an overrun the director returns to the shorter profile. -/
def execPolicyReview (s : State) : Out :=
  if !s.tbm.running || s.fnNat % 1024 ≠ 0 || s.player.reviewFn = some s.tbm.fn || s.saf.safe then .next s
  else
    let reset := fun (_ : Nat) (t : Tint) => { t with train := { t.train with hold := none, retakes := [] } }
    let s := { s with tints := Sparse.mapListed (fun _ => Tint.init) reset s.tints }
    let clean := s.player.ovrReview = 0
    let s := { s with player := { s.player with ovrReview := 0, reviewFn := some s.tbm.fn } }
    match s.player.cameFrom with
    | some p =>
      if clean && !s.follower && s.profileOk p && s.sheetsFor p.toNat then
        let s := s.commitProfile p
        .next { s with player := { s.player with cameFrom := none } }
      else .next s
    | none => .next s

end Sys2Proof.Machine
end

