-- ==== Sys2Proof/Machine/Dist.lean ====
section
/-! DEFINITION. Plate distribution (R441-R443, R445, R460): CONTROL flits, the flits of a part, what a sender sends and resends. -/

namespace Sys2Proof.Machine

/-- A CONTROL flit other than TAG (R445). -/
def controlFlit (stream fn : Nat) (payload : Blob) : Blob := mkFlit 5 3 stream 0 fn payload

/-- Stream numbers of the parts that are no layers (R441). -/
abbrev strManifest : Nat := 0xFFFD
abbrev strHead : Nat := 0xFFFE
abbrev strEmbed : Nat := 0xFFFF
abbrev strBulk : Nat := 0xFFFC

/-- The keystream of R460 over a part: its own inverse. -/
def partCipher (key : BitVec 256) (n : Nat) (bs : Blob) : Blob :=
  xorBytes bs (gcmStream (leBytes 32 key.toNat) (leBytes 4 0xFFFFFFFF ++ leBytes 4 n ++ leBytes 4 0) bs.length)

/-- The part of a plate with a stream number. -/
def Plate.part (p : Plate) (n : Nat) : PlatePart := if n = strHead then p.head else if n = strEmbed then p.embed else p.layers.getD n p.embed

/-- Packed bytes of a part. -/
def PlatePart.packedBytes (x : PlatePart) : Nat := x.tiles * packedSize x.fmt x.blk

/-- Bytes of a stream of a distribution. -/
def Plate.streamBytes (p : Plate) (n : Nat) : Nat := if n = strManifest then p.manifest.length else (p.part n).packedBytes

/-- Flits of a stream from `first` on, `count` of them, cut at the stream's end; flags mark the first and the last flit. -/
def streamFlits (n fn : Nat) (bs : Blob) (first count : Nat) : List Blob :=
  let total := cdiv bs.length 240
  ((List.range count).map fun i => first + i).filterMap fun q =>
    if q < total then
      some (mkFlit 1 (b2n (q = 0) + 2 * b2n (q + 1 = total)) n q fn ((bs.drop (240 * q)).take 240))
    else none

/-- The last flit of a resent pass carries flags[1] (R445). -/
def markLast (fs : List Blob) : List Blob :=
  match fs.getLast? with
  | some f => fs.dropLast ++ [mkFlit (flitKind f) (flitFlags f % 2 + 2) (flitStream f) (flitSeq f) (flitFn f) (flitPayload f)]
  | none => []

/-- The ciphertext that a sender sends for a stream: the manifest in clear, a part under the plate key (R460). -/
def State.distBytes (s : State) (p : Plate) (n : Nat) : Blob :=
  if n = strManifest then p.manifest
  else match s.sec.plateKey with
    | some (key, _) => partCipher key n ((p.part n).data.flatten)
    | none => []

/-- The forward reel holds a verified copy of the layer (R442). -/
def State.layerHeld (s : State) (n : Nat) : Bool :=
  [0, 1].any fun i => (s.tiers.bufs.getD i LayerBuf.init).layer = some n && (s.tiers.bufs.getD i LayerBuf.init).ready

/-- A stream can be sent now: a layer only from the forward reel's buffers; the manifest, the head and the embedding table
always. In resident mode every layer is in tier F. -/
def State.streamReady (s : State) (p : Plate) (n : Nat) : Bool := decide (1024 ≤ n) || p.resident || s.layerHeld n

/-- Ports on which this device sends its plate. -/
def State.distSenders (s : State) : List Nat :=
  (List.range 8).filter fun n => match (s.port n).dist with | some d => !d.receiver | none => false

/-- Sends a stream whole on a port. -/
def State.sendStream (s : State) (port : Nat) (p : Plate) (n : Nat) : State :=
  let bs := s.distBytes p n
  s.sendFlits port (streamFlits n s.fnNat bs 0 (cdiv bs.length 240))

/-- A layer becomes available: each sender sends it, or what a NACK asked of it (R442). The spec divides a pass over the frames in
which the layer is available; the model sends it when it becomes so (log entry 30). -/
def State.sendLayer (s : State) (n : Nat) : State :=
  match s.plate.plate with
  | none => s
  | some p => s.each s.distSenders fun s port =>
    match (s.port port).dist with
    | none => s
    | some d =>
      let asked := d.resend.filter fun r => r.1 = n
      if asked.isEmpty then
        if d.got.any fun g => g.1 = n then s
        else
          let s := s.sendStream port p n
          -- a sender notes in `got` the streams that it has sent once
          s.setPort port { s.port port with dist := some { d with got := d.got ++ [(n, 0, [])] } }
      else
        let bs := s.distBytes p n
        let s := s.sendFlits port (markLast (asked.flatMap fun r => streamFlits n s.fnNat bs r.2.1 r.2.2))
        s.setPort port { s.port port with dist := some { d with resend := d.resend.filter fun r => r.1 ≠ n } }

/-- Ranges of sequence numbers that are missing, in ascending order: (first, count). -/
def missingRanges (total : Nat) (got : List Nat) : List (Nat × Nat) :=
  (List.range total).foldl (fun (a : List (Nat × Nat)) q =>
    if got.contains q then a
    else match a.reverse with
      | (f, n) :: rest => if f + n = q then (rest.reverse ++ [(f, n + 1)]) else a ++ [(q, 1)]
      | [] => [(q, 1)]) []

/-- A NACK for a stream that names up to 29 ranges (Table 15.7). -/
def nackFlit (n fn : Nat) (rs : List (Nat × Nat)) : Blob :=
  let rs := rs.take 29
  controlFlit n fn (leBytes 1 3 ++ leBytes 1 rs.length ++ leBytes 2 n ++ rs.flatMap fun r => leBytes 4 r.1 ++ leBytes 4 r.2)

/-- A distribution ends on a port: its use is FREE again. -/
def State.endDist (s : State) (n : Nat) : State := s.setPort n { s.port n with dist := none, use := .free }

end Sys2Proof.Machine
end

