-- ==== Sys2Proof/Machine/Export.lean ====
section
/-! DEFINITION. Weights that would leave the package through a HOST cue: the export of a full-parameter run in plate form (R345, R459,
R464). -/

namespace Sys2Proof.Machine

/-! ### The manifest's offsets (R278-R280) -/

/-- First byte of the signature: the first multiple of 64 at or after the end of the point table. -/
def sigOffset (m : Blob) : Nat := cdiv (0x100 + 80 * leAt m 6 2 + 16 * leAt m 8 1) 64 * 64

/-- Offset of layer entry `l`, and of point entry `p`. -/
def layerEntry (l : Nat) : Nat := 0x100 + 80 * l
def pointEntry (m : Blob) (p : Nat) : Nat := 0x100 + 80 * leAt m 6 2 + 16 * p

/-! ### What is in tier F (R459) -/

/-- Banks that a plate part takes. -/
def PlatePart.banks (p : PlatePart) : Nat := cdiv p.readyBytes 16777216

/-- Banks of the resident layers, as one part (R238). -/
def Plate.layerBanks (p : Plate) : Nat := cdiv ((p.layers.map PlatePart.readyBytes).sum) 16777216

/-- The bank lies in the window. -/
def State.inWindow (s : State) (b : Nat) : Bool :=
  decide (s.tiers.winBase ≤ b) && decide (b < s.tiers.winBase + 4 * s.tiers.winBanks)

/-- The bank lies in the output head. -/
def State.inHead (s : State) (b : Nat) : Bool := decide (s.tiers.headBase ≤ b) && decide (b < s.tiers.headBase + s.tiers.headBanks)

/-- The bank holds the layers or the embedding table of a resident plate. -/
def State.inResident (s : State) (b : Nat) : Bool :=
  match s.plate.plate with
  | some p => p.resident &&
    ((decide (s.tiers.resBase.1 ≤ b) && decide (b < s.tiers.resBase.1 + p.layerBanks)) ||
      (decide (s.tiers.resBase.2 ≤ b) && decide (b < s.tiers.resBase.2 + p.embed.banks)))
  | none => false

/-- The bank holds weights: of the plate, or of the tint in its hot slot. -/
def State.weightBank (s : State) (b : Nat) : Bool :=
  s.inWindow b || s.inHead b || s.inResident b || s.tints.any fun e => match e.2.slot with
    | some h => decide ((s.slotOf h).base ≤ b) && decide (b < (s.slotOf h).base + (s.part e.2.owner).alloc.slotBanks)
    | none => false

/-- Some byte of the runs lies in a bank that holds weights. -/
def State.holdsWeights (s : State) (runs : List (Nat × Nat)) : Bool :=
  runs.any fun r => (List.range 1536).any fun b =>
    s.weightBank b && decide (r.1 < (b + 1) * 16777216) && decide (b * 16777216 < r.1 + r.2)

/-! ### The plate image (R345, R459, R464) -/

/-- The manifest with recomputed digests and no signature: its signature block is zero. -/
def Plate.openManifest (p : Plate) : Blob :=
  let sig := sigOffset p.manifest
  let head := slice p.manifest 0 0x40 ++ digestBytes (sha512 p.head.data.flatten) ++ digestBytes (sha512 p.embed.data.flatten) ++ slice p.manifest 0xC0 0x40
  let layers := (p.layers.zipIdx).flatMap fun e => slice p.manifest (layerEntry e.2) 16 ++ digestBytes (sha512 e.1.data.flatten)
  head ++ layers ++ slice p.manifest (layerEntry p.layers.length) (sig - layerEntry p.layers.length) ++ leBytes 1088 0

/-- The sealed tiles of a part, by its number, with a seal word (R229, R459). -/
def sealPart (key : BitVec 256) (n word : Nat) (x : PlatePart) : Blob :=
  (x.data.zipIdx).flatMap fun e =>
    let iv := leBytes 4 n ++ leBytes 4 e.2 ++ leBytes 4 word
    let (ct, tag) := gcmSeal key iv [] e.1
    ct ++ iv ++ tag ++ List.replicate 36 0

/-- The image of a plate: the padded manifest, the sealed tiles of each part, the end padding. -/
def Plate.image (p : Plate) (key : BitVec 256) (word : Nat) : Blob :=
  let m := p.openManifest
  let m := padTo (cdiv m.length 4096 * 4096) m
  let body := ((p.layers.zipIdx).flatMap fun e => sealPart key e.2 word e.1) ++ sealPart key strEmbed word p.embed ++ sealPart key strHead word p.head
  padTo (cdiv (m.length + body.length) 4096 * 4096) (m ++ body)

/-- What leaves the device in place of the weights of an area (R345, R459): of a full-parameter run the plate in plate form, sealed under the
plate key with the model's step count; nothing where no such run trains it or no plate key is held. -/
def State.plateExport (s : State) : Option Blob :=
  match s.plate.plate, s.sec.plateKey, s.tints.find? fun e => e.2.comps.isEmpty with
  | some p, some (key, _), some e => some (p.image key e.2.train.k.toNat)
  | _, _, _ => none

end Sys2Proof.Machine
end

