-- ==== Sys2Proof/Machine/Tiers.lean ====
section
/-! DEFINITION. The memory tiers (chapter 8): the movers of the M track, the reels, tile forms, moves between tiers. -/

namespace Sys2Proof.Machine

/-! ### Cues of the M track -/

/-- The M-track op codes (Table 8.6). -/
abbrev MOp.reel : Nat := 1
abbrev MOp.gather : Nat := 2
abbrev MOp.scatter : Nat := 3
abbrev MOp.migrate : Nat := 4
abbrev MOp.host : Nat := 5
abbrev MOp.update : Nat := 6
abbrev MOp.tint : Nat := 7

/-- An M cue with an op code is due: `act` is what its shot does (R95-R98, R104, R235). -/
def State.playM (s : State) (o i op : Nat) (act : State → Sheet → Cue → State) : State :=
  s.startCue o .m i (fun d => d.f 0 1 = 2 && d.op = op) act

/-- The cue starts that are open on the M track of a segment: cue index and descriptor. -/
def State.openM (s : State) (o op : Nat) : List (Nat × Shot) :=
  match s.playing o with
  | none => []
  | some x =>
    (s.ctx o).started.filterMap fun e =>
      if e.1 = .m && !(s.ctx o).ended.contains (.m, e.2.1) then
        match x.cue? .m e.2.1 with
        | some c => if (x.shot c).op = op then some (e.2.1, x.shot c) else none
        | none => none
      else none

/-- A stack is live (R244). -/
def State.stackLive (s : State) (n : Nat) : Bool := bitOf s.tiers.live n

/-- TB at which a stack's last transfer ends. -/
def State.stackFree (s : State) (n : Nat) : Nat := s.tiers.stackFree.getD n 0

/-- A transfer holds stacks until an instant. -/
def State.holdStacks (s : State) (ns : List Nat) (end_ : Nat) : State :=
  let fs := s.tiers.stackFree.zipIdx.map fun (e : Nat × Nat) => if ns.contains e.2 then max e.1 end_ else e.1
  { s with tiers := { s.tiers with stackFree := fs } }

/-- The instant from which every stack of a list is free (R235). -/
def State.stacksFrom (s : State) (ns : List Nat) : Nat := (ns.map s.stackFree).foldl max s.now

/-- Stacks that are live. -/
def State.liveStacks (s : State) : List Nat := (List.range 12).filter s.stackLive

/-- TB at which a mover's part on the stacks ends. -/
def Mover.stackEnd (m : Mover) : Nat := m.until_.getD (m.startTb + cdiv (3 * (m.tiles.getLastD (0, 0, 0, 0)).2.2.1) 512)

/-- TB at which a mover's transfer ends, or none where tier H has no rate. -/
def Mover.endTb (m : Mover) : Option Nat :=
  let h := (m.tiles.getLastD (0, 0, 0, 0)).2.2.2
  if h = 0 then some m.stackEnd else if m.rate = 0 then none else some (max m.stackEnd (m.hStart + cdiv h m.rate))

/-- Tiles that a mover has moved by an instant. -/
def Mover.movedBy (m : Mover) (t : Nat) : List (Nat × Nat) :=
  (m.tiles.filter fun e => decide (3 * e.2.2.1 ≤ 512 * (t - m.startTb)) && decide (e.2.2.2 ≤ m.rate * (t - m.hStart))).map fun e => (e.1, e.2.1)

/-- A layer's transfer into a buffer goes on or waits: it has stripes, and is not over. -/
def LayerBuf.fetching (b : LayerBuf) (now : Nat) : Bool := b.layer.isSome && !b.ready && !b.stripes.isEmpty && decide (now < b.endTb)

/-- TB to which the transfers that have started hold a stack. -/
def State.busyTo (s : State) (n : Nat) : Nat :=
  let ms := s.tiers.running.filterMap fun m => if m.onStacks.contains n && decide (m.startTb ≤ s.now) then some m.stackEnd else none
  let bs := s.tiers.bufs.filterMap fun b => if b.fetching s.now && decide (b.startTb ≤ s.now) && s.stackLive n then some b.endTb else none
  (ms ++ bs).foldl max s.now

/-- Transfers that wait for their stacks, as (start, is a fetch, index), in their order. -/
def State.waiters (s : State) : List (Nat × Bool × Nat) :=
  let ms := s.tiers.running.zipIdx.filterMap fun (e : Mover × Nat) => if !e.1.onStacks.isEmpty && decide (s.now < e.1.startTb) then some (e.1.startTb, false, e.2) else none
  let bs := s.tiers.bufs.zipIdx.filterMap fun (e : LayerBuf × Nat) => if e.1.fetching s.now && decide (s.now < e.1.startTb) then some (e.1.startTb, true, e.2) else none
  sortBy (fun e => e.1) (ms ++ bs)

/-- One waiting transfer takes its place behind what its stacks carry: the state and the ends on each stack. -/
def State.replanOne (a : State × List Nat) (w : Nat × Bool × Nat) : State × List Nat :=
  let (s, free) := a
  let from_ := fun (ks : List Nat) => (ks.map fun k => free.getD k 0).foldl max s.now
  let hold := fun (ks : List Nat) (t : Nat) => free.zipIdx.map fun (e : Nat × Nat) => if ks.contains e.2 then max e.1 t else e.1
  if w.2.1 then
    let b := s.buf w.2.2
    let t := from_ s.liveStacks
    let e := t + (b.endTb - b.startTb)
    (s.setBuf w.2.2 { b with startTb := t, endTb := e }, hold s.liveStacks e)
  else
    match s.tiers.running[w.2.2]? with
    | none => a
    | some m =>
      let m := { m with startTb := from_ m.onStacks }
      ({ s with tiers := { s.tiers with running := s.tiers.running.set w.2.2 m } }, hold m.onStacks m.stackEnd)

/-- Stacks that an update command uses: its NMD's own and the mirror's (R347, R362). -/
def updStacks (n : Nat) (c : UpdCmd) : List Nat := dedup [n, fld c (8 * 0x30) 4]

/-- Passes that are to go on when a waiting UPDATE cue gets its stacks go on when it now gets them. -/
def State.retimePasses (s : State) : State :=
  s.each (List.range 12) fun s n =>
    let u := s.updOf n
    match u.queue, u.slotTb with
    | k :: _, some t =>
      match s.tiers.running.find? fun m => m.op = MOp.update && (updStacks n k).all m.onStacks.contains with
      | some m => if s.now < t then s.setUpd n { u with slotTb := some (max s.now m.startTb) } else s
      | none => s
    | _, _ => s

/-- Transfers that wait take their places anew, in their order (R235): after one has ended early, or has come to take longer. -/
def State.replan (s : State) : State :=
  let (t, free) := s.waiters.foldl State.replanOne (s, (List.range 12).map s.busyTo)
  { t with tiers := { t.tiers with stackFree := free } }.retimePasses

/-! ### Tier H (R223, R229) -/

/-- First byte, size in bytes and rate of a partition's tier H area. -/
def State.hBase (s : State) (p : Nat) : Nat := (s.reg64 (Reg.tierHBaseLo + 16 * p) (Reg.tierHBaseHi + 16 * p)).toNat
def State.hSize (s : State) (p : Nat) : Nat := 1048576 * (s.reg (Reg.tierHSize + 16 * p)).toNat
def State.hRate (s : State) (p : Nat) : Nat := s.regFld (Reg.tierHRate + 16 * p) 0 9

/-- Key of a tile's write count. -/
def hKey (handle index : Nat) : Nat := handle * 4294967296 + index

/-- Places in a partition's tier H area that are taken: offset and length. -/
def State.hTaken (s : State) (p : Nat) : List (Nat × Nat) :=
  s.tiers.hPlaces.filterMap fun e => if e.1 / 4294967296 / 67108864 = p then e.2 else none

/-- The place of a sealed tile of `n` bytes: the one that it has, else one on a 64-byte boundary that lies inside the area, apart from every
other tile (R226). Which one is open: a free choice where it is allowed, else the first that is (log entry 3). -/
def State.hPlaceFor (s : State) (handle index n : Nat) : Option Nat :=
  match Sparse.get (fun _ => none) s.tiers.hPlaces (hKey handle index) with
  | some e => some e.1
  | none =>
    let p := handle / 67108864
    let taken := s.hTaken p
    let ok := fun a : Nat => decide (a + n ≤ s.hSize p) && taken.all fun e => decide (a + n ≤ e.1) || decide (e.1 + e.2 ≤ a)
    (64 * Config.hPlace handle index :: 0 :: taken.map fun e => 64 * cdiv (e.1 + e.2) 64).find? ok

/-- A tile is written to tier H (R229): its write count rises, and the sealed tile goes to its place in the partition's area. -/
def State.sealTile (s : State) (handle index : Nat) (packed : Blob) : State :=
  let p := handle / 67108864
  let n := Sparse.get (fun _ => 0) s.tiers.hWrites (hKey handle index)
  let s := { s with tiers := { s.tiers with hWrites := Sparse.set (fun _ => 0) s.tiers.hWrites (hKey handle index) (n + 1) } }
  match (s.sec.part.getD p { imp := none, generating := false, tierH := none }).tierH, s.hPlaceFor handle index (packed.length + 64) with
  | some key, some a =>
    let iv := leBytes 4 handle ++ leBytes 4 index ++ leBytes 4 (n + 1)
    let (ct, tag) := gcmSeal key iv [] packed
    let s := { s with tiers := { s.tiers with
      hPlaces := Sparse.set (fun _ => none) s.tiers.hPlaces (hKey handle index) (some (a, packed.length + 64)) } }
    s.hostWrite (s.hBase p + a) (ct ++ iv ++ tag ++ List.replicate 36 0)
  | _, _ => s

/-- A tile of an object has been written to tier H as often as its write count can say: it stays in tier S (R459). -/
def State.hSpent (s : State) (handle n : Nat) : Bool :=
  (List.range n).any fun i => Sparse.get (fun _ => 0) s.tiers.hWrites (hKey handle i) = 4294967295

/-- A sealed tile, read from tier H: the packed tile, or none where its tag fails (R223, R229). -/
def State.openTile (s : State) (handle index : Nat) : Option Blob :=
  let p := handle / 67108864
  match (s.sec.part.getD p { imp := none, generating := false, tierH := none }).tierH, Sparse.get (fun _ => none) s.tiers.hPlaces (hKey handle index) with
  | some key, some (a, n) =>
    let bs := (List.range n).map fun j => (s.hostByte (s.hBase p + a + j)).getD 0
    gcmOpen key (slice bs (n - 64) 12) [] (bs.take (n - 64)) (slice bs (n - 52) 16)
  | _, _ => none

/-- The tiles of an object no longer stand in tier H: their places are free. Their write counts stay, so that no IV comes again under one
key (R229). -/
def State.freeH (s : State) (gone : Nat → Nat → Bool) : State :=
  { s with tiers := { s.tiers with hPlaces := Sparse.drop s.tiers.hPlaces fun k => gone (k / 4294967296) (k % 4294967296) } }

/-! ### Objects and handles (R224) -/

/-- Numbers of an owner's objects. A gradient slice keeps the 64 numbers of its matrix's slices of one batch (R325, R350). -/
def State.objNumbers (s : State) (o : Nat) : List Nat :=
  s.tiers.objs.flatMap fun e =>
    match e.2 with
    | some x =>
      if e.1 / 67108864 ≠ o then []
      else if x.kind = .other then (List.range 64).map fun i => e.1 % 67108864 + i
      else [e.1 % 67108864]
    | none => []

/-- The lowest number from `n` on that is not in a list, over `k` numbers. -/
def freeFrom (used : List Nat) (n : Nat) : Nat → Nat
  | 0 => n
  | k + 1 => if used.contains n then freeFrom used (n + 1) k else n

/-- `n` successive unused handles of an owner. The spec does not say which numbers the device gives its objects: the first is a
free value, moved up past numbers in use (log entry 3). -/
def State.newHandles (s : State) (o n : Nat) : List Nat × State :=
  let (w, s) := s.draw32
  let used := s.objNumbers o
  let run := fun a : Nat => (List.range n).all fun i => !used.contains (a + i)
  let a := w.toNat % 33554432
  let first := if run a then a else used.foldl max 0 + 1
  ((List.range n).map fun i => o * 67108864 + first + i, s)

/-- Bytes of a packed tile of an object. -/
def Obj.tileBytes (o : Obj) : Nat := packedSize o.fmt o.blk

/-- Bytes of an object's tiles. -/
def Obj.bytes (o : Obj) : Nat := o.tiles.length * o.tileBytes

/-- A packed tile, unpacked into an engine-ready one with its tag line (R226-R228). -/
def readyTile (fmt blk rows cols handle index fn : Nat) (packed : Blob) : Blob :=
  tagLine fmt blk rows cols 0 handle index fn 0 0 0 ++ (padTo (packedSize fmt blk) packed).take (packedSize fmt blk)

/-! ### Tints in their slots (R288, R293, R295) -/

/-- Shapes of a component's matrices: (rows, columns), in the order of Table 12.1. -/
def State.compShapes (s : State) (c : Component) : List (Nat × Nat) :=
  match s.plate.plate with
  | none => []
  | some p =>
    let (inDim, outDim) := p.points.getD c.point (0, 0)
    match c.kind with
    | 1 => [(c.rank, inDim), (outDim, c.rank)]
    | 2 => [(1, outDim)]
    | 3 => [(64 * (p.layers.getD c.layer p.embed).expertTiles, 64), (1, p.dModel)]
    | 4 => [(c.rows, p.dModel)]
    | _ => []

/-- Tiles of a matrix. -/
def shapeTiles (d : Nat × Nat) : Nat := cdiv d.1 64 * cdiv d.2 64

/-- Valid rows and columns of tile `i` of a run of matrices. -/
def tileShape : List (Nat × Nat) → Nat → Nat × Nat
  | [], _ => (64, 64)
  | d :: ds, i =>
    if i < shapeTiles d then
      let cols := cdiv d.2 64
      (min 64 (d.1 - 64 * (i / cols)), min 64 (d.2 - 64 * (i % cols)))
    else tileShape ds (i - shapeTiles d)

/-- Components that enter the hot slot: all but EMBED (R293). -/
def Tint.hotComps (t : Tint) : List Component := t.comps.filter fun c => decide (c.kind ≠ 4)

/-- Tiles of a tint in its hot slot, in order: component and tile index. -/
def Tint.hotTiles (t : Tint) : List (Component × Nat) := t.hotComps.flatMap fun c => (List.range c.tiles).map fun i => (c, i)

/-- Engine-ready bytes of a tint in its slot. -/
def Tint.hotBytes (t : Tint) : Nat := (t.hotComps.map fun c => c.tiles * readySize c.fmt c.blk).sum

/-- Offset of a component in the slot: its components stand in order, one behind the other. -/
def compOffset : List Component → Component → Nat
  | [], _ => 0
  | c :: cs, x => if c = x then 0 else c.tiles * readySize c.fmt c.blk + compOffset cs x

/-- Tier F address of a tile of a tint in its slot, if it has one. -/
def State.hotTileAt (s : State) (t : Nat) (c : Component) (i : Nat) : Option Nat :=
  (s.slotRun t).map fun r => r.1 + compOffset (s.tintOf t).hotComps c + i * readySize c.fmt c.blk

/-! ### The reels (R237-R241, R547) -/

/-- Layer that a reel fetches in the present frame (R547). -/
def State.reelTarget (s : State) (rev : Bool) : Nat := s.layerAt rev ((s.player.reelPos + 1) % max 1 s.layerCount)

/-- A buffer receives a layer in the present frame: its fetch began in it. -/
def State.bufBegun (s : State) (i l : Nat) : Bool := (s.buf i).layer = some l && decide (s.tbm.tLast.toNat ≤ (s.buf i).startTb)

/-- The buffer of a reel that R28 frees: the one that receives the layer already, else the one that does not hold the present frame's
layer; where both hold it (a plate of one layer), the one that was fetched first. -/
def State.reelBuffer (s : State) (rev : Bool) : Nat :=
  let ids := bufsOf rev
  let now := s.layerAt rev s.player.reelPos
  match ids.find? fun i => s.bufBegun i (s.reelTarget rev) with
  | some i => i
  | none => match ids.find? fun i => (s.buf i).layer ≠ some now with
    | some i => i
    | none => if (s.buf (ids.getD 1 0)).startTb < (s.buf (ids.getD 0 0)).startTb then ids.getD 1 0 else ids.getD 0 0

/-- Stripes of a plate part (R239). -/
def PlatePart.stripes (p : PlatePart) : Nat := cdiv p.tiles 11

/-- Duration of fetching `n` stripes of packed tile size `t` (R241). -/
def State.fetchNs (s : State) (n t : Nat) : Nat := cdiv ((if s.tiers.rebuild then 24 else 12) * n * t) 2048

/-- Stack of the parity tile of stripe `k` of layer `l`, and of its data tile `j` (R239). -/
def parityStack (l k : Nat) : Nat := (l + k) % 12
def dataStack (l k j : Nat) : Nat := (l + k + 1 + j) % 12

/-- Data tile `j` of stripe `k` of a part: a zero tile beyond its last (R239). -/
def PlatePart.stripeTile (p : PlatePart) (k j : Nat) : Blob :=
  let n := packedSize p.fmt p.blk
  if 11 * k + j < p.tiles then (padTo n (p.data.getD (11 * k + j) [])).take n else List.replicate n 0

/-- XOR of some data tiles of a stripe. -/
def PlatePart.xorOf (p : PlatePart) (k : Nat) (js : List Nat) : Blob :=
  js.foldl (fun a j => xorBytes a (p.stripeTile k j)) (List.replicate (packedSize p.fmt p.blk) 0)

/-- The parity tile of stripe `k` (R239). -/
def PlatePart.parity (p : PlatePart) (k : Nat) : Blob := p.xorOf k (List.range 11)

/-- Data tile `j` of stripe `k`, rebuilt from the other eleven tiles of the stripe (R244). -/
def PlatePart.rebuilt (p : PlatePart) (k j : Nat) : Blob := xorBytes (p.parity k) (p.xorOf k ((List.range 11).filter fun i => i ≠ j))

/-- Data tile `j` of stripe `k` of layer `l` as a fetch reads it: rebuilt where its stack is lost (R240, R244). -/
def State.fetchTile (s : State) (l : Nat) (p : PlatePart) (k j : Nat) : Blob :=
  if s.stackLive (dataStack l k j) then p.stripeTile k j else p.rebuilt k j

/-- Handle of the mirrored object that holds a layer in a full-parameter run, if one does (R344). -/
def State.layerObject (s : State) (l : Nat) : Option Nat :=
  if l < s.layerCount ∧ (s.obj (32 * 67108864 + 2 * l)).isSome then some (32 * 67108864 + 2 * l) else none

/-- Data tiles of some stripes that lie on a stack that is lost (R244). -/
def State.lostTiles (s : State) (l : Nat) (p : PlatePart) (ks : List Nat) : Nat :=
  if (s.layerObject l).isSome then 0 else
  (ks.map fun k => ((List.range 11).filter fun j => decide (11 * k + j < p.tiles) && !s.stackLive (dataStack l k j)).length).sum

/-- A layer reaches its buffer as engine-ready tiles (R240). Plate tiles lie outside any object's range: handle 0. -/
def State.writeLayer (s : State) (b l : Nat) (p : PlatePart) : State :=
  s.each (List.range p.tiles) fun s i =>
    s.writeF (s.bufBase b + i * readySize p.fmt p.blk) (readyTile p.fmt p.blk 64 64 0 i s.fnNat (s.fetchTile l p (i / 11) (i % 11)))

/-- End of the house segment of the present frame, as TB: to it a buffer that the frame before presented is kept (R28). -/
def State.houseEnd (s : State) : Nat := s.tbm.tLast.toNat + s.houseNs s.tbm.active.toNat

/-- Runs of tier F that a buffer's layer takes. -/
def State.bufRun (s : State) (b : Nat) (p : PlatePart) : List (Nat × Nat) := [(s.bufBase b, p.tiles * readySize p.fmt p.blk)]

/-- Stripes of a layer are fetched into buffer `b` (R28, R235, R240, R241, R244): the transfer starts when every stack is free and the
buffer may be overwritten. The packers write the window on port 1 meanwhile (R253). -/
def State.fetchStripes (s : State) (b : Nat) (l : PlatePart) (ks : List Nat) (first : Bool) : State :=
  let start := max (s.stacksFrom s.liveStacks) s.houseEnd
  let end_ := start + s.fetchNs ks.length (packedSize l.fmt l.blk)
  let x := s.buf b
  let s := s.setBuf b { x with stripes := x.stripes ++ ks, startTb := if first then start else x.startTb, endTb := max x.endTb end_ }
  let s := s.usePort (mkUse Rq.packer 32 true (s.bufRun b l) (105 * start) (105 * end_))
  s.holdStacks s.liveStacks end_

/-- Every bank of some runs is ON and open to played accesses (R256, R260). -/
def State.accessBanks (s : State) (runs : List (Nat × Nat)) : Bool :=
  (runBanks runs).all fun b => decide (b < 1536) && (s.bank b).state = .on && (s.bank b).usable

/-- What a REEL shot does (R28, R240, R547): stripes first to first + count - 1 of the reel's layer, cut at the last stripe, go to
the freed buffer. A layer that the other reel fetches or holds is not fetched again; in resident mode nothing is fetched. A buffer in a bank
that is not ON is an access fault (R260). -/
def State.playReel (s : State) (o : Nat) (d : Shot) : State :=
  match s.plate.plate with
  | none => s
  | some p =>
    let rev := d.mReverse
    let l : Nat := s.reelTarget rev
    let other := (bufsOf (!rev)).any fun i => s.bufBegun i l && !(s.buf i).stripes.isEmpty
    if p.resident || (decide (s.reelTarget (!rev) = l) && other) then s
    else
      let part := p.layers.getD l p.embed
      let b := s.reelBuffer rev
      let fresh := !s.bufBegun b l
      if !(s.accessBanks (s.bufRun b part)) then s.fenceSheet o 4 else
      let s := if fresh then
          s.setBuf b { s.buf b with layer := some l, stripes := [], ready := false, misses := 0, startTb := s.now, endTb := 0 } else s
      let ks := ((List.range (min d.mCount part.stripes)).map fun i => d.mFirst + i).filter fun k =>
        decide (k < part.stripes) && !(s.buf b).stripes.contains k
      if ks.isEmpty then s else s.fetchStripes b part ks (s.buf b).stripes.isEmpty

/-- REEL (R547). -/
def execReel (owner idx : Nat) (s : State) : Out :=
  .next (s.playM owner idx MOp.reel fun s x c => s.playReel owner (x.shot c))

/-- The buffer of a reel that has a layer with every stripe fetched and not yet judged. -/
def State.arrived (s : State) (rev : Bool) : Option Nat :=
  match s.plate.plate with
  | none => none
  | some p => (bufsOf rev).find? fun i =>
    let b := s.buf i
    match b.layer with
    | some l => !b.ready && decide ((p.layers.getD l p.embed).stripes ≤ b.stripes.length)
    | none => false

/-- A stack is lost in the midst of fetches (R244): a fetch in progress restarts at once from its first stripe in rebuild mode, one that
waits takes its time in rebuild mode, and what waits behind them starts later. -/
def State.restartFetches (s : State) : State :=
  match s.plate.plate with
  | none => s
  | some p =>
    let f := fun (b : LayerBuf) =>
      if !b.fetching s.now then b
      else
        let l := p.layers.getD (b.layer.getD 0) p.embed
        let start := max s.now b.startTb
        { b with startTb := start, endTb := start + s.fetchNs b.stripes.length (packedSize l.fmt l.blk) }
    { s with tiers := { s.tiers with bufs := s.tiers.bufs.map f } }.replan

/-! ### Access of the movers (R260) -/

/-- Place and length of the tier F area of an M shot. -/
def State.mArea (s : State) (o : Nat) (c : Cue) (d : Shot) : Place × Nat := (s.resolve (s.cueBinding o c) d.mRef, 64 * d.mLen)

/-! ### Sessions' K and V objects (R224, R247, R248) -/

/-- Format and blk code of KV tiles: a format that Table 5.11 permits; the manifest names none (R247; log entry 3). -/
def kvForm : Nat × Nat :=
  let f := [0, 2, 4, 5, 6, 7, 8, 9, 10].getD (Config.kvFormat % 9) 6
  -- a stored FP4 tensor carries scales (R158)
  (f, if f = 2 then 1 + Config.kvBlk % 4 else Config.kvBlk % 5)

/-- Tile columns of a K or V object: its channels over 64 (R247). -/
def State.kvCols (s : State) : Nat := match s.plate.plate with | some p => cdiv p.kvCh 64 | none => 0

/-- Tiles of one extent of one K or V object, and of a session's extent: K and V of every layer (R247). -/
def State.extentOf (s : State) : Nat := 64 * s.kvCols
def State.extentTiles (s : State) : Nat := 2 * s.layerCount * s.extentOf

/-- Bytes of a session's extent in tier S, and in tier H. -/
def State.extentBytes (s : State) : Nat := s.extentTiles * packedSize kvForm.1 kvForm.2
def State.extentSealed (s : State) : Nat := s.extentTiles * (packedSize kvForm.1 kvForm.2 + 64)

/-- The session opens its K and V objects, a pair for each layer, and its carried state, all on its home stack, and with no position held:
tiles are cleared to zero (R224, R232, R247). -/
def State.openKv (s : State) (c p home : Nat) : State × List (Nat × Nat) × Option Nat :=
  let n := s.layerCount
  let (hs, s) := s.newHandles p (2 * n + 1)
  let o : Obj := { kind := .kvExtent, of := c, home := .s, stack := home, mirror := none, fmt := kvForm.1, blk := kvForm.2, tiles := [],
                   written := s.tbm.fn, move := none }
  let s := s.each (hs.take (2 * n)) fun s h => s.setObj h (some o)
  let k := hs.getD (2 * n) 0
  let s := s.setObj k (some { o with kind := .carried, tiles := [List.replicate o.tileBytes 0] })
  (s, (List.range n).map fun l => (hs.getD (2 * l) 0, hs.getD (2 * l + 1) 0), some k)

/-- Handles of a session's objects. -/
def Ses.objects (x : Ses) : List Nat := x.kv.flatMap (fun e => [e.1, e.2]) ++ x.carried.toList

/-- Tiles of an extent of a session, in order of layer, K before V: handle and tile index. -/
def State.extentRun (s : State) (x : Ses) (e : Nat) : List (Nat × Nat) :=
  x.kv.flatMap fun h => [h.1, h.2].flatMap fun k => (List.range s.extentOf).map fun i => (k, e * s.extentOf + i)

/-- A tile of a K or V object stands in tier H: its extent does (R248). -/
def State.kvInH (s : State) (x : Ses) (i : Nat) : Bool := decide (i < x.hExt * s.extentOf)

/-- Valid rows and columns of tile `i` of a K or V object of a session that holds `n` positions. -/
def State.kvShape (s : State) (n i : Nat) : Nat × Nat :=
  let c := i % max 1 s.kvCols
  let ch := match s.plate.plate with | some p => p.kvCh | none => 64
  (min 64 (n - 64 * (i / max 1 s.kvCols)), min 64 (ch - 64 * c))

/-- Tiles of a layer that hold a session's positions, K before V: handle and tile index (R249). -/
def State.layerKv (s : State) (x : Ses) (l : Nat) : List (Nat × Nat) :=
  match x.kv[l]? with
  | none => []
  | some h => [h.1, h.2].flatMap fun k => (List.range (cdiv x.positions 64 * s.kvCols)).map fun i => (k, i)

/-- Sessions that a binding serves, each once. -/
def State.boundSes (s : State) (b : Binding) : List Nat :=
  dedup (b.items.filterMap fun k => match s.item? k with
    | some i => if i.serves then some i.ctxNo else none
    | none => none)

/-- Token IDs that an item puts into its bay (R304): a step's own, a prefill's, or the present segment's of a sample. -/
def Item.tokenIds (i : Item) (rows : Nat) : List Nat :=
  if i.op = 1 then [i.field 0x14 4]
  else if i.op = 2 then i.ids
  else (i.ids.drop ((if i.stage < i.segs then i.stage else 2 * i.segs - 1 - i.stage) * rows)).take rows

/-- The layer that a bay's GATHER or SCATTER works for: that of the reel position, or in resident mode, where a frame passes every layer,
the next one for each such cue of the bay in the frame (R249; DEDUCED, log entry 57). -/
def State.bayLayer (s : State) (o idx op bay : Nat) : Nat :=
  if !s.isResident then s.player.reelPos
  else
    match s.playing o with
    | none => 0
    | some x => ((s.ctx o).started.filter fun e => e.1 = .m && e.2.1 ≠ idx && match x.cue? .m e.2.1 with
        | some c => (x.shot c).op = op && (x.shot c).mBay = bay
        | none => false).length % max 1 s.layerCount

/-- The binding of the bay that a GATHER or SCATTER names (R234): a retake cue's is that of its slot. -/
def State.moveBinding (s : State) (o : Nat) (c : Cue) (d : Shot) : Option Binding :=
  if c.retake then s.cueBinding o c else if d.mBay = 63 then none else (s.ctx o).bindings.find? fun b => b.bay = d.mBay

/-! ### Transfers of the movers (R235, R236) -/

/-- Cumulative times of a run of tiles: (handle, index, bytes on a stack, bytes on tier H) of each. -/
def cumTiles : Nat → Nat → List (Nat × Nat × Nat × Nat) → List (Nat × Nat × Nat × Nat)
  | _, _, [] => []
  | a, b, e :: es => (e.1, e.2.1, a + e.2.2.1, b + e.2.2.2) :: cumTiles (a + e.2.2.1) (b + e.2.2.2) es

/-- Starts a mover: its part on the stacks when they are free, its part on tier H behind the partition's other transfers there (R235). -/
def State.startMover (s : State) (o i op tint : Nat) (ks : List Nat) (rate : Nat) (tiles : List (Nat × Nat × Nat × Nat)) : State :=
  if tiles.isEmpty then s
  else
    let h := (tiles.getLastD (0, 0, 0, 0)).2.2.2
    let hs := max s.now (s.tiers.hFree.getD o 0)
    let m : Mover := { owner := o, cue := i, op := op, startTb := s.stacksFrom ks, hStart := hs, onStacks := ks, tint := tint, rate := rate,
                       tiles := tiles, until_ := none }
    let s := { s with tiers := { s.tiers with running := s.tiers.running ++ [m],
                                              hFree := if h = 0 || rate = 0 then s.tiers.hFree else s.tiers.hFree.set o (hs + cdiv h rate) } }
    s.holdStacks ks m.stackEnd

/-- Tiles that move on their stacks, each stack's share in its own turn, and tiles of tier H beside them (R249). A tile is given by handle,
index, stacks that read or write it, packed bytes, and bytes on tier H. -/
def State.startShares (s : State) (o i op : Nat) (rate : Nat) (ts : List (Nat × Nat × List Nat × Nat × Nat)) : State :=
  let s := s.each (List.range 12) fun s n =>
    s.startMover o i op 0 [n] 0 (cumTiles 0 0 ((ts.filter fun e => e.2.2.1.contains n).map fun e => (e.1, e.2.1, e.2.2.2.1, 0)))
  s.startMover o i op 0 [] rate (cumTiles 0 0 ((ts.filter fun e => e.2.2.1.isEmpty).map fun e => (e.1, e.2.1, 0, e.2.2.2.2)))

/-! ### GATHER (R228, R234, R235, R242, R249) -/

/-- Tiles of the embedding table and of the bound tint's added rows that a bay's tokens name, as handle and index; the plate's have handle
0 (R242, R304). -/
def State.embedTiles (s : State) (b : Binding) (rows : Nat) : List (Nat × Nat) :=
  match s.plate.plate with
  | none => []
  | some p =>
    let cols := cdiv p.dModel 64
    let ids := dedup (b.items.flatMap fun k => match s.item? k with | some i => i.tokenIds rows | none => [])
    let table := dedup (ids.filterMap fun t => if t < p.vocab then some (t / 64) else none)
    let added := dedup (ids.filterMap fun t => if t < p.vocab then none else some ((t - p.vocab) / 64))
    let own := ((s.tintOf b.tint).comps.find? fun c => decide (c.kind = 4)).map fun c => c.handle
    (table.flatMap fun r => (List.range cols).map fun c => (0, r * cols + c)) ++
      (match own with
       | some h => added.flatMap fun r => (List.range cols).map fun c => (h, r * cols + c)
       | none => [])

/-- What a bay's GATHER brings: the KV tiles of the layer of every bound token's session, and in streamed mode, in a frame at reel position
0, the embedding rows. -/
def State.gatherList (s : State) (b : Binding) (rows l : Nat) : List (Nat × Nat) :=
  ((s.boundSes b).flatMap fun c => s.layerKv (s.sesOf c) l) ++ (if s.isResident || s.player.reelPos ≠ 0 then [] else s.embedTiles b rows)

/-- Stacks that read a tile of a GATHER, its packed bytes, and its bytes on tier H. A tile of the embedding table whose stack is lost is
rebuilt from the other eleven (R244). -/
def State.tileCost (s : State) (e : Nat × Nat) : List Nat × Nat × Nat :=
  if e.1 = 0 then
    match s.plate.plate with
    | none => ([], 0, 0)
    | some p =>
      let l := p.layers.length
      let n := dataStack l (e.2 / 11) (e.2 % 11)
      (if s.stackLive n then [n] else s.liveStacks, packedSize p.embed.fmt p.embed.blk, 0)
  else match s.obj e.1 with
    | none => ([], 0, 0)
    | some o =>
      if o.kind = .kvExtent && s.kvInH (s.sesOf o.of) e.2 then ([], 0, o.tileBytes + 64)
      else ([o.stack], o.tileBytes, 0)

/-- Bytes that an engine-ready tile of a GATHER takes in the stage area. -/
def State.readyBytes (s : State) (e : Nat × Nat) : Nat :=
  if e.1 = 0 then (match s.plate.plate with | some p => readySize p.embed.fmt p.embed.blk | none => 0)
  else match s.obj e.1 with | some o => readySize o.fmt o.blk | none => 0

/-- Where the tiles of a GATHER come to lie: one behind the other, in an order that the spec leaves open (log entry 3). -/
def stageOrder (ts : List (Nat × Nat)) : List (Nat × Nat) := sortBy (fun e => Config.stageKey e.1 e.2) ts

/-- Offset of a tile in a run of tiles that lie one behind the other. -/
def State.stageOffset (s : State) : List (Nat × Nat) → Nat × Nat → Option Nat
  | [], _ => none
  | x :: xs, e => if x = e then some 0 else (s.stageOffset xs e).map fun n => s.readyBytes x + n

/-- The tiles that a GATHER shot brings, cut by first and count, in order. -/
def State.gatherTiles (s : State) (o idx : Nat) (x : Sheet) (d : Shot) (b : Binding) : List (Nat × Nat) :=
  ((s.gatherList b (x.bayRows b.bay) (s.bayLayer o idx MOp.gather d.mBay)).drop d.mFirst).take d.mCount

/-- GATHER (R228, R234, R235, R242, R249): the transfer of a bay's KV tiles and embedding rows starts; the tiles reach the stage area by
the cue's end. -/
def execGather (owner idx : Nat) (s : State) : Out :=
  .next (s.playM owner idx MOp.gather fun s x c =>
    let d := x.shot c
    let (p, len) := s.mArea owner c d
    if !s.accessOk owner true p len then s.fenceSheet owner 4
    else match s.moveBinding owner c d with
    | none => s
    | some b =>
      let ts := s.gatherTiles owner idx x d b
      let s := s.startShares owner idx MOp.gather (s.hRate owner) (ts.map fun e => let k := s.tileCost e; (e.1, e.2, k.1, k.2.1, k.2.2))
      let cyc := ((s.ctx owner).startOf .m idx).getD 0
      s.usePort (mkUse Rq.mover owner true (p.run len) (s.cycleT owner cyc) (s.cycleT owner (cyc + c.dur))))

/-- A tile of a GATHER in packed form, with its format, blk code and valid region; none where its seal fails (R223, R229). -/
def State.gathered (s : State) (e : Nat × Nat) : Option (Blob × Nat × Nat × Nat × Nat) :=
  if e.1 = 0 then
    match s.plate.plate with
    | none => none
    | some p => some (s.fetchTile p.layers.length p.embed (e.2 / 11) (e.2 % 11), p.embed.fmt, p.embed.blk, 64, 64)
  else match s.obj e.1 with
    | none => none
    | some o =>
      if o.kind = .kvExtent then
        let x := s.sesOf o.of
        let (r, k) := s.kvShape x.positions e.2
        (if s.kvInH x e.2 then s.openTile e.1 e.2 else some (o.tiles.getD e.2 [])).map fun t => (t, o.fmt, o.blk, r, k)
      else some (o.tiles.getD e.2 [], o.fmt, o.blk, 64, 64)

/-- A tile of a GATHER arrives in the stage area, engine-ready, if it has room there. -/
def State.landTile (s : State) (p : Place) (len : Nat) (order : List (Nat × Nat)) (e : Nat × Nat) : State :=
  match s.gathered e, s.stageOffset order e with
  | some (t, fmt, blk, r, k), some off =>
    if off + readySize fmt blk ≤ len then s.writeAt (p.plus off) (readyTile fmt blk r k e.1 e.2 s.fnNat t) else s
  | _, _ => s

/-! ### Extents and SCATTER (R235, R248, R249) -/

/-- Positions that a serve item writes: one for a step, the segment's count for a prefill. -/
def Item.positions (i : Item) : Nat := if i.op = 2 then i.field 0x1C 4 else 1

/-- Extents of a session that holds `n` positions (R247, R248): at most 4,096. -/
def extentsAt (n : Nat) : Nat := min 4096 (n / 4096 + 1)

/-- Closed extents of a session that stay in tier S (R231, R248). -/
def Ses.keeps (x : Ses) (closed : Nat) : Nat := if x.sExtents = 0 then (if x.cold then 0 else closed) else min closed x.sExtents

/-- Bytes of tier H that a partition's objects and its sessions' extents take, sealed, or are to take (R229, R233). -/
def State.hUsed (s : State) (p : Nat) : Nat :=
  (s.tiers.objs.map fun e => match e.2 with
    | some o =>
      let there := o.home = .h || (match o.move with | some m => decide (m.target = .h) | none => false)
      if e.1 / 67108864 = p && there then o.tiles.length * (o.tileBytes + 64) else 0
    | none => 0).sum + (s.ses.map fun e => if e.2.owner = p then (e.2.hExt + e.2.hQueued) * s.extentSealed else 0).sum

/-- Closed extents that stand in tier H, or go there, once the session has `total` extents: oldest first, as many as its placement asks
for and tier H has room for (R233, R248). -/
def State.hWanted (s : State) (x : Ses) (total : Nat) : Nat :=
  let closed := total - 1
  let room := if s.extentSealed = 0 then 0 else (s.hSize x.owner - s.hUsed x.owner) / s.extentSealed
  min (closed - x.keeps closed) (x.hExt + x.hQueued + room)

/-- The moves of a session's extents follow its placement word (R225, R231, R248): closed extents beyond those it keeps queue for tier H,
and extents of tier H that it is to keep in tier S queue to come back, the newest first. -/
def State.placeExtents (s : State) (c total : Nat) : State :=
  let x := s.sesOf c
  let want := s.hWanted x total
  let back := x.hExt - want
  s.setSes c { x with sExt := total - x.hExt, hQueued := want - x.hExt, hCopied := if want ≤ x.hExt then 0 else x.hCopied,
                      sQueued := back, sCopied := if back = 0 then 0 else x.sCopied }

/-- Extents of a session after it holds `n` positions: one that is full gives way to a new open one in tier S, and closed extents beyond
those that its placement keeps queue for tier H. -/
def State.growExtents (s : State) (c n : Nat) : State := s.placeExtents c (max (extentsAt n) ((s.sesOf c).sExt + (s.sesOf c).hExt))

/-- A row of a packed tile takes new bytes, its scales with it; what they are is open (log entry 3). -/
def freshRow (fmt blk f : Nat) (tile : Blob) (r : Nat) : Blob :=
  let n := packedSize fmt blk
  let bytes := fun (g k : Nat) => ((List.range (cdiv k 4)).flatMap fun i => leBytes 4 (Config.free32 (g + i)).toNat).take k
  let patch := fun (bs : Blob) (off : Nat) (new : Blob) => bs.take off ++ new ++ bs.drop (off + new.length)
  let sc := scalesPerRow blk
  let t := (padTo n tile).take n
  let t := patch t (r * sc) (bytes f sc)
  patch t (64 * sc + r * rowBytes fmt) (bytes (f + cdiv sc 4) (rowBytes fmt))

/-- Free values that a new row of a KV tile takes. -/
def rowDraws (fmt blk : Nat) : Nat := cdiv (scalesPerRow blk) 4 + cdiv (rowBytes fmt) 4

/-- A session's position is written in one tile of a K or V object (R249). -/
def State.scatterRow (s : State) (h n c : Nat) : State :=
  match s.obj h with
  | none => s
  | some o =>
    let i := n / 64 * s.kvCols + c
    let ts := o.tiles ++ List.replicate (i + 1 - o.tiles.length) (List.replicate o.tileBytes 0)
    let ts := ts.set i (freshRow o.fmt o.blk s.free (ts.getD i []) (n % 64))
    { s with free := s.free + rowDraws o.fmt o.blk }.setObj h (some { o with tiles := ts, written := s.tbm.fn })

/-- A session's new K and V rows of a layer go to its open extent, and its carried state to its home stack (R249). Where they lie in the
stage area, and so what they are, the spec leaves to the sheet: free bytes. -/
def State.scatterSes (s : State) (c l count : Nat) : State :=
  let x := s.sesOf c
  let s := match x.kv[l]? with
    | none => s
    | some h => s.each (List.range count) fun s j => s.each [h.1, h.2] fun s k => s.each (List.range s.kvCols) fun s q => s.scatterRow k (x.positions + j) q
  match x.carried with
  | none => s
  | some k => match s.obj k with
    | some o =>
      let n := cdiv o.tileBytes 4
      let bs := ((List.range n).flatMap fun i => leBytes 4 (Config.free32 (s.free + i)).toNat).take o.tileBytes
      { s with free := s.free + n }.setObj k (some { o with tiles := [bs], written := s.tbm.fn })
    | none => s

/-- Tiles that a bay's SCATTER writes: those that take its sessions' new positions, and the carried state. -/
def State.scatterTiles (s : State) (b : Binding) (l : Nat) : List (Nat × Nat × List Nat × Nat × Nat) :=
  b.items.flatMap fun k => match s.item? k with
    | none => []
    | some i =>
      if !i.serves then []
      else
        let x := s.sesOf i.ctxNo
        let rows := (List.range ((x.positions + i.positions - 1) / 64 + 1 - x.positions / 64)).map fun r => x.positions / 64 + r
        let kv := match x.kv[l]? with
          | none => []
          | some h => [h.1, h.2].flatMap fun q => rows.flatMap fun r => (List.range s.kvCols).map fun c => (q, r * s.kvCols + c)
        (kv ++ x.carried.toList.map fun q => (q, 0)).map fun e => (e.1, e.2, [x.home], packedSize kvForm.1 kvForm.2, 0)

/-- SCATTER (R234, R235, R248, R249, R260): a bay's new KV rows and carried state go to their home tiers; at the last layer of a passage
the extents of each session grow with the positions written. -/
def execScatter (owner idx : Nat) (s : State) : Out :=
  .next (s.playM owner idx MOp.scatter fun s x c =>
    let d := x.shot c
    let (p, len) := s.mArea owner c d
    -- a mover reads no shared bank of another owner (R259)
    if !s.accessOk owner true p len then s.fenceSheet owner 4
    else match s.moveBinding owner c d with
      | none => s
      | some b =>
        let cyc := ((s.ctx owner).startOf .m idx).getD 0
        let s := s.usePort (mkUse Rq.mover owner false (p.run len) (s.cycleT owner cyc) (s.cycleT owner (cyc + c.dur)))
        let s := s.shotRead owner c (p.run len)
        let l := s.bayLayer owner idx MOp.scatter d.mBay
        let ts := ((s.scatterTiles b l).drop d.mFirst).take d.mCount
        let s := s.startShares owner idx MOp.scatter 0 ts
        let last := if s.isResident then l + 1 = s.layerCount else s.player.reelPos + 1 = s.layerCount
        s.each b.items fun s k =>
        match s.item? k with
        | some i =>
          if i.serves then
            let s := s.scatterSes i.ctxNo l i.positions
            if last then s.growExtents i.ctxNo ((s.sesOf i.ctxNo).positions + i.positions) else s
          else s
        | none => s)

/-! ### Moves (R225, R235, R236, R245, R248) -/

/-- Stacks that a queued move uses: where the object is read, and where it goes. -/
def Obj.moveStacks (o : Obj) (m : Move) : List Nat :=
  (if o.home = .s then [o.stack] else []) ++ (if m.target = .s then [m.stack] else [])

/-- An object's tiles are being written (R225): in the present frame, by a pass of an update engine, or by its registration. -/
def State.beingWritten (s : State) (h : Nat) (o : Obj) : Bool :=
  o.written = s.tbm.fn || (s.upd.any fun u => u.running && match u.queue with
    | c :: _ => fld c (8 * 8) 32 = h || fld c (8 * 0x0C) 32 = h
    | [] => false) ||
  s.tints.any fun e => e.2.state = .registering && e.2.comps.any fun c => decide (c.handle ≤ h) && decide (h < c.handle + 4)

/-- The object belongs to a partition that is torn down (R407). -/
def State.tearingObj (s : State) (h : Nat) : Bool :=
  let p := h / 67108864
  decide (p < 32) && ((s.part p).state = .tearing || (s.part p).state = .queuedOn)

/-- Tiles of a session's extents that are queued to move, in order, with the way: true to tier H. -/
def State.extentMoves (s : State) (x : Ses) : List (Nat × Nat) × Bool :=
  if 0 < x.sQueued then
    (((List.range x.sQueued).flatMap fun j => s.extentRun x (x.hExt - 1 - j)).drop x.sCopied, false)
  else (((List.range x.hQueued).flatMap fun j => s.extentRun x (x.hExt + j)).drop x.hCopied, true)

/-- MIGRATE (R225, R234, R235): up to `count` tiles of the owner's queued moves whose stacks the mask holds are copied: objects in
order of handle, then closed extents in order of context. An object that is being written waits; one with a tile that may not be
written to tier H again stays in tier S (R459). -/
def execMigrate (owner idx : Nat) (s : State) : Out :=
  .next (s.playM owner idx MOp.migrate fun s x c =>
    let d := x.shot c
    let rate := s.hRate owner
    let inMask := fun n : Nat => bitOf (BitVec.ofNat 12 d.mStacks) n
    let objs := s.tiers.objs.filterMap fun e =>
      match e.2 with
      | some o => match o.move with
        | some m => if (e.1 / 67108864 = owner || (owner = 32 && s.tearingObj e.1)) ∧ (o.moveStacks m).all inMask ∧ m.copied < o.tiles.length ∧ !s.beingWritten e.1 o ∧ (m.target = .h → !s.hSpent e.1 o.tiles.length) then some (e.1, o, m) else none
        | none => none
      | none => none
    let (s, left) := objs.foldl (fun (a : State × Nat) e =>
      let (s, left) := a
      let n := min left (e.2.1.tiles.length - e.2.2.copied)
      let st := e.2.1.moveStacks e.2.2
      let z := e.2.1.tileBytes
      let one := fun i : Nat => (e.1, e.2.2.copied + i, if st.isEmpty then 0 else z, if e.2.1.home = .h || e.2.2.target = .h then z + 64 else 0)
      (s.startMover owner idx MOp.migrate 0 (dedup st) rate (cumTiles 0 0 ((List.range n).map one)), left - n)) (s, d.mCount)
    let sess := s.ses.filter fun e => e.2.owner = owner && e.2.state = .opened && decide (0 < e.2.hQueued + e.2.sQueued) && inMask e.2.home
    let z := packedSize kvForm.1 kvForm.2
    (sess.foldl (fun (a : State × Nat) e =>
      let (s, left) := a
      let ts := ((s.extentMoves e.2).1.take left).takeWhile fun t => 0 < e.2.sQueued || !s.hSpent t.1 (t.2 + 1)
      (s.startMover owner idx MOp.migrate 0 [e.2.home] rate (cumTiles 0 0 (ts.map fun t => (t.1, t.2, z, z + 64))), left - ts.length)) (s, left)).1)

/-- One tile of a move has arrived (R225, R229): it is sealed on its way to tier H, and opened on its way from there. Answers the session
whose sealed tile failed, if one did. -/
def State.landMove (s : State) (e : Nat × Nat) : State × Option Nat :=
  match s.obj e.1 with
  | none => (s, none)
  | some o =>
    if s.tearingObj e.1 then
      -- a tile of a partition's object is cleared, and the object is free with its last one (R407)
      (s.setObj e.1 (if e.2 + 1 < o.tiles.length then o.move.map fun (v : Move) => { o with move := some { v with copied := e.2 + 1 } } else none), none)
    else if o.kind = .kvExtent then
      let x := s.sesOf o.of
      if 0 < x.sQueued then
        match s.openTile e.1 e.2 with
        | some t => ((s.setObj e.1 (some { o with tiles := o.tiles.set e.2 t })).setSes o.of { x with sCopied := x.sCopied + 1 }, none)
        | none => (s, some o.of)
      else ((s.sealTile e.1 e.2 ((padTo o.tileBytes (o.tiles.getD e.2 [])).take o.tileBytes)).setSes o.of { x with hCopied := x.hCopied + 1 }, none)
    else match o.move with
      | some v =>
        let s := if v.target = .h then s.sealTile e.1 e.2 (o.tiles.getD e.2 []) else s
        (s.setObj e.1 (some { o with move := some { v with copied := e.2 + 1 } }), none)
      | none => (s, none)

/-- Tiles of a move that have arrived by an instant; the sessions whose sealed tiles failed. -/
def State.landMoves (s : State) (m : Mover) (t : Nat) : State × List Nat :=
  (m.movedBy t).foldl (fun (a : State × List Nat) e =>
    let (s, bad) := a.1.landMove e
    (s, match bad with | some c => a.2 ++ [c] | none => a.2)) (s, [])

/-- The handle of the object whose tile a mover is transferring at an instant. -/
def Mover.at_ (m : Mover) (t : Nat) : Nat :=
  (m.tiles.getD (m.movedBy t).length (m.tiles.getLastD (0, 0, 0, 0))).1

/-! ### TINT (R295, R296, R236) -/

/-- What a TINT cue moves for one tint: tiles of its load from the first not yet moved, or of its write-through. -/
def State.tintWork (s : State) (t : Nat) : List (Component × Nat) :=
  let x := s.tintOf t
  if x.state = .loading then x.hotTiles.drop x.moved
  else if 0 < x.writeThrough then x.hotTiles.drop (x.hotTiles.length - x.writeThrough)
  else []

/-- Object handle and tile index of a component's tile: each matrix of a component is an object, in the order of Table 12.1 (R348). -/
def matrixTile (h : Nat) : List (Nat × Nat) → Nat → Nat × Nat
  | [], i => (h, i)
  | d :: ds, i => if i < shapeTiles d then (h, i) else matrixTile (h + 1) ds (i - shapeTiles d)

/-- Index within its component of tile `i` of the object `h`. -/
def componentTile (h : Nat) : List (Nat × Nat) → Nat → Nat → Nat
  | [], _, i => i
  | d :: ds, x, i => if x = h then i else shapeTiles d + componentTile (h + 1) ds x i

/-- Matrices of a component (Table 12.1). -/
def Component.matrices (c : Component) : Nat := if c.kind = 1 ∨ c.kind = 3 then 2 else 1

/-- The component that a parameter object belongs to. -/
def Tint.componentOf (t : Tint) (handle : Nat) : Option Component :=
  t.comps.find? fun c => decide (c.handle ≤ handle) && decide (handle < c.handle + c.matrices)

/-- Cumulative stack bytes of a run of component tiles. -/
def State.tintTiles (s : State) : List (Component × Nat) → Nat → List (Nat × Nat × Nat × Nat)
  | [], _ => []
  | (c, i) :: rest, sum =>
    let n := sum + packedSize c.fmt c.blk
    let h := matrixTile c.handle (s.compShapes c) i
    (h.1, h.2, n, 0) :: s.tintTiles rest n

/-- TINT (R295, R296): up to `count` tiles of the partition's loads and write-throughs, in order of tint; a cue that names a bay works
for the tint bound there. A slot in a bank that is not ON is an access fault (R260). -/
def execTint (owner idx : Nat) (s : State) : Out :=
  .next (s.playM owner idx MOp.tint fun s x c =>
    let d := x.shot c
    let ts : List Nat :=
      if c.bay = 63 && !c.retake then (s.tints.filter fun e => e.2.owner = owner && e.2.state ≠ .free).map (·.1)
      else match s.cueBinding owner c with
        | some b => [b.tint]
        | none => []
    let runs := (ts.filter fun t => !(s.tintWork t).isEmpty).filterMap s.slotRun
    if !s.accessBanks runs then s.fenceSheet owner 4
    else
      let s := (ts.foldl (fun (a : State × Nat) t =>
        let (s, left) := a
        let work := (s.tintWork t).take left
        let k := (s.tintOf t).stack
        let ks := if (s.tintOf t).state = .loading then [k] else [k, (k + 6) % 12].filter s.stackLive
        (s.startMover owner idx MOp.tint t ks 0 (s.tintTiles work 0), left - work.length)) (s, d.mCount)).1
      let cyc := ((s.ctx owner).startOf .m idx).getD 0
      s.usePort (mkUse Rq.mover owner true runs (s.cycleT owner cyc) (s.cycleT owner (cyc + c.dur))))

/-- One tile of a load is moved into the slot as an engine-ready tile; one of a write-through is read from the slot, under error correction
(R264), and reaches the step's next copies, which hold it already (R296, R359). -/
def State.moveTintTile (s : State) (t handle i : Nat) : State :=
  let x := s.tintOf t
  match x.componentOf handle, s.obj handle with
  | some c, some o =>
    let j := componentTile c.handle (s.compShapes c) handle i
    match s.hotTileAt t c j with
    | some a =>
      if x.state = .loading then
        let (r, k) := tileShape (s.compShapes c) j
        let s := s.writeF a (readyTile c.fmt c.blk r k handle i s.fnNat (o.tiles.getD i []))
        s.setTint t { s.tintOf t with moved := x.moved + 1 }
      else (s.eccRead [(a, readySize c.fmt c.blk)]).1.setTint t { s.tintOf t with writeThrough := x.writeThrough - 1 }
    | none => s
  | _, _ => s

/-- Tiles of a TINT transfer that have arrived by an instant. -/
def State.landTint (s : State) (m : Mover) (t : Nat) : State :=
  (m.movedBy t).foldl (fun (s : State) e => s.moveTintTile m.tint e.1 e.2) s

/-! ### HOST and UPDATE -/

/-- Writes every finished dailies record (R392): during the house segment's HOST cues. -/
def State.flushDailies (s : State) : State :=
  s.each (List.range 33) fun s k =>
    let r := s.ringSet k
    let s := r.dailies.out.foldl (fun (s : State) e => s.hostWrite e.1 e.2) s
    s.setRingSet k { r with dailies := { r.dailies with out := [] } }

/-! ### The MX layout (Table 5.9, R160, R230) -/

/-- A tile in tier F as an MX transfer sees it: where it lies, format, blk code, valid rows and columns. -/
structure MxTile where
  at_ : Place
  fmt : Nat
  blk : Nat
  rows : Nat
  cols : Nat

/-- The tile whose tag line lies at a place. -/
def State.mxTile (s : State) (p : Place) : MxTile :=
  let tag := s.readAt p 64
  { at_ := p, fmt := leAt tag 0 1 % 16, blk := leAt tag 0 1 / 16 % 8, rows := leAt tag 1 1, cols := leAt tag 2 1 }

/-- Up to `n` tiles that lie one behind the other within `room` bytes, from a place on, past the first `skip` of them. -/
def State.mxTiles (s : State) (p : Place) (room skip : Nat) : Nat → List MxTile
  | 0 => []
  | n + 1 =>
    let t := s.mxTile p
    let z := readySize t.fmt t.blk
    if room < z then []
    else (if skip = 0 then [t] else []) ++ s.mxTiles (p.plus z) (room - z) (skip - 1) n

/-- Tile columns of a matrix of `n` tiles in an MX transfer: no rule says how its tiles are arranged, beyond that they form a matrix. One
tile has one column (R230; log entry 3). -/
def mxCols (arg n : Nat) : Nat :=
  let k := Config.mxCols arg n
  if 0 < k ∧ k ≤ n ∧ n % k = 0 then k else n

/-- Elements of row `r` of a tile, as stored: whole bytes, the bits behind its last column zero. -/
def State.mxRow (s : State) (t : MxTile) (r : Nat) : Blob :=
  let bs := s.readAt (t.at_.plus (64 + 64 * scalesPerRow t.blk + r * rowBytes t.fmt)) (cdiv (t.cols * fmtBits t.fmt) 8)
  if t.cols * fmtBits t.fmt % 8 = 4 then bs.dropLast ++ [(bs.getLastD 0) &&& 0x0F] else bs

/-- Scale bytes of row `r` of a tile. -/
def State.mxScales (s : State) (t : MxTile) (r : Nat) : Blob := s.readAt (t.at_.plus (64 + r * scalesPerRow t.blk)) (min (scalesPerRow t.blk) (cdiv t.cols 32))

/-- Rows of a matrix of tiles: the tiles of one tile row, with one row number in them. -/
def mxRows (k : Nat) (ts : List MxTile) : List (List MxTile × Nat) :=
  (List.range (ts.length / max 1 k)).flatMap fun i =>
    let row := (ts.drop (i * k)).take k
    (List.range ((row.head?.map fun t => t.rows).getD 0)).map fun r => (row, r)

/-- The MX layout of a matrix of tiles (R230): the element array, each row padded with zeros to whole blocks of 32, then the scale array,
with the elements and scales as they are stored. -/
def State.mxOut (s : State) (k : Nat) (ts : List MxTile) : Blob :=
  let rows := mxRows k ts
  let elems := rows.flatMap fun e =>
    let bs := e.1.flatMap fun t => s.mxRow t e.2
    let bits := ((e.1.head?.map fun t => fmtBits t.fmt).getD 8)
    padTo (cdiv ((e.1.map fun t => t.cols).sum) 32 * (4 * bits)) bs
  elems ++ rows.flatMap fun e => e.1.flatMap fun t => s.mxScales t e.2

/-- Format of the tiles of an MX import: one of Table 5.9; no field names it (R230; log entry 3). -/
def mxFmt (arg : Nat) : Nat := [6, 7, 2].getD ((Config.mxForm arg).1 % 3) 6

/-- Tiles that an MX import makes in an area: of a supported format, whole but for the last row and column of tiles,
whose valid rows and columns no field names either (R230; log entry 3). -/
def mxPlan (arg room count : Nat) (p : Place) : Nat × List MxTile :=
  let (_, er, ec) := Config.mxForm arg
  let fmt := mxFmt arg
  let n := min count (room / readySize fmt 2)
  let k := mxCols arg n
  (k, (List.range n).map fun i =>
    { at_ := p.plus (i * readySize fmt 2), fmt := fmt, blk := 2,
      rows := if n - k ≤ i then 1 + er % 64 else 64, cols := if i % k + 1 = k then 1 + ec % 64 else 64 })

/-- Bytes of host memory that a transfer reads: what the host holds there (log entry 3). -/
def State.hostData (s : State) (addr len : Nat) : Blob := (List.range len).map fun i => Config.hostData s.free (addr + i)

/-- Bytes that a tile's row takes in the element array, from the start of the matrix's row. -/
def mxBefore (row : List MxTile) (j : Nat) : Nat := ((row.take j).map fun t => cdiv (t.cols * fmtBits t.fmt) 8).sum

/-- An MX import (R228, R230): each tile arrives engine-ready, with the elements and scales that the layout has for it. -/
def State.mxIn (s : State) (arg k : Nat) (ts : List MxTile) : State :=
  let rows := mxRows k ts
  let width := fun (row : List MxTile) => cdiv ((row.map fun t => t.cols).sum) 32
  let line := (rows.head?.map fun e => width e.1 * (4 * ((e.1.head?.map fun t => fmtBits t.fmt).getD 8))).getD 0
  let blocks := (rows.head?.map fun e => width e.1).getD 0
  let bs := s.hostData arg (rows.length * (line + blocks))
  let s := { s with free := s.free + 1 }
  s.each ts.zipIdx fun s e =>
    let t := e.1
    let row := (ts.drop (e.2 / k * k)).take k
    let top := e.2 / k * 64
    let s := s.writeAt t.at_ (tagLine t.fmt t.blk t.rows t.cols 0 0 0 s.fnNat 0 0 0)
    s.each (List.range t.rows) fun s r =>
      let s := s.writeAt (t.at_.plus (64 + 64 * scalesPerRow t.blk + r * rowBytes t.fmt))
        (slice bs ((top + r) * line + mxBefore row (e.2 % k)) (cdiv (t.cols * fmtBits t.fmt) 8))
      s.writeAt (t.at_.plus (64 + r * scalesPerRow t.blk)) (slice bs (rows.length * line + (top + r) * blocks + e.2 % k * 2) (cdiv t.cols 32))

/-- What a HOST shot moves out of the device. A tile whose format or blk code is in no row of Table 5.9 leaves as its stored codes and scales
(DESIGN CHOICE, log entry 50: the spec gives no outcome). -/
def State.hostOut (s : State) (d : Shot) (p : Place) (len : Nat) : Blob :=
  if d.mMx then
    let ts := s.mxTiles p len d.mFirst (d.mFirst + d.mCount)
    s.mxOut (mxCols d.mArg ts.length) ts
  else s.readAt p len

/-- What a HOST shot brings into the device (R230, R234). -/
def State.hostIn (s : State) (d : Shot) (p : Place) (len : Nat) : State :=
  if d.mMx then
    let skip := d.mFirst * readySize (mxFmt d.mArg) 2
    let (k, ts) := mxPlan d.mArg (len - skip) d.mCount (p.plus skip)
    s.mxIn d.mArg k ts
  else { s.writeAt p (s.hostData d.mArg len) with free := s.free + 1 }

/-- HOST (R230, R234, R235, R260, R266, R392): a bulk transfer with host memory. A house cue also carries the dailies. An export writes the
area to the host, in the MX layout where mx is set; an import fills the area with what the host holds. -/
def execHost (owner idx : Nat) (s : State) : Out :=
  .next (s.playM owner idx MOp.host fun s x c =>
    let d := x.shot c
    let (p, len) := s.mArea owner c d
    -- a mover reads no shared bank of another owner (R259)
    if !s.accessOk owner true p len then s.fenceSheet owner 4
    else
      let s := if owner = 32 then s.flushDailies else s
      let cyc := ((s.ctx owner).startOf .m idx).getD 0
      let s := s.usePort (mkUse Rq.mover owner (!d.mExport) (p.run len) (s.cycleT owner cyc) (s.cycleT owner (cyc + c.dur)))
      if len = 0 then s
      else if d.mExport then
        let s := s.shotRead owner c (p.run len)
        -- weights leave in plate form or not at all (R345, R459)
        if s.holdsWeights (p.run len) then
          match s.plateExport with
          | some img => s.hostWrite d.mArg img
          | none => s
        else s.hostWrite d.mArg (s.hostOut d p len)
      else s.hostIn d p len)

/-! ### UPDATE (R34, R362) -/

/-- The UPDATE cue in progress that holds every stack of a list, if there is one: its stacks are free of what came before (R34, R235). -/
def State.updCue (s : State) (ns : List Nat) : Option Mover :=
  s.tiers.running.find? fun m => m.op = MOp.update && ns.all m.onStacks.contains && decide (m.startTb ≤ s.now) && decide (s.now < m.stackEnd)

/-- An UPDATE cue in progress holds every stack of a list (R362). -/
def State.updOpen (s : State) (ns : List Nat) : Bool := (s.updCue ns).isSome

/-- UPDATE (R34, R235, R362): the named stacks are reserved to the cue's end, from when the transfers before it have left them; a paused
pass whose stacks they hold goes on from there. -/
def execUpdate (owner idx : Nat) (s : State) : Out :=
  .next (s.playM owner idx MOp.update fun s x c =>
    let d := x.shot c
    let ns := (List.range 12).filter fun n => bitOf (BitVec.ofNat 12 d.mStacks) n
    let cyc := ((s.ctx owner).startOf .m idx).getD 0
    let start := s.stacksFrom ns
    let end_ := s.cycleTb owner (cyc + c.dur)
    let m : Mover := { owner := owner, cue := idx, op := MOp.update, startTb := start, hStart := s.now, onStacks := ns, tint := 0, rate := 0,
                       tiles := [], until_ := some end_ }
    let s := { s with tiers := { s.tiers with running := s.tiers.running ++ [m] } }.holdStacks ns end_
    s.each (List.range 12) fun s n =>
      let u := s.updOf n
      match u.queue with
      | k :: _ =>
        if u.running && u.paused && decide (start < end_) && (updStacks n k).all ns.contains then
          s.setUpd n { u with paused := false, slotTb := some start }
        else s
      | [] => s)

end Sys2Proof.Machine
end

