-- ==== Sys2Proof/Machine/Banks.lean ====
section
/-! DEFINITION. SRAM banks (chapter 9, R252-R266): requests, ownership, power sequences, patrol scrub and the bank fence's own
part. -/

namespace Sys2Proof.Machine

/-! ### Sequences (Table 9.2) -/

/-- ns from OFF to ON or RET. -/
abbrev wakeNs : Nat := 238454

/-- A bank's contents are lost: it reads as zero when it returns (R257). -/
def State.clearBank (s : State) (b : Nat) : State :=
  { s with tiers := { s.tiers with f := Sparse.drop s.tiers.f fun a => a / 16777216 = b,
                                   fErr := Sparse.drop s.tiers.fErr fun w => w / 524288 = b } }

/-- A request as a bank's state at the end of its sequence. -/
def BankReq.state : BankReq → BankState
  | .off => .off
  | .on => .on
  | .ret => .ret

/-- A shutdown starts, with a request behind it (R257). -/
def Bank.shutDown (k : Bank) (r : BankReq) (now : Nat) : Bank :=
  { k with state := if r = .off then .goingOff else .queuedOn, target := r, endTb := some (now + 10000), usable := false }

/-- A request takes effect on a bank that no sequence holds, without a change of owner (Table 9.2). -/
def Bank.apply (k : Bank) (r : BankReq) (now : Nat) : Bank :=
  match k.state, r with
  | .off, .off | .on, .on | .ret, .ret => k
  | .off, _ => { k with state := .waking, target := r, endTb := some (now + wakeNs) }
  | .on, .ret => { k with target := .ret, endTb := some (now + 1000), usable := false }
  | .ret, .on => { k with target := .on, endTb := some (now + 2000) }
  | .on, .off | .ret, .off => k.shutDown .off now
  | _, _ => k

/-- A bank is handed to an owner with a request, at an instant (R258): a bank that is ON or RET passes through a shutdown. -/
def Bank.hand (k : Bank) (o : Nat) (r : BankReq) (now : Nat) : Bank :=
  let moved := k.owner ≠ o
  let k := { k with owner := o, req := r, next := none, due := false }
  if !moved then k.apply r now
  else match k.state with
    | .on | .ret => k.shutDown r now
    | .goingOff | .queuedOn => { k with state := if r = .off then .goingOff else .queuedOn, target := r }
    | .waking => { k with target := r, usable := false }
    | .off => k.apply r now
    | .grey => k

/-- A bank is handed over at once, by the device itself (R284, R402, R407). -/
def State.handBank (s : State) (b o : Nat) (r : BankReq) (shared : Bool) : State :=
  let k := s.bank b
  if k.state = .grey then s else s.setBank b { k.hand o r s.now with shared := shared }

/-! ### BNK_Bb (R256-R259) -/

/-- A tier F reference of a sheet loaded for an owner names the bank. -/
def State.bankNamed (s : State) (o b : Nat) : Bool :=
  s.player.store.any fun e => e.1 / 64 = o && match e.2 with
    | some x => x.descs.any fun d => (Shot.refs d).any fun r => decide (r < 2147483648) && r / 262144 = b
    | none => false

/-- A pinned insert program has its home in the bank (Table 8.4, R315). -/
def State.holdsPin (s : State) (b : Nat) : Bool :=
  s.ins.pins.any fun e => match e.2 with
    | some p => decide (64 * p.ref / 16777216 ≤ b) && decide (b ≤ (64 * p.ref + p.len - 1) / 16777216)
    | none => false

/-- The bank must keep its owner and its power (R258). -/
def State.bankHeld (s : State) (b : Nat) : Bool :=
  s.holdsPin b || s.bankNamed (s.bank b).owner b || s.inWindow b || s.inHead b || s.inResident b || Config.storeBank (s.regFld Reg.shtStore 0 10) b

/-- The fields of BNK_Bb as last written. -/
def Bank.written (k : Bank) : BankReq × Nat := k.next.getD (k.req, k.owner)

/-- BANK_REQUEST (R256-R259): BNK_Bb is written. -/
def execBankRequest (b : Nat) (v : Word) (s : State) : Out :=
  let k := s.bank b
  let o := fld v 8 6
  let shared := bitOf v 14
  if 1535 < b then .next s
  else
    let req : Option BankReq := match fld v 0 2 with | 0 => some .off | 1 => some .on | 2 => some .ret | _ => none
    match req with
    | none => .next (s.raise Reg.bnkStatus 4)
    | some r =>
      let (r0, o0) := k.written
      let bad := (decide (33 ≤ o) && decide (o ≤ 62)) || (o = 63 && r ≠ .off) || k.state = .grey ||
        ((o ≠ o0 || (r ≠ r0 && r ≠ .on)) && s.bankHeld b) || (shared && (k.owner ≠ 32 || o ≠ 32))
      if bad then .next (s.raise Reg.bnkStatus 4)
      else
        let k := { k with shared := shared }
        if k.state = .goingOff ∨ k.state = .queuedOn then
          .next (s.setBank b { k with owner := o, req := r, target := r, state := if r = .off then .goingOff else .queuedOn })
        else .next (s.setBank b { k with next := some (r, o), due := false })

/-- BANK_REQUEST_EFFECT (R256, R258): a request takes effect at its tick; one that meets a sequence waits for a tick after it. -/
def execBankRequestEffect (b : Nat) (s : State) : Out :=
  let k := s.bank b
  match k.next with
  | some (r, o) =>
    if !k.due || k.state = .grey then .next s
    else if k.endTb.isSome && !(k.state = .goingOff || k.state = .queuedOn) then .next (s.setBank b { k with due := false })
    else .next (s.setBank b (k.hand o r s.now))
  | none => .next s

/-- At a tick: requests are due, those that take access away do so, and banks that have reached ON become accessible (R256). -/
def State.tickBanks (s : State) : State :=
  let f := fun (_ : Nat) (k : Bank) =>
    let k := { k with due := k.next.isSome }
    let loses := match k.next with | some (r, o) => r ≠ .on || o ≠ k.owner | none => false
    { k with usable := k.state = .on && k.endTb.isNone && !loses }
  { s with banks := { s.banks with bank := Sparse.mapListed (fun _ => Bank.init) f s.banks.bank } }

/-- BANK_TRANSITION_DONE (R256, R257): a sequence ends. A shutdown with a request behind it goes on at once; a bank that wakes is
cleared. -/
def execBankTransitionDone (b : Nat) (s : State) : Out :=
  let k := s.bank b
  match k.endTb with
  | none => .next s
  | some e =>
    let s := s.advance e
    match k.state with
    | .goingOff => .next ((s.clearBank b).setBank b { k with state := .off, endTb := none })
    | .queuedOn => .next ((s.clearBank b).setBank b { k with state := .waking, endTb := some (e + wakeNs) })
    | .waking => .next ((s.clearBank b).setBank b { k with state := k.target.state, endTb := none })
    | .grey => .next s
    | _ => .next (s.setBank b { k with state := k.target.state, endTb := none })

/-! ### Patrol scrub and errors (R264-R266) -/

/-- PATROL_SCRUB (R264-R266): a bank's scrubber reads its next word, 15,000 ns after the last. A word without a known error shows
what the command says. -/
def execPatrolScrub (b : Nat) (found : EccResult) (s : State) : Out :=
  let k := s.bank b
  if 1535 < b || k.state ≠ .on then .next s
  else
    let s := s.advance (k.scrubTb + 15000)
    let w := b * 524288 + k.scrub
    let stored := Sparse.get (fun _ => .clean) s.tiers.fErr w
    let s := s.readWord w (if stored = .clean then found else stored)
    let k := s.bank b
    let next := (k.scrub + 1) % 524288
    let s := if next = 0 then
        { s with banks := { s.banks with passMs := BitVec.ofNat 16 (min 0xFFFF ((s.now - k.passTb) / 1000000)) } } else s
    .next (s.setBank b { k with scrub := next, scrubTb := s.now, passTb := if next = 0 then s.now else k.passTb })

end Sys2Proof.Machine
end

