-- ==== Sys2Proof/Machine/Items.lean ====
section
/-! DEFINITION. Descriptors on their way: which one a command takes up, what an item works with, and how items end together. -/

namespace Sys2Proof.Machine

/-- The item of a key, if it has just been fetched and carries an opcode: its own chapter's checks are still to come (R380). -/
def State.fresh (s : State) (k : ItemKey) (op : Nat) : Option Item :=
  match s.item? k with
  | some i => if i.phase = .fetched && i.done.isNone && i.op = op && !s.saf.safe then some i else none
  | none => none

/-- An item of the same kind that was observed earlier and has not been taken up. -/
def State.earlier (s : State) (k : ItemKey) (i : Item) (p : Nat → Bool) : Bool :=
  s.items.any fun e => e.1 ≠ k && e.2.phase = .fetched && e.2.done.isNone && p e.2.op && decide (e.2.order < i.order)

/-- Sets the phase of an item. -/
def State.setPhase (s : State) (k : ItemKey) (p : ItemPhase) : State := s.modItem k fun i => { i with phase := p }

/-- A training sample. -/
def Item.trains (i : Item) : Bool := i.op = 3

/-- The tint that a serve item or a sample works with, if it has one. -/
def State.itemTint (s : State) (i : Item) : Option Nat :=
  if i.serves then some (s.sesOf i.ctxNo).tint else if i.trains then some (i.field 0x10 2) else none

/-- A serve item or sample of a partition that works with a tint. -/
def State.worksWith (s : State) (p t : Nat) (k : ItemKey) (i : Item) : Bool := k.set = p && s.itemTint i = some t

/-- A serve item of a session of a partition. -/
def ofSession (p c : Nat) (k : ItemKey) (i : Item) : Bool := k.set = p && i.serves && i.ctxNo = c

/-- An item whose descriptor was observed before its session had a tint cannot be in passage; one in passage holds the slot. -/
def State.inPassageWith (s : State) (p t : Nat) : Bool :=
  s.items.any fun e => e.2.phase = .passage && e.2.done.isNone && s.worksWith p t e.1 e.2

/-- Sessions of a partition that hold a lease on a tint (R306, R311): OPEN, or closing and not yet scrubbed. -/
def State.leases (s : State) (p t : Nat) : List Nat :=
  (s.ses.filter fun e => e.2.owner = p && e.2.tint = t && e.2.state = .opened).map (·.1)

/-- A finished item is delivered: its completion is decided, or held where its partition has checked delivery (R343). -/
def State.deliver (s : State) (k : ItemKey) (status : Nat) (result : BitVec 128) (info : BitVec 4) (outs : List (Nat × Blob)) : State :=
  if !(k.set < 32 && (s.part k.set).alloc.checked) then s.finish k status result info outs
  else match s.item? k with
  | some i =>
    if i.suspect then s.finish k St.checkFailed
    else (s.finish k status result info outs).modItem k fun i => { i with phase := .held, heldFrom := s.tbm.fn }
  | none => s

/-- Frees the objects of an owner for which a test holds; their tiles are cleared with them, and their places in tier H are free. -/
def State.freeObjs (s : State) (p : Nat → Obj → Bool) : State :=
  let gone := fun h : Nat => match s.obj h with | some o => p h o | none => false
  { s with tiers := { s.tiers with objs := s.tiers.objs.filter fun e => match e.2 with | some o => !p e.1 o | none => true } }.freeH fun h _ => gone h

/-- A partition's tier H key is gone, and with it the write counts under it (R229). -/
def State.dropWrites (s : State) (p : Nat) : State :=
  { s with tiers := { s.tiers with hWrites := Sparse.drop s.tiers.hWrites fun k => k / 4294967296 / 67108864 = p } }

/-- Clears the KV extents and carried state of a session (R310, R312). -/
def Ses.cleared (x : Ses) : Ses :=
  { x with sExt := 0, hExt := 0, hQueued := 0, hCopied := 0, sQueued := 0, sCopied := 0, kv := [], carried := none, inPassage := false, reloadDue := false }

/-- The K, V and carried-state objects of a context are freed (R310, R312). -/
def State.freeKv (s : State) (c : Nat) : State :=
  let p := (s.sesOf c).owner
  s.freeObjs fun h o => (o.kind = .kvExtent || o.kind = .carried) && o.of = c && h / 67108864 = p

/-- Tier S bytes of an object, its mirror included. A snapshot on its way counts where it goes; KV extents are counted by their sessions. -/
def Obj.sBytes (o : Obj) : Nat :=
  if o.home ≠ .s || o.kind = .kvExtent then 0
  else match o.kind, o.move with
    | .snapshot, some m => if m.mirror then o.bytes else if m.target = .s then 2 * o.bytes else 0
    | _, _ => o.bytes * (if o.mirror.isSome then 2 else 1)

/-- Tier S bytes that a partition's objects and its sessions' extents take. -/
def State.sUsed (s : State) (p : Nat) : Nat :=
  (s.tiers.objs.map fun e => match e.2 with | some o => if e.1 / 67108864 = p then o.sBytes else 0 | none => 0).sum +
    (s.ses.map fun e => if e.2.owner = p then (e.2.sExt + e.2.sQueued) * s.extentBytes else 0).sum

/-- A partition's tier S allocation has room for some bytes (R233, R290). -/
def State.sRoom (s : State) (p n : Nat) : Bool := decide (s.sUsed p + n ≤ (s.part p).alloc.sGib * 1073741824)

/-- Bytes of a stack that are taken: a tile of each stripe of the plate, the copies of objects, and the extents of sessions (R239, R243, R247). -/
def State.stackUsed (s : State) (n : Nat) : Nat :=
  let plate := match s.plate.plate with
    | none => 0
    | some p => ((p.layers ++ [p.embed, p.head]).map fun x => x.stripes * packedSize x.fmt x.blk).sum
  plate + (s.tiers.objs.map fun e => match e.2 with
    | some o => if o.home = .s && o.kind ≠ .kvExtent && (o.stack = n || o.mirror = some n) then o.bytes else 0
    | none => 0).sum + (s.ses.map fun e => if e.2.home = n then e.2.sExt * s.extentBytes else 0).sum

/-- Live stacks with room for some bytes in their 96 GiB (R222). -/
def State.stacksWith (s : State) (bytes : Nat) : List Nat := s.liveStacks.filter fun n => decide (s.stackUsed n + bytes ≤ 103079215104)

/-- A stack with room whose mirror partner lives and has room too is chosen for a mirrored object, else one with room, else a live one: the
director's free choice among them (R222, R243). -/
def State.chooseStack (s : State) (bytes : Nat) : Nat × State :=
  let (w, s) := s.draw32
  let room := s.stacksWith bytes
  let pair := room.filter fun n => room.contains ((n + 6) % 12)
  let ok := if !pair.isEmpty then pair else if !room.isEmpty then room else s.liveStacks
  (ok.getD (w.toNat % max 1 ok.length) 0, s)

/-- The mirror stack of a primary, if it lives. -/
def State.mirrorOf (s : State) (n : Nat) : Option Nat := if s.stackLive ((n + 6) % 12) then some ((n + 6) % 12) else none

/-- A result area from its little-endian fields. -/
def resultOf (bs : Blob) : BitVec 128 := result128 (padTo 16 bs)

/-! ### The dailies ring (R392) -/

/-- A change of a dailies ring takes effect (R392). -/
def State.armDailies (s : State) (o : Nat) : State :=
  let d := (s.ringSet o).dailies
  match d.pending with
  | none => s
  | some (true, n, base) =>
    s.setRingSet o { s.ringSet o with dailies := { d with
      armed := true, pending := none, base := base, log2 := n, index := 0, phase := true, events := [], eventsLost := 0 } }
  | some (false, _, _) => s.setRingSet o { s.ringSet o with dailies := { d with armed := false, pending := none, events := [], eventsLost := 0 } }

/-! ### Update commands of a tint (R347, R360, R361) -/

/-- A field of an update command (Table 12.2). -/
def updF (c : UpdCmd) (off len : Nat) : Nat := fld c (8 * off) (8 * len)

/-- Writes the status word of a command's result area (Table 12.3). -/
def State.updStatus (s : State) (c : UpdCmd) (code : Nat) : State := s.writeAt (s.resolve none (updF c 0x2C 4)) (leBytes 4 code)

/-- The passes of a tint that are queued or running are abandoned (R362, Table 12.6). -/
def State.abandonCmds (s : State) (t : Nat) : State :=
  s.each (List.range 12) fun s n =>
    let u := s.updOf n
    let mine := u.queue.filter fun c => updF c 2 2 = t && updF c 0 1 ≠ 3
    let front := match u.queue with | c :: _ => updF c 2 2 = t && updF c 0 1 ≠ 3 | [] => false
    let q := u.queue.filter fun c => !(updF c 2 2 = t && updF c 0 1 ≠ 3)
    let s := mine.foldl (fun (s : State) c => s.updStatus c 2) s
    if front then s.setUpd n { u with queue := q, running := false, paused := false, slotTb := none, doneNs := 0, result := none }
    else s.setUpd n { u with queue := q }

/-- An item whose bay was not played to its end returns to pending, or ends the second time (R101): it starts its pass again. -/
def State.returnItem (s : State) (k : ItemKey) : State :=
  match s.item? k with
  | none => s
  | some i =>
    if 1 ≤ i.returns then s.endItems [k] St.frameOverrun
    else
      let s := if i.serves then s.setSes i.ctxNo { s.sesOf i.ctxNo with inPassage := false } else s
      s.modItem k fun (i : Item) => { i with phase := .waiting, layers := 0, returns := i.returns + 1, late := true, suspect := false }

end Sys2Proof.Machine
end

