-- ==== Sys2Proof/Machine/Tints.lean ====
section
/-! DEFINITION. Tints (chapter 10): registration, claims of hot slots, loads, pins, evictions and withdrawals. -/

namespace Sys2Proof.Machine

/-! ### The image (R288, R289, R458) -/

/-- The clear header of a tint image is well formed (R289, R458). A tint without components belongs to a full-parameter run (R344). -/
def tintHeaderOk (img : Blob) (t len : Nat) (full : Bool) : Bool :=
  let n := leAt img 6 2
  leAt img 0 4 = 0x544E4954 && leAt img 4 2 = 1 && (full && n = 0 || decide (1 ≤ n) && decide (n ≤ 4096)) && leAt img 8 2 = t &&
    leAt img 0x0C 4 = 0 && leAt img 0x10 8 % 64 = 0 && allZero (slice img 0x18 40) && len = leAt img 0x10 8 + 64 && decide (128 ≤ leAt img 0x10 8)

/-- Record `i` of the component table (Table 10.6). -/
def componentAt (img : Blob) (i : Nat) : Component :=
  let f := fun off len => leAt img (0x80 + 32 * i + off) len
  { kind := f 0 1, fmt := f 1 1 % 16, blk := f 1 1 / 16, layer := f 2 2, point := f 4 1, index := f 5 1,
    rank := if f 0 1 = 1 then f 6 2 + 1 else f 6 2, rows := if f 0 1 = 4 then f 8 4 + 1 else f 8 4, tiles := f 0x0C 4, handle := 0 }

/-- Offset of a component's tiles in the image. -/
def componentOffset (img : Blob) (i : Nat) : Nat := leAt img (0x80 + 32 * i + 0x10) 8

/-- One component is allowed by R288, Table 5.11 and the loaded plate. -/
def componentOk (p : Plate) (c : Component) : Bool :=
  decide (c.blk ≤ 4) &&
  match c.kind with
  | 1 => (c.fmt = 6 || c.fmt = 8 || c.fmt = 9) && decide (c.layer < p.layers.length) && decide (c.point < p.points.length) && c.index = 0 &&
      decide (c.rank ≤ 256) && c.rows = 0
  | 2 => (c.fmt = 6 || c.fmt = 8 || c.fmt = 9) && decide (c.layer < p.layers.length) && decide (c.point < p.points.length) && c.index = 0 &&
      c.rank = 0 && c.rows = 0
  | 3 => (c.fmt = 6 || c.fmt = 8 || c.fmt = 9) && decide (c.layer < p.layers.length) && (p.layers.getD c.layer p.embed).expert &&
      c.point = 0 && decide (c.index < min 8 p.spareRouter) && c.rank = 0 && c.rows = 0
  | 4 => (c.fmt = 6 || c.fmt = 8) && c.layer = 0 && c.point = 0 && c.index = 0 && c.rank = 0 && decide (c.rows ≤ 65536)
  | _ => false

/-- What a component attaches to: no two components share it. -/
def Component.place (c : Component) : Nat × Nat × Nat × Nat := (c.kind, c.layer, c.point, c.index)

/-- The component table and the components (R288, R289) of a decrypted image. -/
def State.componentsOk (s : State) (img : Blob) : Bool :=
  match s.plate.plate with
  | none => false
  | some p =>
    let n := leAt img 6 2
    let total := leAt img 0x10 8
    let cs := (List.range n).map (componentAt img)
    let end_ := fun i : Nat => let c := componentAt img i; componentOffset img i + c.tiles * packedSize c.fmt c.blk
    (cs.all fun c => componentOk p c && c.tiles = ((s.compShapes c).map shapeTiles).sum) &&
      ((cs.map Component.place).Nodup : Bool) && decide (0x80 + 32 * n ≤ total) &&
      (List.range n).all fun i =>
        componentOffset img i % 64 = 0 && decide ((if i = 0 then 0x80 + 32 * n else componentOffset img (i - 1) + 1) ≤ componentOffset img i) &&
        allZero (slice img (0x80 + 32 * i + 0x18) 8) &&
        decide (end_ i ≤ (if i + 1 < n then componentOffset img (i + 1) else total))

/-- Tiles of a matrix's statistics object (R349): r + c entries, and r more for EMBED, 64 in a row. -/
def statTiles (embed : Bool) (d : Nat × Nat) : Nat := cdiv (cdiv (d.1 + d.2 + (if embed then d.1 else 0)) 64) 64

/-- Bytes of one copy of a component and its statistics. -/
def State.componentBytes (s : State) (c : Component) : Nat :=
  c.tiles * packedSize c.fmt c.blk + ((s.compShapes c).map fun d => statTiles (c.kind = 4) d * packedSize 8 0).sum

/-- The packed tiles of a component in a decrypted image. -/
def componentTiles (img : Blob) (i : Nat) : List Blob :=
  let c := componentAt img i
  let n := packedSize c.fmt c.blk
  chunks n c.tiles (slice img (componentOffset img i) (n * c.tiles))

/-- Creates the objects of a component: one for each matrix, then one of statistics for each, all zero (R243, R348, R349). -/
def State.makeComponent (s : State) (p stack : Nat) (c : Component) (tiles : List Blob) : State × Component :=
  let shapes := s.compShapes c
  let n := shapes.length
  let (hs, s) := s.newHandles p (2 * n)
  let h := hs.headD (p * 67108864)
  let mirror := s.mirrorOf stack
  let base : Obj := { kind := .tintComponent, of := h, home := .s, stack := stack, mirror := mirror, fmt := c.fmt, blk := c.blk, tiles := [],
                      written := s.tbm.fn, move := none }
  let (s, _) := shapes.zipIdx.foldl (fun (a : State × List Blob) (e : (Nat × Nat) × Nat) =>
    let (s, rest) := a
    let k := shapeTiles e.1
    let s := s.setObj (h + e.2) (some { base with tiles := rest.take k })
    let zero := List.replicate (packedSize 8 0) (0 : Byte)
    let s := s.setObj (h + n + e.2) (some { base with
      kind := .optimiser, of := h + e.2, fmt := 8, blk := 0, tiles := List.replicate (statTiles (c.kind = 4) e.1) zero })
    (s, rest.drop k)) (s, tiles)
  (s, { c with handle := h })

/-! ### Registration (R290) -/

/-- The tint ID lies in the partition's range. -/
def State.tintInRange (s : State) (p t : Nat) : Bool :=
  decide ((s.part p).alloc.tintFirst ≤ t) && decide (t ≤ (s.part p).alloc.tintLast)

/-- The wrapped tint key (R456): key, tint ID and IV, or none where it fails to unwrap. -/
def State.unwrapTint (s : State) (p : Nat) (w : Blob) : Option (BitVec 256 × Nat × Blob) :=
  match (s.sec.part.getD p { imp := none, generating := false, tierH := none }).imp with
  | none => none
  | some m =>
    match oaepDecrypt m (ascii "UMD-TINT-KEY") w with
    | some b =>
      if b.length = 128 && allZero (slice b 0x22 2) && allZero (slice b 0x30 0x50) then
        some (BitVec.ofNat 256 (leAt b 0 32), leAt b 0x20 2, slice b 0x24 12)
      else none
    | none => none

/-- Opens a tint image (R458): the decrypted bytes, or none where its tag fails. -/
def openTint (key : BitVec 256) (iv img : Blob) : Option Blob :=
  let total := leAt img 0x10 8
  (gcmOpen key iv (slice img 0 0x80) (slice img 0x80 (total - 0x80)) (slice img total 16)).map fun pt => slice img 0 0x80 ++ pt

/-- Why a registration fails after step 1 (R290), or the decrypted image. -/
def State.judgeTint (s : State) (p t len : Nat) (wrapped image : Option Blob) : Except Nat Blob :=
  match wrapped with
  | none => .error St.uncorrectable
  | some w =>
    match s.unwrapTint p w with
    | none => .error St.badDescriptor
    | some (key, id, iv) =>
      if id ≠ t then .error St.badDescriptor
      else match image with
      | none => .error St.uncorrectable
      | some img =>
        if !tintHeaderOk img t len ((s.part p).alloc.fullParam && t = (s.part p).alloc.tintFirst) then .error St.badDescriptor
        else if (match s.plate.plate with | some q => decide (q.digest ≠ digestOf (slice img 0x40 64)) | none => true) then .error St.notPermitted
        else match openTint key iv img with
        | none => .error St.badDescriptor
        | some b =>
          if !s.componentsOk b then .error St.badDescriptor
          else if !s.sRoom p (2 * (((List.range (leAt b 6 2)).map fun i => s.componentBytes (componentAt b i)).sum)) then .error St.notPermitted
          else if (s.stacksWith (((List.range (leAt b 6 2)).map fun i => s.componentBytes (componentAt b i)).sum)).isEmpty then .error St.notPermitted
          else .ok b

/-- TINT_REGISTER (R290, R455, R458): the wrapped key and the image are what the host reads give, none where a read fails. -/
def execTintRegister (k : ItemKey) (wrapped image : Option Blob) (s : State) : Out :=
  match s.fresh k 0x10 with
  | none => .next s
  | some i =>
    let p := k.set
    let t := i.field 0x10 2
    if !s.tintInRange p t || (s.tintOf t).state ≠ .free || (s.sec.part.getD p { imp := none, generating := false, tierH := none }).imp.isNone then
      .next (s.finish k St.notPermitted)
    else
      let s := { s with saf := { s.saf with greyTints := s.saf.greyTints.filter fun x => x ≠ t } }
      match s.judgeTint p t (i.field 0x20 8) wrapped image with
      | .error e => .next (s.finish k e)
      | .ok b =>
        let (stack, s) := s.chooseStack (((List.range (leAt b 6 2)).map fun i => s.componentBytes (componentAt b i)).sum)
        let (s, cs) := (List.range (leAt b 6 2)).foldl (fun (a : State × List Component) j =>
          let (s, c) := a.1.makeComponent p stack (componentAt b j) (componentTiles b j)
          (s, a.2 ++ [c])) (s, [])
        let x : Tint := { Tint.init with
          state := .registering, owner := p, gen := BitVec.ofNat 16 (leAt b 0x0A 2), regGen := BitVec.ofNat 16 (leAt b 0x0A 2), stack := stack, plate := digestOf (slice b 0x40 64),
          digest := sha512 b, comps := cs, tiles := (cs.map fun c => c.tiles).sum, regItem := some k }
        let x : Tint := { x with train.cleanGen := x.gen }
        .next ((s.setTint t x).setPhase k .busy)

/-- TINT_REGISTER_DONE (R290): every component is in tier S. -/
def execTintRegisterDone (t : Nat) (s : State) : Out :=
  let x := s.tintOf t
  match x.regItem with
  | some k => if x.state = .registering then .next ((s.setTint t { x with state := .cold, regItem := none }).finish k St.ok) else .next s
  | none => .next s

/-! ### Hot slots (R293, R294) -/

/-- The tint is registered to the partition. -/
def State.registered (s : State) (p t : Nat) : Bool :=
  s.tintInRange p t && (s.tintOf t).owner = p && (s.tintOf t).state ≠ .free && (s.tintOf t).state ≠ .registering

/-- Slots of a partition's run. -/
def State.slotsOf (s : State) (p : Nat) : List Nat :=
  (List.range (s.part p).alloc.slotCount).map fun i => (s.part p).alloc.slotFirst + i

/-- A slot changes hands: its generation rises and the tint is LOADING. -/
def State.giveSlot (s : State) (t h : Nat) (item : Option (ItemKey × Bool)) : State :=
  let y := s.slotOf h
  let s := s.setSlot h { y with tint := some t, gen := y.gen + 1 }
  s.setTint t { s.tintOf t with state := .loading, slot := some h, moved := 0, hotDue := false, loadItem := item }

/-- SLOT_TAKEN shows in TNT_STATUS. -/
def State.slotTaken (s : State) : State := s.raise Reg.tntStatus 3

/-- The claim of R294 for a COLD tint: a slot, or the status that refuses it. `named` none takes the lowest free slot. -/
def State.claimSlot (s : State) (t : Nat) (named : Option Nat) (expected : BitVec 16) : Except Nat Nat :=
  let x := s.tintOf t
  if (s.part x.owner).alloc.slotBanks * 16777216 < x.hotBytes then .error St.notPermitted
  else match named with
  | none =>
    match (s.slotsOf x.owner).find? fun h => (s.slotOf h).tint.isNone && !(s.slotOf h).grey with
    | some h => .ok h
    | none => .error St.slotTaken
  | some h =>
    if !(s.slotsOf x.owner).contains h then .error St.notPermitted
    else if (s.slotOf h).grey then .error St.fencedUnit
    else if (s.slotOf h).tint.isNone && (s.slotOf h).gen = expected then .ok h
    else .error St.slotTaken

/-- Result of a load or pin: the slot and its generation (R385); free where the tint holds no slot, which the spec leaves open. -/
def State.slotResult (s : State) (t : Nat) : BitVec 128 × State :=
  match (s.tintOf t).slot with
  | some h => (resultOf (leBytes 2 h ++ leBytes 2 (s.slotOf h).gen.toNat), s)
  | none => let (w, s) := s.draw32; (resultOf (leBytes 4 w.toNat), s)

/-- Completes a load or pin with OK. -/
def State.finishLoad (s : State) (t : Nat) (k : ItemKey) : State :=
  let (r, s) := s.slotResult t
  s.finish k St.ok r

/-- Claims for a COLD tint and starts its load, or answers the status that refuses it. -/
def State.claimFor (s : State) (t : Nat) (named : Option Nat) (expected : BitVec 16) (item : Option (ItemKey × Bool)) : State :=
  match s.claimSlot t named expected with
  | .ok h =>
    let s := s.giveSlot t h item
    let s := match item with
      | some (k, pin) => (if pin then s.setTint t { s.tintOf t with pinned := true } else s).setPhase k .busy
      | none => s
    s
  | .error e =>
    let s := if e = St.slotTaken then s.slotTaken else s
    match item with
    | some (k, _) => s.finish k e
    | none => s

/-- A load, pin or claim is queued behind an eviction; what was queued before is cancelled (R299). -/
def State.queueLoad (s : State) (t : Nat) (q : Queued) : State :=
  let x := s.tintOf t
  let s := match x.queued with
    | some { item := some k, .. } => s.finish k St.aborted
    | _ => s
  let s := s.setTint t { s.tintOf t with state := .queuedOn, queued := some q }
  match q.item with
  | some k => s.setPhase k .waiting
  | none => s

/-- A queued load or pin is cancelled (R299). -/
def State.dropQueued (s : State) (t status : Nat) : State :=
  let x := s.tintOf t
  let s := match x.queued with
    | some { item := some k, .. } => s.finish k status
    | _ => s
  s.setTint t { s.tintOf t with queued := none, state := if x.state = .queuedOn then .evicting else x.state }

/-- TINT_LOAD (R287, R293-R295, R299, R300): handled one at a time in order of observation. -/
def execTintLoad (k : ItemKey) (s : State) : Out :=
  match s.fresh k 0x11 with
  | none => .next s
  | some i =>
    let t := i.field 0x10 2
    let x := s.tintOf t
    if s.earlier k i fun op => op = 0x11 || op = 0x12 then .next s
    else if !s.registered k.set t || x.state = .dormant || x.state = .withdrawing then .next (s.finish k St.notPermitted)
    else
      let slot := i.field 0x12 2
      let named := if slot = 0xFFFF then none else some slot
      let exp := BitVec.ofNat 16 (i.field 0x14 2)
      match x.state with
      | .hot | .loading => .next (s.finishLoad t k)
      | .evicting | .queuedOn => .next (s.queueLoad t { pin := false, item := some k, slot := named, expected := exp })
      | _ => .next (s.claimFor t named exp (some (k, false)))

/-- TINT_PIN (R287, R297, R299). -/
def execTintPin (k : ItemKey) (s : State) : Out :=
  match s.fresh k 0x12 with
  | none => .next s
  | some i =>
    let t := i.field 0x10 2
    let x := s.tintOf t
    let pin := i.field 0x12 1 % 2 = 1
    if s.earlier k i fun op => op = 0x11 || op = 0x12 then .next s
    else if !s.registered k.set t || x.state = .withdrawing || (pin && x.state = .dormant) then .next (s.finish k St.notPermitted)
    else if !pin then .next ((s.setTint t { x with pinned := false }).finishLoad t k)
    else match x.state with
      | .hot | .loading => .next ((s.setTint t { x with pinned := true }).finishLoad t k)
      | .evicting | .queuedOn => .next (s.queueLoad t { pin := true, item := some k, slot := none, expected := 0 })
      | _ => .next (s.claimFor t none 0 (some (k, true)))

/-- DIRECTOR_CLAIM (R294, R297, R299): the director claims a named slot, at its present generation, or any slot, for a tint of a
partition; a claim for a tint on its way out waits behind the eviction. -/
def execDirectorClaim (t : Nat) (slot : Option Nat) (s : State) : Out :=
  let x := s.tintOf t
  let exp := match slot with | some h => (s.slotOf h).gen | none => 0
  if s.saf.safe then .next s
  else match x.state with
  | .cold => .next (s.claimFor t slot exp none)
  | .evicting | .queuedOn => .next (s.queueLoad t { pin := false, item := none, slot := slot, expected := exp })
  | _ => .next s

/-- TINT_HOT (R295): the first tick after the last tile's arrival. -/
def execTintHot (t : Nat) (s : State) : Out :=
  let x := s.tintOf t
  if x.state ≠ .loading || !x.hotDue then .next s
  else
    let s := s.setTint t { x with state := .hot, hotDue := false, loadItem := none }
    match x.loadItem with
    | some (k, _) => .next (s.finishLoad t k)
    | none => .next s

/-! ### Eviction (R298-R300, R311) -/

/-- A slot is emptied: its banks read as zero, its owner is none, its generation stays. -/
def State.clearSlot (s : State) (t : Nat) : State :=
  let x := s.tintOf t
  match x.slot with
  | none => s
  | some h =>
    let y := s.slotOf h
    let s := s.each ((List.range (s.part x.owner).alloc.slotBanks).map fun i => y.base + i) fun s b =>
      { s with tiers := { s.tiers with f := s.tiers.f.filter fun e => e.1 / 16777216 ≠ b,
                                       fErr := s.tiers.fErr.filter fun e => e.1 / 524288 ≠ b } }
    let s := s.setSlot h { y with tint := none }
    s.setTint t { s.tintOf t with slot := none }

/-- Transfers of a tint stop. -/
def State.stopTint (s : State) (t : Nat) : State :=
  { s with tiers := { s.tiers with running := s.tiers.running.filter fun m => !(m.op = MOp.tint && m.tint = t) } }

/-- The state in which a tint rests outside the hot slots: COLD, or DORMANT where its plate is not the loaded one (R286). -/
def State.restState (s : State) (t : Nat) : TintState :=
  match s.plate.plate with
  | some p => if p.digest = (s.tintOf t).plate then .cold else .dormant
  | none => .dormant

/-- A load ends without becoming hot; its descriptor gets a status. -/
def State.endLoad (s : State) (t status : Nat) : State :=
  let x := s.tintOf t
  let s := match x.loadItem with
    | some (k, _) => s.finish k status
    | none => s
  let s := (s.stopTint t).clearSlot t
  s.setTint t { s.tintOf t with state := s.restState t, loadItem := none, moved := 0, hotDue := false }

/-- TINT_EVICT (R24, R298): the request waits for its tick. -/
def execTintEvict (k : ItemKey) (s : State) : Out :=
  match s.fresh k 0x13 with
  | none => .next s
  | some i =>
    let t := i.field 0x10 2
    let x := s.tintOf t
    if !s.registered k.set t then .next (s.finish k St.notPermitted)
    else if x.state = .withdrawing then .next (s.finish k St.tintWithdrawn)
    else
      -- a later request cancels a queued load when it takes effect; one that waits already keeps its place
      let w := match x.evict with | some w => w | none => s.waitFrom i.obs.toNat
      .next ((s.setTint t { x with evict := some w, evictItems := x.evictItems ++ [k] }).setPhase k .waiting)

/-- A tint becomes EVICTING: sessions that hold a lease are marked (R298, R311). -/
def State.startEviction (s : State) (t : Nat) : State :=
  let x := s.tintOf t
  let s := s.each (s.leases x.owner t) fun s c => s.setSes c { s.sesOf c with reloadDue := true }
  s.setTint t { s.tintOf t with state := .evicting }

/-- A TINT_EVICT has taken effect: the commit point that fixed its tick has passed, and the tick has come (R24). -/
def State.inEffect (s : State) (k : ItemKey) : Bool :=
  match s.item? k with
  | some i => match i.eligible with | some e => fnLe e s.tbm.fn | none => false
  | none => true

/-- Where the TINT_EVICT descriptors of a tint that are not yet in effect stand (R24). -/
def State.nextEvict (s : State) (ks : List ItemKey) : Option Wait :=
  match ks.filterMap s.item? with
  | i :: _ => some (s.waitFrom i.obs.toNat)
  | [] => none

/-- EVICTION_EFFECT (R297, R298, R318): a requested eviction takes effect at its tick; a HOT tint that is not pinned may be evicted
by the director at a tick of its own choice. -/
def execEvictionEffect (t : Nat) (s : State) : Out :=
  let x := s.tintOf t
  if s.saf.safe then .next s
  else if x.evict ≠ some .due then
    if x.state = .hot && !x.pinned && x.evict.isNone && s.tbm.tb = s.tbm.tLast then .next (s.startEviction t) else .next s
  else if x.withdraw = some .due then
    .next ((s.setTint t { x with evict := none, evictItems := [] }).finishAll x.evictItems St.tintWithdrawn)
  else
    let now := x.evictItems.filter s.inEffect
    let later := x.evictItems.filter fun k => !s.inEffect k
    let s := s.setTint t { x with evict := s.nextEvict later, pinned := false }
    match x.state with
    | .hot => .next (s.startEviction t)
    | .loading =>
      let s := s.endLoad t St.aborted
      .next ((s.setTint t { s.tintOf t with evictItems := later }).finishAll now St.ok)
    | .evicting => .next s
    | .queuedOn => .next (s.dropQueued t St.aborted)
    | .withdrawing => .next ((s.setTint t { s.tintOf t with evict := none, evictItems := [] }).finishAll x.evictItems St.tintWithdrawn)
    | _ => .next ((s.setTint t { s.tintOf t with evictItems := later }).finishAll now St.ok)

/-- Write-through tiles of a tint that have not ended are written (R296, R298). -/
def State.finishWriteThrough (s : State) (t : Nat) : State := s.setTint t { s.tintOf t with writeThrough := 0 }

/-- EVICTION_COMPLETE (R298, R299): no item is in passage with the tint and its write-through has ended; the slot is cleared and
a queued load or pin runs as a new claim. -/
def execEvictionComplete (t : Nat) (s : State) : Out :=
  let x := s.tintOf t
  if (x.state ≠ .evicting && x.state ≠ .queuedOn) || s.inPassageWith x.owner t || s.saf.safe then .next s
  else
    let s := (((s.finishWriteThrough t).stopTint t).clearSlot t)
    let now := x.evictItems.filter s.inEffect
    let s := s.setTint t { s.tintOf t with state := s.restState t, evictItems := x.evictItems.filter fun k => !s.inEffect k }
    let s := s.finishAll now St.ok
    match x.queued with
    | none => .next s
    | some q =>
      let s := s.setTint t { s.tintOf t with queued := none }
      let item := q.item.map fun k => (k, q.pin)
      if (s.tintOf t).state ≠ .cold then .next (match q.item with | some k => s.finish k St.aborted | none => s)
      else match q.slot with
        | some h =>
          if (s.slotOf h).gen = q.expected then .next (s.claimFor t (some h) q.expected item) else .next (s.claimFor t none 0 item)
        | none => .next (s.claimFor t none 0 item)

/-! ### Withdrawal (R312) -/

/-- TINT_WITHDRAW (R24, R312). -/
def execTintWithdraw (k : ItemKey) (s : State) : Out :=
  match s.fresh k 0x14 with
  | none => .next s
  | some i =>
    let t := i.field 0x10 2
    let x := s.tintOf t
    if !s.registered k.set t then .next (s.finish k St.notPermitted)
    else
      let w := if x.state = .withdrawing then x.withdraw else match x.withdraw with | some w => some w | none => some (s.waitFrom i.obs.toNat)
      .next ((s.setTint t { x with withdraw := w, withdrawItems := x.withdrawItems ++ [k] }).setPhase k .waiting)

/-- What a withdrawal ends at its tick (R312), or the fence of a tint that acts as one (R487): `status` for its items. -/
def State.startWithdrawal (s : State) (t status : Nat) : State :=
  let x := s.tintOf t
  let p := x.owner
  -- items in passage and pending items
  let s := s.endItems (s.openItems fun k i => s.worksWith p t k i) status
  let s := s.endItems (s.openItems fun k i => k.set = p && (i.op = 0x28 || i.op = 0x29) && i.field 0x10 2 = t) status
  -- loads, pins and evictions that wait
  let s := s.dropQueued t status
  let s := match (s.tintOf t).loadItem with
    | some (k, _) => s.finish k status
    | none => s
  let s := s.finishAll x.evictItems status
  -- sessions; one whose close takes effect at this tick goes to CLOSING (Table 10.12)
  let ls := (s.leases p t).filter fun c => (s.sesOf c).close ≠ some .due
  let s := if ls.isEmpty then s else s.raise Reg.sesStatus 1
  let s := s.each ls fun s c =>
    let y := s.sesOf c
    ((s.freeKv c).setSes c { y.cleared with state := .withdrawn }).event p 10 St.tintWithdrawn t 0 0 c
  let s := (s.stopTint t).abandonCmds t
  let s := s.setTint t { s.tintOf t with train.cur := Batch.init, train.replay := [], train.restore := none }
  s.setTint t { s.tintOf t with state := .withdrawing, withdraw := none, evict := none, evictItems := [], loadItem := none, queued := none,
                                pinned := false, hotDue := false, writeThrough := 0 }

/-- WITHDRAW_EFFECT (R312, R318). -/
def execWithdrawEffect (t : Nat) (s : State) : Out :=
  if (s.tintOf t).withdraw ≠ some .due || s.saf.safe then .next s else .next (s.startWithdrawal t St.tintWithdrawn)

/-- Objects of a tint: components, statistics, gradient slices and snapshots. -/
def State.tintObj (s : State) (t h : Nat) (o : Obj) : Bool :=
  let x := s.tintOf t
  (o.kind = .snapshot && h / 67108864 = x.owner && x.train.snaps.any fun y => y.handle = o.of) ||
    ((o.kind = .tintComponent || o.kind = .optimiser || o.kind = .other) &&
      (x.componentOf o.of).isSome) ||
    (o.kind = .carried && h / 67108864 = x.owner && o.of = t) ||
    (o.kind = .other && x.comps.isEmpty && h / 67108864 = x.owner && o.of / 67108864 = 32)

/-- WITHDRAW_COMPLETE (R312): slot, copies and snapshots are cleared; the entry becomes FREE. -/
def execWithdrawComplete (t : Nat) (s : State) : Out :=
  let x := s.tintOf t
  if x.state ≠ .withdrawing then .next s
  else
    let s := s.clearSlot t
    let s := s.freeObjs fun h o => s.tintObj t h o
    .next ((s.setTint t Tint.init).finishAll x.withdrawItems St.ok)

end Sys2Proof.Machine
end

