-- ==== Sys2Proof/Machine/Sessions.lean ====
section
/-! DEFINITION. Sessions and serve items (chapter 10): opening, closing, steps and prefills as they are accepted. -/

namespace Sys2Proof.Machine

/-- The context lies in the partition's range. -/
def State.ctxInRange (s : State) (p c : Nat) : Bool :=
  decide ((s.part p).alloc.sesFirst ≤ c) && decide (c ≤ (s.part p).alloc.sesLast)

/-! ### Placement words (R231-R233) -/

/-- Mode, tier, hint and s_extents of a placement word. -/
def plMode (w : Nat) : Nat := w % 4
def plTier (w : Nat) : Nat := w / 4 % 4
def plHint (w : Nat) : Nat := w / 16 % 16
def plExtents (w : Nat) : Nat := w / 256 % 4096

/-- The session's placement fields after a placement word (R231): KEEP changes nothing; TIER H, and HINT COLD, make tier H the home of its
closed extents. -/
def Ses.placed (x : Ses) (w : Nat) : Ses :=
  if plMode w = 0 then x
  else { x with sExtents := plExtents w, cold := (plMode w = 1 && plTier w = 2) || (plMode w = 2 && plHint w = 3) }

/-- A placement word on a session: none where it is allowed, else its status (R232, R233). Sessions live in S or H. Under TIER, the closed
extents that it moves must have room where they go: H needs an area. -/
def State.sessionPlacement (s : State) (p c w : Nat) : Option Nat :=
  if plMode w ≠ 1 then none
  else if plTier w = 0 then some St.badDescriptor
  else
    let x := s.sesOf c
    let closed := if x.state = .opened then x.sExt + x.hExt - 1 else 0
    let out := closed - (x.placed w).keeps closed
    if plTier w = 2 && s.hSize p = 0 then some St.notPermitted
    else if x.hExt + x.hQueued < out && decide (s.hSize p < s.hUsed p + (out - x.hExt - x.hQueued) * s.extentSealed) then some St.notPermitted
    else if out < x.hExt && !s.sRoom p ((x.hExt - out) * s.extentBytes) then some St.notPermitted
    else none

/-! ### Opening and closing -/

/-- Tier S bytes that a session takes as it opens: its open extent and its carried state. -/
def State.openBytes (s : State) : Nat := s.extentBytes + packedSize kvForm.1 kvForm.2

/-- Tier S has room for a session of a partition: in its allocation, and on a live stack (R222, R233). -/
def State.sessionRoom (s : State) (p : Nat) : Bool := s.sRoom p s.openBytes && !(s.stacksWith s.openBytes).isEmpty

/-- The context opens (R306, R310): position count 0, its open extent in tier S, on a home stack of the director's choice; `w` is its
placement word. -/
def State.openSession (s : State) (p c t w : Nat) (k : ItemKey) : State :=
  let (r, s) := s.draw32
  let ok := s.stacksWith s.openBytes
  let home := ok.getD (r.toNat % max 1 ok.length) 0
  let (s, kv, carried) := s.openKv c p home
  let x : Ses := { Ses.init with state := .opened, tint := t, home := home, owner := p, sExt := 1, kv := kv, carried := carried, sExtents := plExtents w }
  let s := s.setSes c (x.placed w)
  let s := { s with saf := { s.saf with greySessions := s.saf.greySessions.filter fun x => x ≠ c } }
  s.finish k St.ok (resultOf (leBytes 2 c ++ leBytes 1 home))

/-- The tint may take a lease: registered and not WITHDRAWING. -/
def State.mayLease (s : State) (p t : Nat) : Bool := s.registered p t && (s.tintOf t).state ≠ .withdrawing

/-- Free contexts of a partition. -/
def State.freeContexts (s : State) (p : Nat) : List Nat :=
  let a := (s.part p).alloc
  ((List.range (a.sesLast + 1 - a.sesFirst)).map fun i => a.sesFirst + i).filter fun c => decide ((s.sesOf c).state = .free)

/-- SESSION_OPEN (R231-R233, R306, R310). -/
def execSessionOpen (k : ItemKey) (s : State) : Out :=
  match s.fresh k 0x18 with
  | none => .next s
  | some i =>
    let p := k.set
    let c := i.field 0x10 2
    let t := i.field 0x12 2
    let w := i.field 0x14 4
    match s.sessionPlacement p 0xFFFF w with
    | some e => .next (s.finish k e)
    | none =>
      if !s.mayLease p t || !s.sessionRoom p then .next (s.finish k St.notPermitted)
      else if c = 0xFFFF then
        let (x, s) := s.draw32
        let free := s.freeContexts p
        match free[x.toNat % max 1 free.length]? with
        | some c => .next (s.openSession p c t w k)
        | none => .next (s.finish k St.sessionLimit)
      else if !s.ctxInRange p c then .next (s.finish k St.notPermitted)
      else
        let x := s.sesOf c
        match x.state with
        | .free => .next (s.openSession p c t w k)
        | .opened | .withdrawn => .next (s.finish k St.notPermitted)
        | .closing => .next ((s.setSes c { x with state := .queuedOn, queued := some (k, t, w) }).setPhase k .waiting)
        | .queuedOn =>
          let s := match x.queued with | some (k', _) => s.finish k' St.aborted | none => s
          .next ((s.setSes c { x with queued := some (k, t, w) }).setPhase k .waiting)

/-- SESSION_CLOSE (R24, R310). -/
def execSessionClose (k : ItemKey) (s : State) : Out :=
  match s.fresh k 0x19 with
  | none => .next s
  | some i =>
    let c := i.ctxNo
    let x := s.sesOf c
    if !s.ctxInRange k.set c then .next (s.finish k St.notPermitted)
    else match x.state with
    | .free => .next (s.finish k St.notPermitted)
    | .closing => .next ((s.setSes c { x with closeItems := x.closeItems ++ [k] }).setPhase k .waiting)
    | .queuedOn =>
      let s := match x.queued with | some (k', _) => s.finish k' St.aborted | none => s
      .next ((s.setSes c { x with state := .closing, queued := none, closeItems := x.closeItems ++ [k] }).setPhase k .waiting)
    | .opened | .withdrawn =>
      let w := match x.close with | some w => w | none => s.waitFrom i.obs.toNat
      .next ((s.setSes c { x with close := some w, closeItems := x.closeItems ++ [k] }).setPhase k .waiting)

/-- A session ends: its items get a status, its lease is released, and its extents are freed while it is CLOSING. -/
def State.endSession (s : State) (c status : Nat) : State :=
  let p := (s.sesOf c).owner
  let s := s.endItems (s.openItems (ofSession p c)) status
  (s.freeKv c).setSes c { (s.sesOf c).cleared with state := .closing, close := none }

/-- SESSION_CLOSE_EFFECT (R310, R318): where the tint's withdrawal takes effect at the same tick, the items say so. -/
def execSessionCloseEffect (ctx : Nat) (s : State) : Out :=
  let x := s.sesOf ctx
  if x.close ≠ some .due || s.saf.safe then .next s
  else match x.state with
  | .opened | .withdrawn =>
    .next (s.endSession ctx (if (s.tintOf x.tint).withdraw = some .due || (s.tintOf x.tint).state = .withdrawing then St.tintWithdrawn else St.aborted))
  | _ => .next s

/-- SESSION_SCRUB_DONE (R310): the context is FREE, or opens for the request behind it. -/
def execSessionScrubDone (ctx : Nat) (s : State) : Out :=
  let x := s.sesOf ctx
  if x.state ≠ .closing && x.state ≠ .queuedOn then .next s
  else
    let s := (s.setSes ctx Ses.init).finishAll x.closeItems St.ok
    match x.queued with
    | none => .next s
    | some (k, t, n) => .next (if s.mayLease x.owner t && s.sessionRoom x.owner then s.openSession x.owner ctx t n k else s.finish k St.notPermitted)

/-! ### Router slots of an expert layer (R303) -/

/-- What a router slot of an expert layer stands for. -/
inductive RouterSlot
  /-- An expert of the plate. -/
  | plate (expert : Nat)
  /-- An added expert of the bound tint. -/
  | added (c : Component)
  /-- No expert: no token routes to it. -/
  | absent
  deriving DecidableEq, Repr

/-- Router slots of an expert layer: those of the plate's experts, and the spare ones. -/
def Plate.routerSlots (p : Plate) : Nat := p.experts + p.spareRouter

/-- Slots 0 to E - 1 are the plate's experts; slot E + j is the added expert j of the bound tint, if it has one for the layer. -/
def State.routerSlot (s : State) (t layer slot : Nat) : RouterSlot :=
  match s.plate.plate with
  | none => .absent
  | some p =>
    if slot < p.experts then .plate slot
    else match (s.tintOf t).comps.find? fun c => c.kind = 3 && c.layer = layer && p.experts + c.index = slot with
      | some c => if slot < p.routerSlots then .added c else .absent
      | none => .absent

/-- The logit of a router slot: what its router row gives, or minus infinity where it has no expert. -/
def State.routerLogit (s : State) (t layer slot : Nat) (row : Word) : Word := if s.routerSlot t layer slot = .absent then 0xFF800000 else row

/-- The logits of a layer's router for a bay bound to a tint, from what the rows give. -/
def State.routerLogits (s : State) (t layer : Nat) (rows : List Word) : List Word := rows.zipIdx.map fun e => s.routerLogit t layer e.2 e.1

/-! ### Serve items -/

/-- Rows that a tint adds to the vocabulary (R304). -/
def Tint.addedRows (t : Tint) : Nat := (t.comps.map fun c => if c.kind = 4 then c.rows else 0).sum

/-- A token ID is known for a tint: below vocab plus the added rows (R304). With no plate loaded the vocabulary is not known. -/
def State.tokenOk (s : State) (t id : Nat) : Bool :=
  match s.plate.plate with
  | some p => decide (id < p.vocab + (s.tintOf t).addedRows)
  | none => true

/-- A SESSION_OPEN or SESSION_CLOSE of the set was observed earlier and has not been taken up. -/
def State.sessionEarlier (s : State) (k : ItemKey) (i : Item) : Bool :=
  s.items.any fun e => e.1.set = k.set && e.1 ≠ k && e.2.phase = .fetched && e.2.done.isNone && (e.2.op = 0x18 || e.2.op = 0x19) &&
    decide (e.2.order < i.order)

/-- Why a serve item is not accepted at its observation (R306, R231-R233), or the session's tint. -/
def State.serveCheck (s : State) (k : ItemKey) (i : Item) : Except Nat Nat :=
  let x := s.sesOf i.ctxNo
  if !s.ctxInRange k.set i.ctxNo then .error St.notPermitted
  else match x.state with
  | .free | .closing | .queuedOn => .error St.notPermitted
  | .withdrawn => .error St.tintWithdrawn
  | .opened =>
    match s.sessionPlacement k.set i.ctxNo (i.field 0x18 4) with
    | some e => .error e
    | none => .ok x.tint

/-- A placement word of a serve item, unless it is KEEP, sets where the session's closed extents live: those that it moves are queued
(R225, R231, R248). -/
def State.place (s : State) (c w : Nat) : State :=
  if plMode w = 0 then s
  else
    let x := s.sesOf c
    (s.setSes c (x.placed w)).placeExtents c (x.sExt + x.hExt)

/-- The first item of a session that is still to run, in order of observation (R307). -/
def State.sessionHead (s : State) (p c : Nat) : Option ItemKey := (s.openItems (ofSession p c)).head?

/-- The extents that a session of `n` positions needs have room in tier S (R222, R233, R248). -/
def State.growRoom (s : State) (c n : Nat) : Bool :=
  let x := s.sesOf c
  let new := extentsAt n - (x.sExt + x.hExt)
  new = 0 || (s.sRoom x.owner (new * s.extentBytes) && decide (s.stackUsed x.home + new * s.extentBytes ≤ 103079215104))

/-- Judges the item of a session that runs next (R233, R308, R309): a prefill must start at the session's count, no position above
16,777,215 is written, and tier S has room for the extents that it opens. -/
def State.judgeHead (s : State) (p c : Nat) : State :=
  match s.sessionHead p c with
  | none => s
  | some k =>
    match s.item? k with
    | none => s
    | some i =>
      let n := (s.sesOf c).positions
      if i.phase ≠ .waiting then s
      else if i.op = 2 && i.field 0x14 4 % 16777216 ≠ n then s.finish k St.badDescriptor
      else if 16777216 < n + i.positions then (s.finish k St.positionLimit).raise Reg.sesStatus 0
      else if !s.growRoom c (n + i.positions) then s.finish k St.notPermitted
      else s

/-- SERVE_STEP (R304, R306, R308): the checks at its observation. -/
def execServeStep (k : ItemKey) (s : State) : Out :=
  match s.fresh k 1 with
  | none => .next s
  | some i =>
    if s.sessionEarlier k i then .next s
    else match s.serveCheck k i with
    | .error e => .next (s.finish k e)
    | .ok t =>
      if !s.tokenOk t (i.field 0x14 4) then .next (s.finish k St.badDescriptor)
      else .next (((s.place i.ctxNo (i.field 0x18 4)).setPhase k .waiting).judgeHead k.set i.ctxNo)

/-- SERVE_PREFILL (R304, R306, R308, R309): its token IDs come with the command, none where the host read fails. -/
def execServePrefill (k : ItemKey) (tokens : Option Blob) (s : State) : Out :=
  match s.fresh k 2 with
  | none => .next s
  | some i =>
    if s.sessionEarlier k i then .next s
    else match s.serveCheck k i with
    | .error e => .next (s.finish k e)
    | .ok t =>
      match tokens with
      | none => .next (s.finish k St.uncorrectable)
      | some bs =>
        let ids := (List.range (i.field 0x1C 4)).map fun j => leAt bs (4 * j) 4
        if !(ids.all (s.tokenOk t)) then .next (s.finish k St.badDescriptor)
        else
          let s := (s.place i.ctxNo (i.field 0x18 4)).modItem k fun (i : Item) => { i with phase := .waiting, ids := ids }
          .next (s.judgeHead k.set i.ctxNo)

end Sys2Proof.Machine
end

