-- ==== Sys2Proof/Machine/Inserts.lean ====
section
/-! DEFINITION. Insert programs and the insert lane (R56, R126, R313-R317). -/

namespace Sys2Proof.Machine

/-! ### Pinning (R313-R315) -/

/-- Elements that an inline input may hold (Table 10.10). -/
def inlineMax (f : Nat) : Nat := match fmtBits f with | 4 => 64 | 8 => 32 | _ => 8

/-- Step `i` of an image. -/
def stepAt (img : Blob) (i : Nat) : Shot := BitVec.ofNat 512 (leNat (slice img (64 + 64 * i) 64))

/-- Bytes of the data area that a step reads, as (offset, length): its B tiles, its table and its bias (R314). -/
def Shot.dataRuns (d : Shot) : List (Nat × Nat) :=
  let kk := cdiv d.kLen 64
  let size := readySize d.bFmt d.bBlk
  let (rows, cols) := if d.transB then (kk, d.tilesN) else (d.tilesN, kk)
  ((List.range rows).map fun i => (64 * d.bRef + i * d.bLd * size, cols * size)) ++
    (if d.bFmt = 3 then [(64 * d.lutRef, 32)] else []) ++ (if d.initBias then [(64 * d.biasRef, 2 * d.colsN)] else [])

/-- One step satisfies R120, R314 and Table 5.11; the A operand has the format of what it reads. -/
def stepOk (d : Shot) (fmt blk k data : Nat) : Bool :=
  aShotOk d && d.first && d.last && d.tile = 3 && d.rowsM = 1 && decide (d.kCycles ≤ 32) && d.kLen = k && decide (d.colsN ≤ 64) &&
    activationFmt d.outFmt && (activationFmt d.bFmt || d.bFmt = 3) && !d.summaryEn && d.aRef = 0 && d.outRef = 0 && d.aFmt = fmt && d.aBlk = blk &&
    d.dataRuns.all fun r => decide (r.1 + r.2 ≤ data)

/-- The steps from index `i` on. -/
def stepsOk (img : Blob) (data : Nat) : Nat → Nat → Nat → Nat → Nat → Bool
  | 0, _, _, _, _ => true
  | c + 1, i, fmt, blk, k =>
    let d := stepAt img i
    stepOk d fmt blk k data && stepsOk img data c (i + 1) d.outFmt d.outBlk d.colsN

/-- FORMAT of Table 10.11: R313, R314 and R120. -/
def insertImageOk (img : Blob) (len : Nat) : Bool :=
  let n := leAt img 6 1
  let f := leAt img 7 1
  let k := leAt img 8 1
  let data := leAt img 0x0C 4
  leAt img 0 4 = 0x54534E49 && leAt img 4 2 = 1 && decide (1 ≤ n) && decide (n ≤ 16) && decide (f < 16) && activationFmt f &&
    decide (1 ≤ k) && decide (k ≤ inlineMax f) && allZero (slice img 9 3) && data % 64 = 0 && allZero (slice img 0x10 48) &&
    len = 64 + 64 * n + data && stepsOk img data n 0 f 0 k

/-- SES_STATUS.cfg_err. -/
def State.sesErr (s : State) : State := s.raise Reg.sesStatus 2

/-- The program pinned in a slot. -/
def State.pin (s : State) (n : Nat) : Option Pin := Sparse.get (fun _ => none) s.ins.pins n

/-- An INSERT for the pin slot is queued or running. -/
def State.pinBusy (s : State) (n : Nat) : Bool :=
  s.ins.queue.any fun k => match s.item? k with | some i => i.field 0x10 1 = n | none => false

/-- INSERT_PIN (R315, R320): go is written; a write while pinning runs is ignored. -/
def execInsertPin (slot owner : Nat) (s : State) : Out :=
  if s.ins.pinning.isSome then .next s
  else
    let s := s.setReg Reg.sesInsCtrl (BitVec.ofNat 32 (slot % 64 + 64 * (owner % 64) + 2147483648))
    .next { s with ins := { s.ins with pinning := some (slot % 64, owner % 64) } }

/-- INSERT_PIN_DONE (R313-R315, Table 10.11): the image is what the host read gives, none where it fails. -/
def execInsertPinDone (img : Option Blob) (s : State) : Out :=
  match s.ins.pinning with
  | none => .next s
  | some (n, o) =>
    let len := (s.reg Reg.sesInsLen).toNat
    let at_ := 64 * s.regFld Reg.sesInsRef 0 31
    let banks := banksOf at_ len
    let own := fun b : Nat => decide (b < 1536) && decide ((s.bank b).owner = o)
    let code : Nat :=
      match img with
      | none => 0x0E
      | some b =>
        if !(decide (o < 32) && s.ownerExists o && own (at_ / 16777216)) then 0x0D
        else if !insertImageOk (slice b 0 len) len then 0x02
        else if (s.pin n).isSome then 0x0B
        else if !(banks.all own) then 0x0C
        else 0
    let s := { s with ins := { s.ins with pinning := none, code := code } }
    let s := s.setFld Reg.sesInsCtrl 31 1 0
    match img with
    | some b =>
      if code = 0 then
        let b := slice b 0 len
        let s := s.writeF at_ b
        let pin : Pin := { owner := o, steps := (List.range (leAt b 6 1)).map (stepAt b), inFmt := leAt b 7 1, inK := leAt b 8 1, ref := at_ / 64,
                           len := len, digest := sha512 b }
        .next { s with ins := { s.ins with pins := Sparse.set (fun _ => none) s.ins.pins n (some pin) } }
      else .next s
    | none => .next s

/-- INSERT_UNPIN (R315). -/
def execInsertUnpin (slot : Nat) (s : State) : Out :=
  if s.pinBusy slot then .next s.sesErr
  else .next { s with ins := { s.ins with pins := Sparse.set (fun _ => none) s.ins.pins slot none } }

/-! ### INSERT (R316, R317) -/

/-- Order of observation, ties by partition, ring and index (R316). -/
def insertRank (s : State) (k : ItemKey) : Nat :=
  let obs := match s.item? k with | some i => i.obs.toNat | none => 0
  ((obs * 64 + k.set) * 16 + k.sq) * 65536 + k.idx

/-- INSERT: the checks of R317; an accepted program queues. A running program keeps its place at the front. -/
def execInsert (k : ItemKey) (s : State) : Out :=
  match s.fresh k 0x20 with
  | none => .next s
  | some i =>
    match s.pin (i.field 0x10 1) with
    | none => .next (s.finish k St.notPermitted)
    | some p =>
      if s.cadenceCycles = 0 || p.owner ≠ k.set then .next (s.finish k St.notPermitted)
      else
        let bits := fmtBits p.inFmt * p.inK
        if i.field 0x11 1 ≠ p.inFmt || i.field 0x12 1 ≠ p.inK || fld i.raw (8 * 0x20 + bits) (256 - bits) ≠ 0 then .next (s.finish k St.badDescriptor)
        else
          let s := s.setPhase k .waiting
          let sorted := fun (xs : List ItemKey) => sortBy (insertRank s) xs
          let q := match s.ins.queue with
            | x :: xs => if s.ins.step > 0 then x :: sorted (xs ++ [k]) else sorted (x :: xs ++ [k])
            | [] => [k]
          .next { s with ins := { s.ins with queue := q } }

/-- The inline input's codes, packed from byte 0x20 (R155, R381). -/
def Item.inline (i : Item) (fmt n : Nat) : List Nat := (List.range n).map fun j => fld i.raw (8 * 0x20 + fmtBits fmt * j) (fmtBits fmt)

/-- Packs codes end to end (R155, R383). -/
def packCodes (fmt : Nat) (cs : List Nat) : Blob :=
  leBytes (cdiv (fmtBits fmt * cs.length) 8) (cs.foldr (fun c a => c + 2 ^ fmtBits fmt * a) 0)

/-- The drain of the lane's step in progress, if one runs (R126). -/
def State.laneDrain (s : State) : Option Drain := s.grid.drains.find? fun (d : Drain) => d.lane

/-- The lane's step in progress has drained by now: no spare that shadows it reported a difference before. -/
def State.endLane (s : State) : State :=
  match s.laneDrain with
  | some dr => (s.toDrainEnd dr).endDrain dr []
  | none => s

/-- The row that the last step returned: the program completes with it and its nibble (R317, R383). -/
def State.completeInsert (s : State) : State :=
  match s.ins.queue, s.ins.row with
  | k :: rest, some (codes, _, nib) =>
    if !s.ins.draining then s
    else
      let outFmt := match s.item? k with
        | some i => match s.pin (i.field 0x10 1) with
          | some p => Shot.outFmt (p.steps.getLastD 0)
          | none => 0
        | none => 0
      let addr := match s.item? k with | some i => i.field 0x18 8 | none => 0
      let s := { s with ins := { s.ins with queue := rest, step := 0, row := none, draining := false, last := none } }
      let s := s.setTally k.set { s.tallyOf k.set with inserts := (s.tallyOf k.set).inserts + 1 }
      s.deliver k St.ok (resultOf (leBytes 4 codes.length)) nib [(addr, padTo 128 (packCodes outFmt codes))]
  | _, _ => s

/-- INSERT_COMPLETE (R317): the last step has drained. -/
def execInsertComplete (s : State) : Out :=
  if s.saf.safe then .next s
  else if s.ins.draining then .next s.endLane.completeInsert
  else .next s

/-- One step of a program on its row (R126-R129, R314): tile 3 accumulates the row's products and drains when the step's cycles have
passed. `o` is the segment in which the window opened, at cycle `cyc`. -/
def State.insertStep (s : State) (o cyc owner base : Nat) (d : Shot) (codes scales : List Nat) : State :=
  let at_ := fun (off : Nat) => Place.at_ (base + off)
  let table := s.readAt (at_ (64 * d.lutRef)) 32
  let xb : Operand := { fmt := d.bFmt, blk := d.bBlk, zp := d.bZp, place := at_ (64 * d.bRef), ld := d.bLd, trans := d.transB,
                        lut := fun i => leAt table (2 * i) 2 }
  let bias := s.readAt (at_ (64 * d.biasRef)) (2 * d.colsN)
  let a := fun k : Nat => expand d.aFmt d.aZp (fun _ => 0) (codes.getD k 0) (if d.aBlk = 0 then none else some (scales.getD k 127))
  let s := s.setTile 3 { AccTile.init with state := .acc, op := d.opTag }
  let s := s.accumulateOn d bias (fun _ => a) (s.elem xb)
  s.beginDrain o owner d none none (cyc + d.kCycles) true

/-- Queued programs of a FROZEN partition stay pending (R412): the lane passes over them. -/
def State.orderLane (s : State) : State :=
  let held := fun (k : ItemKey) => decide (k.set < 32) && (s.part k.set).state = .frozen
  if s.ins.step > 0 then s
  else { s with ins := { s.ins with queue := s.ins.queue.filter (fun k => !held k) ++ s.ins.queue.filter held } }

/-- ACLK cycles that have passed by `now` on a count of the lane. -/
def State.laneCycles (s : State) (now : Nat) (e : Nat × Nat) : Nat := e.1 + (now - e.2) / stepPeriod s.pwr.step

/-- The insert lane takes an open window (R126, R314, R316): the front program's next step, unless the previous one is less than 120
cycles old. A program whose banks its partition may not access ends with FENCED_UNIT (R260), and one that reads an uncorrectable word with
UNCORRECTABLE (R3, R264). `o` and `cyc` are the segment and the
cycle of the window. -/
def State.useWindow (s : State) (o cyc now : Nat) : State :=
  let early := match s.ins.last with | some e => decide (s.laneCycles now e < 120) | none => false
  if early then s
  else
  let s := s.endLane.completeInsert.orderLane
  match s.ins.queue with
  | [] => s
  | k :: rest =>
    match s.item? k with
    | none => { s with ins := { s.ins with queue := rest, step := 0, row := none, last := none } }
    | some i =>
      match s.pin (i.field 0x10 1) with
      | none => s
      | some p =>
        if s.ins.step = 0 && decide (k.set < 32) && (s.part k.set).state = .frozen then s
        else
          let d : Shot := p.steps.getD s.ins.step 0
          let base := 64 * p.ref + 64 + 64 * p.steps.length
          let runs := (d.dataRuns.map fun r => (base + r.1, r.2)).filter fun r => decide (0 < r.2)
          if !(runs.all fun r => s.accessOk p.owner false (.at_ r.1) r.2) then s.faultProgram p.owner
          else
            let front := s.ins.queue
            let s := s.usePort (mkUse Rq.insert p.owner false runs (s.cycleT o cyc) (s.cycleT o (cyc + d.kCycles)))
            let (s, bad) := s.eccRead runs
            -- a wait that missed the lane's latency has ended the program (R261); so does an uncorrectable word (R3)
            if s.ins.queue ≠ front then s
            else if bad then s.cutProgram St.uncorrectable
            else
            let (codes, scales) := match s.ins.row with
              | some (c, sc, _) => (c, sc)
              | none => (i.inline p.inFmt p.inK, [])
            let s := s.insertStep o cyc p.owner base d codes scales
            let n := s.ins.step + 1
            -- the step computed in this frame
            let s := s.modItem k fun x => { x with lastFn := s.tbm.fn, firstFn := if n = 1 then s.tbm.fn else x.firstFn }
            { s with ins := { s.ins with step := n, last := some (0, now), draining := decide (p.steps.length ≤ n) } }

/-- INSERT_WINDOW (R56, R57, R126, R316): the next cadence point of a segment. A window opens if it can close before the segment's end,
and the lane uses it unless the previous one opened fewer than 96 cycles ago. -/
def execInsertWindow (owner : Nat) (s : State) : Out :=
  let x := s.ctx owner
  let c := s.cadenceCycles
  if c = 0 || !s.tbm.running || !x.begun || s.saf.safe then .next s
  else
    let cyc := x.winK * c
    let at_ := s.cycleTb owner cyc
    if x.endTb < at_ + 37 then .next s
    else
      let now := x.startTb * 105 + s.cycleTime owner cyc
      let s := s.advance at_
      let s := s.setCtx owner { s.ctx owner with winK := x.winK + 1 }
      let close := match s.ins.lastOpen with | some e => decide (s.laneCycles now e < 96) | none => false
      let s := { s with ins := { s.ins with lastOpen := some (0, now) } }
      if close then .next s else .next (s.useWindow owner cyc now)

end Sys2Proof.Machine
end

