-- ==== Sys2Proof/Machine/RegAccess.lean ====
section
/-! DEFINITION. Accesses to the setup window: which function sees which register, plain writes under the access codes of
Table 13.2 with the conditions that single registers set, and the error response (R367-R370). -/

namespace Sys2Proof.Machine

/-! ### Functions and views -/

/-- A function is on the link: the manager function, and a partition function while its partition exists (R367, Table 14.1).
In recovery only function 0 is visible (R521). -/
def State.fnPresent (s : State) (fn : Nat) : Bool :=
  if fn = 0 then true
  else if s.boot.stage = .recovery then false
  else if fn ≤ 32 then !((s.part (fn - 1)).state = .free || (s.part (fn - 1)).state = .creating)
  else false

/-- Where a function's own-view ring register lies among the per-set views (R397). -/
def ownRing (set off : Nat) : Nat := 0xA2000 + 0x400 * set + (off - 0xA1000)

/-- The offset lies in the own view of the rings. -/
def inOwnRings (off : Nat) : Bool := 0xA1000 ≤ off && off < 0xA1400

/-- The key of `State.regs` under which a function's offset is kept, or none where the function does not see it (R368). The
selectors of TNT and SES and MBX_STATUS have a copy for each function. -/
def State.regKey (s : State) (fn off : Nat) : Option Nat :=
  if s.boot.stage = .recovery ∧ off / 65536 ≠ 12 ∧ off / 65536 ≠ 18 then none
  else
    let set := if fn = 0 then 32 else fn - 1
    if off = Reg.queStatus then some (queStatusKey set)
    else if inOwnRings off then some (ownRing set off)
    else if fn = 0 then some off
    else if off = Reg.tntSel ∨ off = Reg.tntSlotSel ∨ off = Reg.sesSel ∨ off = Reg.mbxStatus then some (fn * 4294967296 + off)
    else none

/-! ### Plain writes -/

/-- The block whose lock bit covers an offset. -/
def lockBlockOf (off : Nat) : Option LockBlock :=
  match off / 65536 with
  | 1 => some .tb
  | 2 => some .sht
  | 3 => some .grd
  | 4 => some .vec
  | 5 => some .tier
  | 6 => some .bnk
  | 7 => some .nmd
  | 8 => some .tnt
  | 9 => some .ses
  | 12 => some .mbx
  | 13 => some .reel
  | 14 => some .sec
  | 15 => some .saf
  | 17 => some .pwr
  | _ => none

/-- RWL fields at an offset are read-only (Table 13.2). -/
def State.lockedAt (s : State) (off : Nat) : Bool :=
  match lockBlockOf off with
  | some b => s.locked b
  | none => false

/-- The value of a register after a write, by its access codes (R369): RW and RWL bits take the value, W1C bits written 1 clear. -/
def RegRow.after (r : RegRow) (lock : Bool) (old v : Word) : Word :=
  let m := if lock then r.rw else r.rw ||| r.rwl
  ((old &&& ~~~m) ||| (v &&& m)) &&& ~~~(v &&& r.w1c)

/-- What the device makes of a plain write before it stores it. -/
inductive Judged
  /-- The value is stored; fields whose written value is refused carry their previous value. -/
  | store (v : Word)
  /-- The write has no effect. -/
  | ignore
  /-- The write is ignored and sets bit `bit` of the register `status`. -/
  | cfgErr (status bit : Nat)
  deriving DecidableEq, Repr

/-- A field keeps its previous value where a condition on the written one fails. -/
def keepUnless (old v : Word) (lo len : Nat) (ok : Nat → Bool) : Word :=
  if ok (fld v lo len) then v else putFld v lo len (fld old lo len)

/-- Sum of the tier H rates with partition `p` at `g` (R251). -/
def State.rateSum (s : State) (p g : Nat) : Nat :=
  ((List.range 32).map fun q => if q = p then g else s.regFld (Reg.tierHRate + 16 * q) 0 9).sum

/-- The set and ring number of a ring register's key (R397). -/
def ringOf (key : Nat) : Option (Nat × Nat × Nat) :=
  if 0xA2000 ≤ key ∧ key < 0xA2000 + 0x400 * 33 then
    some ((key - 0xA2000) / 0x400, (key - 0xA2000) % 0x400 / 0x20, (key - 0xA2000) % 0x20)
  else none

/-- Ring mode of ring `r` of a set: 0-15 SQs, 16-31 CQs. -/
def State.ringMode (s : State) (set r : Nat) : RingMode :=
  if r < 16 then ((s.ringSet set).sq.getD r SubRing.init).mode else ((s.ringSet set).cq.getD (r - 16) CompRing.init).mode

/-- Key of the CFG register of SQ `n` of a set. -/
def sqCfgKey (set n : Nat) : Nat := 0xA2000 + 0x400 * set + 0x20 * n + 0x10

/-- Key of the CFG register of CQ `n` of a set. -/
def cqCfgKey (set n : Nat) : Nat := 0xA2000 + 0x400 * set + 0x20 * (16 + n) + 0x10

/-- Another SQ of the set than `n` has kind INSERT (R371). -/
def State.otherInsert (s : State) (set n : Nat) : Bool :=
  (List.range 16).any fun m => m ≠ n && s.regBit (sqCfgKey set m) 1

/-- Judges the configuration word of a ring: the written value with refused fields kept, or none for a second insert ring
(R371, R397). -/
def State.ringCfg (s : State) (set r : Nat) (v : Word) : Option Word :=
  let okK := fun k : Nat => decide (6 ≤ k) && decide (k ≤ 16)
  if r < 16 then
    let old := s.reg (sqCfgKey set r)
    if bitOf v 1 && s.otherInsert set r then none else some (keepUnless old v 2 5 okK)
  else
    some (keepUnless (s.reg (cqCfgKey set (r - 16))) v 3 5 okK)

/-- A CQ's configuration word with the reserved wake mode 3: the write has no effect (R13, R389). -/
def wakeReserved (r : Nat) (v : Word) : Bool := decide (16 ≤ r) && fld v 1 2 = 3

/-- Conditions of single registers on a write (R13, R74, R251, R277, R364, R397, R400, R447, R475, R514, R525). -/
def State.judge (s : State) (key : Nat) (v : Word) : Judged :=
  let old := s.reg key
  if key = Reg.tbTickSrc then
    let ok := fun c : Nat => decide (c < 2) || decide (8 ≤ c)
    if ok (fld v 0 4) && ok (fld v 4 4) then .store v else .ignore
  else if key = Reg.tbCtrl then
    -- sync_arm: 0 disarms; SYNC_ARM arms
    if bitOf old 5 && !bitOf v 5 && s.anyActive then .cfgErr Reg.tbStatus 10 else .store (v &&& (~~~(0x20 : Word) ||| old))
  else if key = Reg.tbFnPreset ∨ key = Reg.tbRehearse then
    if s.anyActive then .cfgErr Reg.tbStatus 10 else .store v
  else if key = Reg.shtLoadCtrl then
    if s.player.load.isSome then .ignore else .store v
  else if key = Reg.grdCtrl ∨ key = Reg.vecCtrl then
    -- a write of 0 to chk_en or kat_en has its own command
    .store (v ||| old)
  else if key = Reg.tierCtrl then
    if s.plate.plate.isSome then .cfgErr Reg.tierStatus 4 else .store v
  else if Reg.tierHBaseLo ≤ key ∧ key < Reg.tierHBaseLo + 512 then
    let p := (key - Reg.tierHBaseLo) / 16
    if s.frameParts.contains p then .cfgErr Reg.tierStatus 4
    else if (key - Reg.tierHBaseLo) % 16 = 12 ∧ 400 < s.rateSum p (fld v 0 9) then .cfgErr Reg.tierStatus 4
    else .store v
  else if key = Reg.nmdCtrl then
    .store (keepUnless old v 8 5 fun h => decide (4 ≤ h) && decide (h ≤ 24))
  else if Reg.nmdUpdClip ≤ key ∧ key < Reg.nmdUpdClip + 128 then
    let c := fld v 0 16
    if c = 0 ∨ 0x7F80 < c then .cfgErr Reg.nmdUpdStatus 4 else .store v
  else if Reg.prtPState ≤ key ∧ key < Reg.prtPState + 0x800 then
    let p := (key - Reg.prtPState) / 64
    match (s.part p).state with
    | .free | .ready | .tearing | .queuedOn => .store v
    | _ => .cfgErr Reg.prtStatus 0
  else if key = Reg.reelGroup then
    if s.anyActive then .cfgErr Reg.reelStatus 7 else .store v
  else if key = Reg.secKeyCtrl then
    if fld v 0 2 = 1 ∨ fld v 0 2 = 2 then .store v else .ignore
  else if key = Reg.bootFlCtrl then
    if fld v 0 2 = 1 ∨ fld v 0 2 = 2 then .store v else .ignore
  else if key = Reg.pwrCtrl then
    .store (keepUnless old (keepUnless old v 0 10 fun u => decide (1 ≤ u) && decide (u ≤ 1000)) 10 6 fun h => decide (h ≠ 0))
  else if key = Reg.pwrDroop then
    let l1 := fld v 0 8; let l2 := fld v 8 8; let l3 := fld v 16 8; let h := fld v 24 8
    if h < l1 ∧ l1 < l2 ∧ l2 < l3 ∧ l3 ≤ 110 then .store v
    else if s.locked .pwr then .ignore else .cfgErr Reg.pwrStatus 7
  else
    match ringOf key with
    | some (set, r, o) =>
      if s.ringMode set r ≠ .off then .cfgErr (queStatusKey set) 4
      else if o = 0x10 then if wakeReserved r v then .ignore else
        match s.ringCfg set r v with
        | some w => .store w
        | none => .cfgErr (queStatusKey set) 4
      else .store v
    | none => .store v

/-- A plain write to a key (R369). A write to a locked RWL register changes nothing and sets no status. -/
def State.writeReg (s : State) (key : Nat) (v : Word) : State :=
  let off := key % 4294967296
  match regRow off with
  | none => s
  | some r =>
    let lock := s.lockedAt off
    if lock ∧ r.rw = 0 ∧ r.w1c = 0 then s
    else match s.judge key v with
      | .store w => s.setReg key (r.after lock (s.reg key) w)
      | .ignore => s
      | .cfgErr k b => s.raise k b

/-- TB_REHEARSE.arm written 0 disarms the preset, with no partition active; REHEARSE_ARM arms it (R74, R75). -/
def State.disarm (s : State) (key : Nat) (v : Word) : State :=
  if key = Reg.tbRehearse ∧ !bitOf v 31 ∧ !s.anyActive then { s with tbm := { s.tbm with presetArmed := false } } else s

/-- REGISTER_WRITE (R11, R13, R367-R369): a single 32-bit write by a function. What a function does not see has no effect; a
function that is not on the link receives the error response. -/
def execRegisterWrite (fn off : Nat) (v : Word) (s : State) : Out :=
  if !s.fnPresent fn then .next { s with uclResp := .error }
  else match s.regKey fn off with
    | some k => .next ((s.writeReg k v).disarm k v)
    | none => .next s

/-- REGISTER_ACCESS_ERROR (R367, R370): an access that is not a single aligned 32-bit access, or that addresses a function not on
the link, receives the error response and does nothing else. -/
def execRegisterAccessError (fn off size : Nat) (s : State) : Out :=
  if size ≠ 4 ∨ off % 4 ≠ 0 ∨ !s.fnPresent fn then .next { s with uclResp := .error } else .next s

/-- LOCK_WRITE (R75, R369): writing 1 to a block's lock bit locks its RWL registers until reset. -/
def execLockWrite (block : LockBlock) (s : State) : Out := .next (s.setFld (lockReg block) 0 1 1)

/-- CLG_COUNT_READ (R498): CLG_COUNT_LO is read and the upper half of N latched. -/
def execClgCountRead (s : State) : Out :=
  .next ({ s with clog := { s.clog with countHi := BitVec.ofNat 16 (fld s.clog.n 32 16) } }.answer (BitVec.ofNat 32 (fld s.clog.n 0 32)))

end Sys2Proof.Machine
end

