-- ==== Sys2Proof/Machine/Mailbox.lean ====
section
/-! DEFINITION. The mailboxes (R408-R411): the binding table, messages, denied accesses and the reset of a receiver. -/

namespace Sys2Proof.Machine

/-- The master ID exists (Table 14.4). -/
def masterOk (m : Nat) : Bool :=
  m = 0x01 || m = 0x02 || (decide (0x10 ≤ m) && decide (m ≤ 0x1B)) || m = 0x20 || (decide (0x40 ≤ m) && decide (m ≤ 0x5F)) ||
    m = 0x70 || m = 0x71

/-- Key of a master's own copy of MBX_STATUS (R419). -/
def mbxStatusKey (m : Nat) : Nat :=
  if m = 0x20 then Reg.mbxStatus
  else if 0x40 ≤ m ∧ m ≤ 0x5F then (m - 0x40 + 1) * 4294967296 + Reg.mbxStatus
  else (0x100 + m) * 4294967296 + Reg.mbxStatus

/-- Key of a channel's binding. -/
def bindKey (c : Nat) : Nat := Reg.mbxBind + 4 * c

/-- The sender and the receiver that a channel is bound to, if any (R408). -/
def State.bound (s : State) (c : Nat) : Option (Nat × Nat) :=
  let w := s.reg (bindKey c)
  if c < 64 ∧ bitOf w 31 ∧ fld w 0 8 ≠ fld w 8 8 then some (fld w 0 8, fld w 8 8) else none

/-- Message length of a channel. -/
def State.mbxWords (s : State) (c : Nat) : Nat := s.regFld (bindKey c) 16 5

/-- The master is the channel's sender. -/
def State.isSender (s : State) (m c : Nat) : Bool := match s.bound c with | some b => b.1 = m | none => false

/-- The master is the channel's receiver. -/
def State.isReceiver (s : State) (m c : Nat) : Bool := match s.bound c with | some b => b.2 = m | none => false

/-- An access by a master that the channel is not bound to (R410). -/
def State.deny (s : State) (m : Nat) : State := s.raise (mbxStatusKey m) 0

/-- An access out of protocol order (R410). -/
def State.outOfOrder (s : State) (m : Nat) : State := s.raise (mbxStatusKey m) 1

/-- MBX_BIND_WRITE (R408, R419): the manager function writes an entry of the binding table. -/
def execMbxBindWrite (c : Nat) (v : Word) (s : State) : Out :=
  if 63 < c || s.locked .mbx then .next s
  else if bitOf v 31 && !(masterOk (fld v 0 8) && masterOk (fld v 8 8)) then .next (s.raise Reg.mbxStatus 2)
  else
    let v := keepUnless (s.reg (bindKey c)) v 16 5 fun n => decide (8 ≤ n) && decide (n ≤ 16)
    .next (s.setReg (bindKey c) (v &&& 0x801FFFFF))

/-- MBX_DATA_WRITE (R409, R410): the sender writes a word of a channel that is EMPTY or ABORTED. -/
def execMbxDataWrite (m c w : Nat) (v : Word) (s : State) : Out :=
  let x := s.chan c
  if s.isSender m c then
    if x.state = .full then .next (s.outOfOrder m)
    else if s.mbxWords c ≤ w then .next s
    else .next (s.setChan c { x with data := x.data.set w v })
  else if s.isReceiver m c then .next s
  else .next (s.deny m)

/-- MBX_SEND (R409, R410, R417): the sender writes go = 1; it has no effect in the cycle of a reset of the receiver. -/
def execMbxSend (m c : Nat) (s : State) : Out :=
  let x := s.chan c
  if s.isSender m c then
    if x.state = .full then .next (s.outOfOrder m) else if x.resetTb = some s.now then .next s else .next (s.setChan c { x with state := .full, abort := false })
  else if s.isReceiver m c then .next s
  else .next (s.deny m)

/-- MBX_DONE (R409, R410): the receiver writes done = 1. -/
def execMbxDone (m c : Nat) (s : State) : Out :=
  let x := s.chan c
  if s.isReceiver m c then
    if x.state = .full then .next (s.setChan c { x with state := .empty, data := List.replicate 16 0 }) else .next (s.outOfOrder m)
  else if s.isSender m c then .next s
  else .next (s.deny m)

/-- MBX_ABORT_CLEAR (R411): the sender writes abort = 1. -/
def execMbxAbortClear (m c : Nat) (s : State) : Out :=
  let x := s.chan c
  if s.isSender m c then
    .next (s.setChan c { x with abort := false, state := if x.state = .aborted then .empty else x.state })
  else if s.isReceiver m c then .next s
  else .next (s.deny m)

/-- MBX_DENIED_READ (R410): a read of a channel register by a master that it is not bound to gives zero and sets deny. -/
def execMbxDeniedRead (m c off : Nat) (s : State) : Out :=
  if s.isSender m c || s.isReceiver m c || off % 4 ≠ 0 then .next s else .next ((s.deny m).answer 0)

/-- A receiver reset (R411): every channel bound to the receiver is cleared and becomes ABORTED. -/
def State.receiverReset (s : State) (m : Nat) : State :=
  s.each (List.range 64) fun s c =>
    if s.isReceiver m c then s.setChan c { state := .aborted, data := List.replicate 16 0, abort := true, resetTb := some s.now } else s

end Sys2Proof.Machine
end

