-- ==== Sys2Proof/Machine/Plate.lean ====
section
/-! DEFINITION. The plate (chapter 10): its manifest, loading from the host or over a reel link, unloading. -/

namespace Sys2Proof.Machine

/-! ### The manifest (R278-R281, R464) -/

/-- A layer entry as a part without its tiles. -/
def layerAtEntry (m : Blob) (l : Nat) : PlatePart :=
  let o := layerEntry l
  { tiles := leAt m o 4, fmt := leAt m (o + 4) 1 % 16, blk := leAt m (o + 4) 1 / 16 % 8, expertTiles := leAt m (o + 6) 4,
    expert := bitOf (BitVec.ofNat 8 (leAt m (o + 5) 1)) 0, digest := digestOf (slice m (o + 16) 64), data := [] }

/-- The plate that a manifest describes, without its tiles. -/
def parseManifest (m : Blob) (resident : Bool) : Plate :=
  let blank : PlatePart := { tiles := 0, fmt := 0, blk := 0, expertTiles := 0, expert := false, digest := 0, data := [] }
  { layers := (List.range (leAt m 6 2)).map (layerAtEntry m),
    embed := { blank with tiles := leAt m 0x1C 4, fmt := leAt m 0x21 1 % 16, blk := leAt m 0x21 1 / 16 % 8, digest := digestOf (slice m 0x80 64) },
    head := { blank with tiles := leAt m 0x18 4, fmt := leAt m 0x20 1 % 16, blk := leAt m 0x20 1 / 16 % 8, digest := digestOf (slice m 0x40 64) },
    points := (List.range (leAt m 8 1)).map fun p => (leAt m (pointEntry m p) 4, leAt m (pointEntry m p + 4) 4),
    spareRouter := leAt m 9 1, experts := leAt m 0x0A 2, dModel := leAt m 0x0C 4, vocab := leAt m 0x10 4, kvCh := leAt m 0x14 2,
    digest := sha512 (m.take (sigOffset m)), manifest := m.take (sigOffset m + 1088), resident := resident, modified := false }

/-- LAYOUT of the fields other than format and blk codes (R278-R280, R283). -/
def manifestLayout (m : Blob) : Bool :=
  let l := leAt m 6 2
  let sig := sigOffset m
  leAt m 0 4 = 0x54454C50 && leAt m 4 2 = 1 && decide (1 ≤ l) && decide (l ≤ 1024) && decide (1 ≤ leAt m 8 1) && decide (leAt m 8 1 ≤ 32) &&
    decide (leAt m 9 1 ≤ 8) && decide (1 ≤ leAt m 0x10 4) && decide (leAt m 0x10 4 ≤ 16777216) && leAt m 0x16 2 = 0 &&
    decide (leAt m 0x20 1 < 128) && decide (leAt m 0x21 1 < 128) && leAt m 0x22 2 = 0 && leAt m 0x24 4 = sig && allZero (slice m 0x28 24) &&
    allZero (slice m (pointEntry m (leAt m 8 1)) (sig - pointEntry m (leAt m 8 1))) && allZero (slice m (sig + 0x400) 64) &&
    (leAt m 0x0A 2 = 0 || (List.range l).any fun i => (layerAtEntry m i).expert) &&
    ((List.range l).all fun i =>
      let o := layerEntry i
      let x := layerAtEntry m i
      decide (1 ≤ x.tiles) && decide (leAt m (o + 4) 1 < 128) && decide (leAt m (o + 5) 1 ≤ 1) && (x.expert || x.expertTiles = 0) &&
        allZero (slice m (o + 0x0A) 6)) &&
    (List.range (leAt m 8 1)).all fun p => allZero (slice m (pointEntry m p + 8) 8)

/-- SIGNATURE (R464): the publisher is trusted and its signature verifies. -/
def State.manifestSigned (s : State) (m : Blob) : Bool :=
  let sig := sigOffset m
  let n := slice m (sig + 512) 512
  let pub := sha512 n
  digestOf (slice m 0xC0 64) = pub && s.sec.pubs.contains pub &&
    pssVerify (BitVec.ofNat 4096 (beNat n)) (m.take sig) (slice m sig 512)

/-- Every part of a plate, in the order in which an image holds them: layers, embedding table, head (R284, R464). -/
def Plate.parts (p : Plate) : List PlatePart := p.layers ++ [p.embed, p.head]

/-- FORMAT (R162, R283). -/
def Plate.formatsOk (p : Plate) : Bool := p.parts.all fun x => decide (x.fmt ≤ 9) && decide (x.blk ≤ 4)

/-- Bytes of the plate image that a manifest gives (R464): the padded manifest, the sealed tiles, the end padding. -/
def Plate.imageBytes (p : Plate) : Nat :=
  let body := (p.parts.map fun x => x.tiles * (64 + packedSize x.fmt x.blk)).sum
  cdiv (cdiv p.manifest.length 4096 * 4096 + body) 4096 * 4096

/-- Banks of one layer buffer (R237). -/
def Plate.bufBanks (p : Plate) : Nat := (p.layers.map PlatePart.banks).foldl max 0

/-- Runs of banks that the plate takes: the window or the layers, the head, the resident embedding table. -/
def Plate.runs (p : Plate) : List Nat := if p.resident then [p.layerBanks, p.head.banks, p.embed.banks] else [4 * p.bufBanks, p.head.banks]

/-- A bank may be taken for the house: nobody's, not fenced and not in the sheet store. -/
def State.bankFree (s : State) (b : Nat) : Bool :=
  (s.bank b).owner = 63 && (s.bank b).state ≠ .grey && !Config.storeBank (s.regFld Reg.shtStore 0 10) b

/-- A run of `n` banks may lie at a bank, apart from runs that are taken. -/
def State.runFits (s : State) (taken : List (Nat × Nat)) (n a : Nat) : Bool :=
  decide (a + n ≤ 1536) && (List.range n).all fun i => s.bankFree (a + i) && taken.all fun t => decide (a + i < t.1) || decide (t.1 + t.2 ≤ a + i)

/-- Runs of the given lengths can lie apart from each other and from what is taken. -/
def State.canPlace (s : State) : List Nat → List (Nat × Nat) → Bool
  | [], _ => true
  | n :: ns, taken => (List.range 1537).any fun a => s.runFits taken n a && s.canPlace ns ((a, n) :: taken)

/-- First banks at which runs of the given lengths can lie, apart from each other: a free choice among the places that leave room for the
runs behind them, so that none is refused that tier F can hold (R237). -/
def State.placeRuns (s : State) : List Nat → List (Nat × Nat) → Option (List Nat) × State
  | [], _ => (some [], s)
  | n :: ns, taken =>
    let fits := (List.range 1537).filter fun a => s.runFits taken n a && s.canPlace ns ((a, n) :: taken)
    let (w, s) := s.draw32
    match fits[w.toNat % max 1 fits.length]? with
    | none => (none, s)
    | some a =>
      let (r, s) := s.placeRuns ns ((a, n) :: taken)
      (r.map (a :: ·), s)

/-- A partition that has the full-parameter setting (R344). -/
def State.fullParam (s : State) : Option Nat := (List.range 32).find? fun p => (s.part p).state ≠ .free && (s.part p).alloc.fullParam

/-- Tier S can hold the plate: stripes with their parity (R239), or mirrored layers with two slices each and their statistics in the
partition's allocation (R344). -/
def State.plateFitsS (s : State) (p : Plate) : Bool :=
  let striped := fun (x : PlatePart) => 12 * cdiv x.tiles 11 * packedSize x.fmt x.blk
  let given := (List.range 32).map fun q => (s.part q).alloc.sGib
  match s.fullParam with
  | none => decide ((p.parts.map striped).sum + given.sum * 1073741824 ≤ 1152 * 1073741824)
  | some q =>
    let train := (p.layers.map fun x => 2 * x.packedBytes + 2 * x.tiles * packedSize 7 2 + 2 * statTiles false (64 * x.tiles, 64) * packedSize 8 0).sum
    decide (train ≤ (s.part q).alloc.sGib * 1073741824) &&
      decide (striped p.embed + striped p.head + given.sum * 1073741824 ≤ 1152 * 1073741824)

/-! ### Load -/

/-- TNT_STATUS.cfg_err. -/
def State.tntErr (s : State) : State := s.raise Reg.tntStatus 4

/-- Statuses of the detail codes (Table 10.3). -/
def plateStatus : Nat → Nat
  | 0 => St.ok
  | 2 => St.badDescriptor
  | 8 => St.uncorrectable
  | 10 => St.aborted
  | _ => St.notPermitted

/-- The house gives up the plate's banks: request OFF, owner 63 (R285). -/
def State.releasePlateBanks (s : State) : State :=
  let r := s.tiers
  let res := match s.plate.load, s.plate.plate with
    | some l, _ => if l.plate.resident then [(r.resBase.1, l.plate.layerBanks), (r.resBase.2, l.plate.embed.banks)] else []
    | none, some p => if p.resident then [(r.resBase.1, p.layerBanks), (r.resBase.2, p.embed.banks)] else []
    | none, none => []
  let runs := (r.winBase, 4 * r.winBanks) :: (r.headBase, r.headBanks) :: res
  let s := s.each (runs.flatMap fun e => (List.range e.2).map fun i => e.1 + i) fun s b => s.handBank b 63 .off false
  { s with tiers := { s.tiers with winBase := 0, winBanks := 0, headBase := 0, headBanks := 0, resBase := (0, 0), bufs := List.replicate 4 .init } }

/-- A load ends with a detail code: a load that has taken banks and fails gives them up; DONE goes to the sender of a reel source
(R284, R442, R445). -/
def State.endPlateLoad (s : State) (detail : Nat) : State :=
  let s := if detail = 0 || s.plate.load.isNone then s else s.releasePlateBanks
  let digest := match s.sec.plateKey with | some (_, d) => d | none => 0
  let port := match s.plate.load, s.plate.asking with
    | some l, _ => l.port
    | none, a => a
  let s := match port with
    | some n => (s.sendFlits n [controlFlit 0 s.fnNat (leBytes 1 4 ++ leBytes 1 detail ++ leBytes 2 0 ++ digestBytes digest)]).endDist n
    | none => s
  let s := { s with plate := { s.plate with load := none, asking := none, code := BitVec.ofNat 8 (plateStatus detail), detail := BitVec.ofNat 8 detail } }
  s.setFld Reg.tntPlateCtrl 0 1 0

/-- A verified manifest begins its load (R283, R284): RESIDENT and SPACE are judged and the banks change hands at once. -/
def State.beginPlate (s : State) (p : Plate) (port : Option Nat) : State :=
  if p.resident && decide (1184 < p.runs.sum) then s.endPlateLoad 5
  else if !s.plateFitsS p || (!p.resident && decide (384 < p.bufBanks)) then s.endPlateLoad 6
  else
    let (runs, s) := s.placeRuns p.runs []
    match runs with
    | none => s.endPlateLoad 6
    | some rs =>
      let s := { s with tiers := { s.tiers with
        winBase := if p.resident then 0 else rs.getD 0 0, winBanks := if p.resident then 0 else p.bufBanks,
        headBase := rs.getD 1 0, headBanks := p.head.banks, resBase := if p.resident then (rs.getD 0 0, rs.getD 2 0) else (0, 0) } }
      let s := s.each ((rs.zip p.runs).flatMap fun e => (List.range e.2).map fun i => e.1 + i) fun s b => s.handBank b 32 .on true
      { s with plate := { s.plate with load := some { plate := p, port := port, done := [], missed := [] }, asking := none,
                                       progress := 0, layers := p.layers.length } }

/-- Checks 2 to 5 of R283 on a manifest: the detail code of the first failure. -/
def State.judgeManifest (s : State) (m : Blob) (host : Bool) : Nat :=
  if !manifestLayout m then 2
  else if !s.manifestSigned m then 3
  else
    let p := parseManifest m false
    if !p.formatsOk then 4
    else if p.parts.any fun x => decide (2 ^ 36 ≤ x.packedBytes) then 2
    else if host && p.imageBytes ≠ 4096 * (s.reg Reg.tntPlateLen).toNat then 2
    else 0

/-- A manifest has come: the checks of R283 after PRESENT. -/
def State.takeManifest (s : State) (m : Blob) (port : Option Nat) : State :=
  let e := s.judgeManifest m port.isNone
  if e ≠ 0 then s.endPlateLoad e else s.beginPlate (parseManifest m (s.regBit Reg.tierCtrl 0)) port

/-- The second port named in REEL_DIST relays what arrives (R443). -/
def State.relayPort (s : State) (n : Nat) : Option Nat :=
  let r := s.regFld Reg.reelDist 1 3
  if s.regBit Reg.reelDist 0 && r ≠ n && (s.port r).use = .free && !s.scheduled r then some r else none

/-- PLATE_LOAD (R282, R283, R441, R453, R460): go is written. From the host, the manifest is what the host read gives, none where it
fails; from a reel link, the request goes to the neighbour. -/
def execPlateLoad (manifest : Option Blob) (s : State) : Out :=
  if s.plate.load.isSome || s.plate.asking.isSome then .next s
  else if s.regBit Reg.shtCtrl 0 then .next s.tntErr
  else
    let s := s.setFld Reg.tntPlateCtrl 0 1 1
    let s := { s with plate := { s.plate with code := 0, detail := 0 } }
    if s.plate.plate.isSome then .next (s.endPlateLoad 1)
    else if s.regBit Reg.tntPlateCtrl 2 then
      let n := s.regFld Reg.tntPlateCtrl 4 3
      match s.sec.plateKey with
      | none => .next (s.endPlateLoad 9)
      | some (_, digest) =>
        if (s.port n).state ≠ .up || (s.port n).use ≠ .free || s.scheduled n then .next (s.endPlateLoad 9)
        else
          let d : Dist := { receiver := true, since := some s.now, relay := s.relayPort n, stream := BitVec.ofNat 16 strManifest, got := [], resend := [] }
          let s := s.setPort n { s.port n with use := .dist, dist := some d }
          let s := { s with plate := { s.plate with asking := some n } }
          .next (s.sendFlits n [controlFlit 0 s.fnNat (leBytes 1 1 ++ leBytes 1 1 ++ leBytes 2 0 ++ digestBytes digest)])
    else match manifest with
      | none => .next (s.endPlateLoad 8)
      | some m => .next (s.takeManifest m none)

/-- Stream number of part `i` of a load: a layer's own number, the embedding table, the head. -/
def Plate.partStream (p : Plate) (i : Nat) : Nat := if i < p.layers.length then i else if i = p.layers.length then strEmbed else strHead

/-- The part at an index with its tiles in place. -/
def Plate.putPart (p : Plate) (i : Nat) (data : List Blob) : Plate :=
  if i < p.layers.length then { p with layers := p.layers.modify i fun x => { x with data := data } }
  else if i = p.layers.length then { p with embed.data := data } else { p with head.data := data }

/-- Opens the sealed tiles of a host image's part (R229, R459); none where a tag fails. -/
def openPart (key : BitVec 256) (n tiles size : Nat) (bs : Blob) : Option (List Blob) :=
  allSome ((List.range tiles).map fun j =>
    let b := slice bs ((64 + size) * j) (64 + size)
    gcmOpen key (leBytes 4 n ++ leBytes 4 j ++ leBytes 4 0) [] (b.take size) (slice b (size + 12) 16))

/-- The received payloads of a stream in order of sequence. -/
def Dist.assemble (d : Dist) (n len : Nat) : Blob :=
  ((List.range (cdiv len 240)).flatMap fun q =>
    match d.got.find? fun g => g.1 = n && g.2.1 = q with
    | some g => padTo 240 g.2.2
    | none => List.replicate 240 0).take len

/-- Sequence numbers received of a stream. -/
def Dist.seqs (d : Dist) (n : Nat) : List Nat := (d.got.filter fun g => g.1 = n).map fun g => g.2.1

/-- PLATE_PART_ARRIVED (R284, R442): a part has arrived whole and its digest is checked. From the host, parts come in order and `data`
is what was read, none where the read failed; from a reel link they are the flits received. -/
def execPlatePartArrived (part : Nat) (data : Option Blob) (s : State) : Out :=
  match s.plate.load with
  | none => .next s
  | some l =>
    let p := l.plate
    if p.layers.length + 2 ≤ part || l.done.contains part then .next s
    else
      let n := p.partStream part
      let x := p.part n
      let size := packedSize x.fmt x.blk
      let accept := fun (s : State) (tiles : List Blob) =>
        let l' := { l with plate := p.putPart part tiles, done := l.done ++ [part] }
        let layers := (l'.done.filter fun i => decide (i < p.layers.length)).length
        { s with plate := { s.plate with load := some l', progress := layers } }
      match l.port with
      | none =>
        if l.done.length ≠ part then .next s
        else
          let tiles : Option (List Blob) := match data, s.sec.plateKey with
            | some bs, some (key, d) => if d = p.digest then openPart key n x.tiles size bs else none
            | _, _ => none
          match tiles with
          | none => .next (s.endPlateLoad 8)
          | some ts =>
            if sha512 ts.flatten = x.digest then .next (accept s ts)
            else if l.missed.contains part then .next (s.endPlateLoad 7)
            else
              let l' := { l with missed := l.missed ++ [part] }
              .next { s with plate := { s.plate with load := some l' } }
      | some port =>
        match (s.port port).dist, s.sec.plateKey with
        | some d, some (key, _) =>
          let total := cdiv x.packedBytes 240
          if !((List.range total).all fun q => (d.seqs n).contains q) then .next s
          else
            let bs := partCipher key n (d.assemble n x.packedBytes)
            let d' := { d with got := d.got.filter fun g => g.1 ≠ n }
            let s := s.setPort port { s.port port with dist := some d' }
            if sha512 bs = x.digest then .next (accept s (chunks size x.tiles bs))
            else if l.missed.contains part then .next (s.endPlateLoad 7)
            else
              let l' := { l with missed := l.missed ++ [part] }
              let s := { s with plate := { s.plate with load := some l' } }
              .next (s.sendFlits port [nackFlit n s.fnNat [(0, total)]])
        | _, _ => .next s

/-- Writes a part into tier F as engine-ready tiles (R242). -/
def State.layPart (s : State) (base : Nat) (x : PlatePart) : State :=
  (x.data.zipIdx).foldl (fun (s : State) e =>
    s.writeF (base + e.2 * readySize x.fmt x.blk) (readyTile x.fmt x.blk 64 64 0 e.2 s.fnNat e.1)) s

/-- Mirrored objects of the layers in a full-parameter run (R344): parameter and statistics, owned by the house. -/
def State.layerObjects (s : State) (p : Plate) : State :=
  (p.layers.zipIdx).foldl (fun (s : State) e =>
    let (stack, s) := s.chooseStack (e.1.tiles * packedSize e.1.fmt e.1.blk)
    let base : Obj := { kind := .tintComponent, of := e.2, home := .s, stack := stack, mirror := s.mirrorOf stack, fmt := e.1.fmt, blk := e.1.blk,
                        tiles := e.1.data, written := s.tbm.fn, move := none }
    let s := s.setObj (32 * 67108864 + 2 * e.2) (some base)
    let zero := List.replicate (packedSize 8 0) (0 : Byte)
    s.setObj (32 * 67108864 + 2 * e.2 + 1) (some { base with
      kind := .optimiser, fmt := 8, blk := 0, tiles := List.replicate (statTiles false (64 * e.1.tiles, 64)) zero })) s

/-- The banks of the house for the plate are ON (R284). -/
def State.plateBanksOn (s : State) (p : Plate) : Bool :=
  let r := s.tiers
  let runs := [(r.winBase, 4 * r.winBanks), (r.headBase, r.headBanks)] ++
    (if p.resident then [(r.resBase.1, p.layerBanks), (r.resBase.2, p.embed.banks)] else [])
  runs.all fun e => (List.range e.2).all fun i => decide ((s.bank (e.1 + i)).state = .on)

/-- PLATE_LOAD_END (R242, R284, R286): every part is checked and every bank is ON; DORMANT tints of this plate become COLD. -/
def execPlateLoadEnd (s : State) : Out :=
  match s.plate.load with
  | none => .next s
  | some l =>
    let p := l.plate
    if l.done.length < p.layers.length + 2 || !s.plateBanksOn p then .next s
    else
      let s := s.layPart (s.tiers.headBase * 16777216) p.head
      let s := if p.resident then
          let s := s.layPart (s.tiers.resBase.2 * 16777216) p.embed
          ((p.layers.foldl (fun (a : State × Nat) x => (a.1.layPart a.2 x, a.2 + x.readyBytes)) (s, s.tiers.resBase.1 * 16777216))).1
        else s
      let s := s.endPlateLoad 0
      let s := { s with plate := { s.plate with plate := some p } }
      let s := if s.fullParam.isSome then s.layerObjects p else s
      let wake := fun (_ : Nat) (t : Tint) => if t.state = .dormant && t.plate = p.digest then { t with state := .cold } else t
      .next { s with tints := Sparse.mapListed (fun _ => Tint.init) wake s.tints }

/-! ### Unload -/

/-- A registered tint as its plate is unloaded (R287). -/
def State.makeDormant (s : State) (t : Nat) : State :=
  let x := s.tintOf t
  match x.state with
  | .free | .withdrawing | .dormant => s
  | .registering =>
    let s := s.freeObjs fun h o => s.tintObj t h o
    let s := s.setTint t Tint.init
    match x.regItem with
    | some k => s.finish k St.notPermitted
    | none => s
  | .cold => s.setTint t { x with state := .dormant }
  | .loading => let s := s.endLoad t St.aborted; s.setTint t { s.tintOf t with state := .dormant }
  | .hot | .evicting | .queuedOn =>
    let s := if x.state = .hot then s.startEviction t else s.dropQueued t St.aborted
    let s := (s.stopTint t).clearSlot t
    let s := s.finishAll (x.evictItems.filter s.inEffect) St.ok
    s.setTint t { s.tintOf t with state := .dormant, writeThrough := 0, evictItems := x.evictItems.filter fun k => !s.inEffect k }

/-- The plate is unloaded (R285, R287). -/
def State.unloadPlate (s : State) : State :=
  let s := s.each (s.tints.map (·.1)) fun s t => s.makeDormant t
  let s := s.releasePlateBanks
  let s := s.freeObjs fun h _ => h / 67108864 = 32
  { s with plate := { s.plate with plate := none }, player := { s.player with store := [] } }

/-- PLATE_UNLOAD (R282, R285-R287): unload is written. A running load ends with ABORT. -/
def execPlateUnload (s : State) : Out :=
  if s.regBit Reg.shtCtrl 0 || s.anyActive then .next s.tntErr
  else if s.plate.load.isSome || s.plate.asking.isSome then .next (s.endPlateLoad 10)
  else match s.plate.plate with
  | none => .next s
  | some _ => .next s.unloadPlate

/-! ### Answers of a neighbour -/

/-- DIST_TIMEOUT (R441, R444): an answer has been awaited for 1 s. A plate load ends with SOURCE, a bulk transfer with NOT_PERMITTED. -/
def execDistTimeout (port : Nat) (s : State) : Out :=
  let p := s.port port
  match p.dist, p.bulk with
  | some d, _ =>
    match d.since with
    | some t =>
      if d.receiver then .next ((s.advance (t + 1000000000)).endPlateLoad 9) else .next ((s.advance (t + 1000000000)).endDist port)
    | none => .next s
  | none, some b =>
    match b.since with
    | some t =>
      let s := s.advance (t + 1000000000)
      let s := s.setPort port { s.port port with bulk := none, use := .free }
      let s := s.setFld Reg.reelBulkCtrl 31 1 0
      .next { s with reel := { s.reel with bulkCode := BitVec.ofNat 8 St.notPermitted } }
    | none => .next s
  | none, none => .next s

end Sys2Proof.Machine
end

