-- ==== Sys2Proof/Machine/VectorUnit.lean ====
section
/-! DEFINITION. The vector units: register reads and results, issue under R191-R193, and the functions that the instructions apply
to lanes (chapter 7). -/

namespace Sys2Proof.Machine

/-! ### Registers (R188-R190) -/

/-- Lane `l` of V register `r`. -/
def VUnit.vLane (x : VUnit) (r l : Nat) : BitVec 16 := Sparse.get (fun _ => 0) x.v (r % 64 * 128 + l)

/-- Lane `l` of W register `n`: the low half from V(2n), the high half from V(2n+1) (R189). -/
def VUnit.wLane (x : VUnit) (n l : Nat) : Word := x.vLane (2 * n + 1) l ++ x.vLane (2 * n) l

/-- Scalar register `i`. -/
def VUnit.sReg (x : VUnit) (i : Nat) : Word := Sparse.get (fun _ => 0) x.s i

/-- Predicate `i`; P0 reads as all ones. -/
def VUnit.pReg (x : VUnit) (i : Nat) : BitVec 128 := if i = 0 then BitVec.allOnes 128 else Sparse.get (fun _ => 0) x.p i

/-- The lane's guard bit in P[pg]. -/
def VUnit.guard (x : VUnit) (f : VFields) (l : Nat) : Bool := bitOf (x.pReg f.pg.toNat) l

/-- Results of writing W[d]: lanes without a value keep their old one. -/
def wResult (d : Nat) (lanes : List (Option Word)) : List VResult :=
  [.v (2 * d) (lanes.map fun o => o.map fun (w : Word) => w.setWidth 16),
   .v (2 * d + 1) (lanes.map fun o => o.map fun (w : Word) => (w >>> 16).setWidth 16)]

/-- A predicate from a test of each lane. -/
def predOf (p : Nat → Bool) : BitVec 128 := BitVec.ofNat 128 (((List.range 128).map fun l => if p l then 2 ^ l else 0).sum)

/-! ### The instruction word (Table 7.3) -/

/-- The 64-bit word of an instruction. -/
def vword (op : Nat) (f : VFields) : VWord := BitVec.ofNat 8 op ++ f.pg ++ f.d ++ f.a ++ f.b ++ f.c ++ f.imm

/-- Opcode and fields of a word. -/
def vop (w : VWord) : Nat := fld w 56 8
def vfields (w : VWord) : VFields :=
  { pg := BitVec.ofNat 3 (fld w 53 3), d := BitVec.ofNat 6 (fld w 47 6), a := BitVec.ofNat 6 (fld w 41 6),
    b := BitVec.ofNat 6 (fld w 35 6), c := BitVec.ofNat 6 (fld w 29 6), imm := BitVec.ofNat 29 (fld w 0 29) }

/-- An immediate's field. -/
def VFields.i (f : VFields) (lo len : Nat) : Nat := fld f.imm lo len

/-- Fields of TLD and TST (Table 7.4). -/
def VFields.row (f : VFields) : Nat := f.i 0 6
def VFields.half (f : VFields) : Nat := f.i 6 1
def VFields.tFmt (f : VFields) : Nat := f.i 7 4
def VFields.tBlk (f : VFields) : Nat := f.i 11 3
def VFields.plane (f : VFields) : Nat := f.i 14 1

/-! ### Shapes of the opcodes (Tables 7.2, 7.4, 7.5) -/

/-- What a register field of an instruction names. -/
inductive RegClass
  | none | v | w | s | p
  deriving DecidableEq, Repr

/-- A register field is in its class's range; an unused one is zero (R193). -/
def RegClass.ok : RegClass → Nat → Bool
  | .none, r => r = 0
  | .v, _ => true
  | .w, r => decide (r < 32)
  | .s, r => decide (r < 32)
  | .p, r => decide (r < 8)

/-- The shape of an opcode: latency, the classes of d, a, b and c, whether a guard may be named, and the check of its immediate. -/
structure OpShape where
  lat : Nat
  d : RegClass
  a : RegClass
  b : RegClass
  c : RegClass
  pg : Bool
  imm : VFields → Bool

/-- The immediate is zero above bit `n`. -/
def immBelow (n : Nat) (f : VFields) : Bool := f.imm.toNat / 2 ^ n = 0

/-- A stored format that a row load or store may name (R140, R154, R156). -/
def tileFmtOk (fmt blk : Nat) : Bool := decide (fmt ≤ 11) && decide (blk ≤ 4) && (fmt ≠ 11 || blk = 0)

/-- The shape of each opcode (Tables 7.2, 7.4, 7.5); none where it is reserved. CVTW uses no modifier but fmt, blk and count (R193, R200); a
store names no LUT4 tile, which the device never produces (R162; DEDUCED, log entry 57). -/
def opShape (op : Nat) (f : VFields) : Option OpShape :=
  let z := immBelow 0
  let blk := f.i 4 3
  match op with
  | 0x00 => some ⟨1, .none, .none, .none, .none, false, z⟩
  | 0x01 => some ⟨1, .none, .none, .none, .none, false, z⟩
  | 0x02 => some ⟨1, .none, .none, .none, .none, false, fun f => f.i 28 1 = 0 && f.i 0 16 ≠ 0⟩
  | 0x08 => some ⟨1, .s, .none, .none, .none, false, fun _ => true⟩
  | 0x09 => some ⟨1, .s, .none, .none, .none, false, immBelow 16⟩
  | 0x0A | 0x0B | 0x0C | 0x0D | 0x0E | 0x0F => some ⟨1, .s, .s, .s, .none, false, z⟩
  | 0x10 | 0x11 => some ⟨1, .s, .s, .none, .none, false, immBelow 7⟩
  | 0x12 => some ⟨1, .s, .s, .none, .none, false, fun _ => true⟩
  | 0x13 | 0x14 => some ⟨32, .s, .s, .none, .none, false, fun f => f.imm.toNat % 4 = 0⟩
  | 0x18 | 0x19 | 0x1A | 0x1B | 0x1C | 0x1D | 0x1E | 0x1F => some ⟨2, .w, .w, .w, .none, true, z⟩
  | 0x20 | 0x21 | 0x22 => some ⟨2, .w, .w, .none, .none, true, immBelow 7⟩
  | 0x23 => some ⟨2, .p, .w, .w, .none, true, fun f => immBelow 3 f && f.imm.toNat ≠ 7⟩
  | 0x28 | 0x29 | 0x2A => some ⟨4, .w, .w, .w, .none, true, z⟩
  | 0x2B => some ⟨4, .w, .w, .w, .w, true, z⟩
  | 0x2C | 0x2D => some ⟨2, .w, .w, .w, .none, true, z⟩
  | 0x2E | 0x2F => some ⟨2, .w, .w, .none, .none, true, z⟩
  | 0x30 => some ⟨4, .w, .w, .w, .none, true, fun f => immBelow 0 f && f.d ≠ 31⟩
  | 0x31 => some ⟨2, .p, .w, .w, .none, true, fun f => immBelow 3 f && f.imm.toNat ≠ 7⟩
  | 0x32 | 0x33 | 0x34 | 0x35 | 0x36 => some ⟨12, .w, .w, .none, .none, true, z⟩
  | 0x38 => some ⟨2, .w, .w, .w, .p, true, z⟩
  | 0x39 => some ⟨2, .w, .s, .none, .none, true, z⟩
  | 0x3A => some ⟨2, .w, .none, .none, .none, true, z⟩
  | 0x3B => some ⟨2, .w, .w, .none, .none, true, immBelow 7⟩
  | 0x3C => some ⟨2, .v, .v, .none, .none, true, z⟩
  | 0x3D => some ⟨2, .s, .w, .none, .none, false, immBelow 7⟩
  | 0x40 | 0x41 => some ⟨2, .p, .p, .p, .none, true, z⟩
  | 0x42 => some ⟨2, .p, .p, .none, .none, true, z⟩
  | 0x43 => some ⟨2, .p, .none, .none, .none, true, fun f => decide (f.imm.toNat ≤ 128)⟩
  | 0x48 | 0x49 | 0x4A | 0x4B => some ⟨16, .w, .w, .none, .none, true, z⟩
  | 0x50 => some ⟨8, .v, .w, .v, .s, false, fun f =>
      f.i 24 5 = 0 && decide (f.i 0 4 ≤ 11) && decide (blk ≤ 4) && f.i 0 4 ≠ 3 && (f.i 0 4 ≠ 2 || blk ≠ 0) &&
        (f.i 0 4 ≠ 11 || (blk = 0 && f.d ≠ 63))⟩
  | 0x51 => some ⟨6, .w, .v, .v, .s, false, fun f => f.i 24 5 = 0 && f.i 7 10 = 0 && decide (f.i 0 4 ≤ 10) && decide (blk ≤ 4)⟩
  | 0x52 => some ⟨6, .w, .w, .none, .none, true, z⟩
  | 0x53 => some ⟨6, .w, .w, .none, .none, true, fun f => f.i 0 8 = 0 && f.i 13 1 = 0 && f.i 15 14 = 0⟩
  | 0x58 => some ⟨32, .v, .s, .v, .none, false, fun f => f.i 15 14 = 0 && tileFmtOk f.tFmt f.tBlk && (f.tFmt = 11 || f.plane = 0)⟩
  | 0x59 => some ⟨32, .v, .s, .v, .none, false, fun f =>
      f.i 15 14 = 0 && tileFmtOk f.tFmt f.tBlk && f.tFmt ≠ 3 && (f.tFmt = 11 || f.plane = 0)⟩
  | 0x5A => some ⟨32, .none, .s, .none, .none, false, fun f => immBelow 7 f && tileFmtOk (f.i 0 4) (f.i 4 3) && f.i 0 4 ≠ 3⟩
  | 0x60 => some ⟨2, .v, .none, .none, .none, false, immBelow 5⟩
  | 0x61 => some ⟨8, .none, .s, .s, .none, false, fun f => immBelow 0 f && f.a ≠ 31⟩
  | _ => none

/-- Registers that an instruction writes: 0-63 V, 64-95 S, 96-103 P, 104 the keyed streams. -/
def writesOf (w : VWord) : List Nat :=
  let f := vfields w
  let wr := fun n : Nat => [2 * n, 2 * n + 1]
  match opShape (vop w) f with
  | none => []
  | some k =>
    let main := match k.d with
      | .v => [f.d.toNat]
      | .w => wr f.d.toNat
      | .s => [64 + f.d.toNat]
      | .p => if f.d = 0 then [] else [96 + f.d.toNat]
      | .none => []
    match vop w with
    | 0x14 | 0x59 => []
    | 0x30 => main ++ wr (f.d.toNat + 1)
    | 0x50 => main ++ (if f.i 4 3 = 0 then [] else [f.b.toNat]) ++ (if f.i 0 4 = 11 then [f.d.toNat + 1] else [])
    | 0x58 => main ++ (if f.tBlk = 0 then [] else [f.b.toNat])
    | 0x61 => [104]
    | _ => main

/-- Latency of an instruction. -/
def latOf (w : VWord) : Nat := match opShape (vop w) (vfields w) with | some k => k.lat | none => 0

/-! ### Issue (R191, R192) -/

/-- The instruction may issue on the unit: it is the next one of the running program, or the unit runs a part of the built-in
test, whose code the device holds (R216). -/
def State.mayIssue (s : State) (u op : Nat) (f : VFields) : Bool :=
  u < 32 && match (s.unit u).prog with
    | none => false
    | some k =>
      if 64 ≤ k then true
      else match Sparse.get (fun _ => none) s.vec.slots k with
        | some p => p.code[(s.unit u).pc]? = some (vword op f)
        | none => false

/-- Where the innermost loops send the instruction after the last of their bodies (R192). -/
def loopBack (pc : Nat) : List (Nat × Nat × Nat) → Nat × List (Nat × Nat × Nat)
  | [] => (pc, [])
  | (st, en, left) :: rest =>
    if pc = en then (if 0 < left then (st, (st, en, left - 1) :: rest) else loopBack pc rest) else (pc, (st, en, left) :: rest)

/-- The unit after one issue cycle. -/
def VUnit.next (x : VUnit) : VUnit :=
  let (pc, loops) := loopBack (x.pc + 1) x.loops
  { x with pc := pc, cycle := x.cycle + 1, loops := loops }

/-- Two results name one register. -/
def VResult.sameReg : VResult → VResult → Bool
  | .v a _, .v b _ => a = b
  | .s a _, .s b _ => a = b
  | .p a _ _, .p b _ _ => a = b && a ≠ 0
  | _, _ => false

/-- What an instruction does: the state and unit that it reads, to the state after its draws and meter, its results and the nibble
bits that it raises; none is an access fault. -/
abbrev VSem := State → VUnit → Option (State × List VResult × BitVec 4)

/-- The number of `writesOf` that a pending result has. -/
def VResult.regs : VResult → List Nat
  | .v d _ => [d]
  | .s d _ => [64 + d]
  | .p d _ _ => if d = 0 then [] else [96 + d]
  | .k _ => [104]
  | .mem _ _ => []

/-- An instruction would write a register in the cycle in which a result that is already issued reaches it (R191). -/
def VUnit.clashes (x : VUnit) (w : VWord) : Bool :=
  x.due.any fun e => e.1 = x.cycle + latOf w && (writesOf w).any fun r => e.2.regs.contains r

/-- The instruction that a unit issues next, of a program in the store. -/
def State.nextWord (s : State) (u : Nat) : Option VWord :=
  match (s.unit u).prog with
  | some k => if 64 ≤ k then none else (Sparse.get (fun _ => none) s.vec.slots k).bind fun p => p.code[(s.unit u).pc]?
  | none => none

/-- A write collision occurs in a segment at a cycle: on the unit that issues `w`, or on another unit whose next instruction issues in
the same cycle (Table 7.12). -/
def State.clashAt (s : State) (o u : Nat) (w : VWord) : Bool :=
  (s.unit u).clashes w || (List.range 32).any fun v => v ≠ u && (s.unit v).owner = o && (s.unit v).cycle = (s.unit u).cycle &&
    match s.nextWord v with
    | some w => (s.unit v).clashes w
    | none => false

/-- A known-answer test of the frame's target fails in a part (R217): it is logged, and the unit turns grey at the next tick. -/
def State.failKat (s : State) (u part : Nat) : State :=
  let s := { s with vec := { s.vec with katResult := 1, katUnit := u, katPart := part, katFn := s.tbm.fn,
                                        greyNext := if s.vec.greyNext.contains u then s.vec.greyNext else s.vec.greyNext ++ [u] } }
  ((s.raise Reg.vecStatus 0).logUnit 0x0401 0xFF 1 u [part]).detect 0x02 false 1 u

/-- A fault of a unit at an instruction: 4 an access fault, 5 a write collision. It fences the sheet (R191, R205), and in a part of the
built-in test it is a failure of the test (R217). -/
def State.unitFault (s : State) (u why : Nat) : State :=
  let o := (s.unit u).owner
  let s := match (s.unit u).prog with
    | some k => if 64 ≤ k && s.vec.katResult = 2 then s.failKat u (k - 64) else s
    | none => s
  (s.raise Reg.vecStatus (if why = 5 then 2 else 3)).fenceSheet o why

/-- Issues one instruction on a unit (R191, R205, R206): results due earlier become visible, the operands are read, and the
instruction's own results become visible `lat` cycles later. -/
def State.issue (s : State) (u op lat : Nat) (f : VFields) (sem : VSem) : State :=
  if !s.mayIssue u op f || s.saf.safe then s
  else
    let o := (s.unit u).owner
    let cyc := (s.unit u).cycle
    let s := (s.advance (s.cycleTb o cyc)).flushUnits cyc
    match sem s (s.unit u) with
    | none => s.unitFault u (if s.clashAt o u (vword op f) then 5 else 4)
    | some (s, res, nib) =>
      let x := s.unit u
      if x.prog.isNone then s
      else if x.due.any fun e => e.1 = cyc + lat && res.any fun r => r.sameReg e.2 then s.unitFault u 5
      else s.setUnit u { x with nibble := x.nibble ||| nib, due := x.due ++ res.map fun r => (cyc + lat, r) }.next

/-! ### Shapes of instructions -/

/-- A scalar result. -/
def semS (f : VFields) (g : VUnit → Word) : VSem := fun s x => some (s, [.s f.d.toNat (g x)], 0)

/-- One binary32 or int32 result for each guarded lane. -/
def semW (f : VFields) (g : VUnit → Nat → FRes) : VSem := fun s x =>
  let rs := (List.range 128).map fun l => if x.guard f l then some (g x l) else none
  some (s, wResult f.d.toNat (rs.map fun o => o.map (·.1)), rs.foldl (fun n o => match o with | some r => n ||| r.2 | none => n) 0)

/-- A lane operation on W[a] and W[b]. -/
def semW2 (f : VFields) (g : Word → Word → FRes) : VSem := semW f fun x l => g (x.wLane f.a.toNat l) (x.wLane f.b.toNat l)

/-- A lane operation on W[a]. -/
def semW1 (f : VFields) (g : Word → FRes) : VSem := semW f fun x l => g (x.wLane f.a.toNat l)

/-- A predicate result for the guarded lanes. -/
def semP (f : VFields) (g : VUnit → Nat → Bool × BitVec 4) : VSem := fun s x =>
  let rs := (List.range 128).map fun l => if x.guard f l then g x l else (false, 0)
  some (s, [.p f.d.toNat (x.pReg f.pg.toNat) (predOf fun l => (rs.getD l (false, 0)).1)], rs.foldl (fun n r => n ||| r.2) 0)

/-- An integer result that raises nothing. -/
def plain (w : Word) : FRes := (w, 0)

/-! ### Functions of lanes -/

/-- A condition of Table 7.7 on the order of two operands; `un`: an operand is NaN. -/
def condHolds (cond : Nat) (un : Bool) (c : Int) : Bool :=
  match cond with
  | 0 => !un && c = 0
  | 1 => un || c ≠ 0
  | 2 => !un && decide (c < 0)
  | 3 => !un && decide (c ≤ 0)
  | 4 => !un && decide (0 < c)
  | 5 => !un && decide (0 ≤ c)
  | 6 => un
  | _ => false

/-- FCMP of two binary32 words (R197). -/
def fcond (cond : Nat) (a b : Word) : Bool × BitVec 4 :=
  let x := f32v a; let y := f32v b
  (condHolds cond (x = .nan || y = .nan) (if x = .nan || y = .nan then 0 else x.cmp y), nanIn2 x y)

/-- ICMP of two int32 words (R197). -/
def icond (cond : Nat) (a b : Word) : Bool := condHolds cond false (a.toInt - b.toInt)

/-- FMAX and FMIN with the bit of a NaN operand. -/
def fmaxR (a b : Word) : FRes := (fmax a b, nanIn2 (f32v a) (f32v b))
def fminR (a b : Word) : FRes := (fmin a b, nanIn2 (f32v a) (f32v b))

/-- FTSUM (R199): sum and error. -/
def ftsum (a b : Word) : Word × Word × BitVec 4 :=
  let (w, n) := fadd a b
  let e := match f32v w with
    | .fin n m e => toF32 ((((f32v a).add (f32v b)).1.add (Val.fin n m e).neg).1)
    | _ => 0
  (w, e, n)

/-- FEXP2 (Table 7.6). -/
def fexp2 (a : Word) : FRes :=
  match f32v a with
  | .nan => (0x7FC00000, Nib.nanIn)
  | .inf n => (if n then 0 else 0x7F800000, 0)
  | .fin n m e =>
    if m = 0 then (0x3F800000, 0)
    else if 8 ≤ magLog m e then (if n then (0, 0) else (0x7F800000, Nib.overflow))
    else
      let (w, o) := toF32o (exp2Val n m e)
      (w, ovf o)

/-- FLOG2 (Table 7.6). -/
def flog2 (a : Word) : FRes :=
  match f32v a with
  | .nan => (0x7FC00000, Nib.nanIn)
  | .inf n => if n then (0x7FC00000, Nib.invalid) else (0x7F800000, 0)
  | .fin n m e => if m = 0 then (0xFF800000, 0) else if n then (0x7FC00000, Nib.invalid) else (toF32 (log2Val m e), 0)

/-- FRCP (Table 7.6); a finite result beyond the largest finite value raises overflow. -/
def frcp (a : Word) : FRes :=
  match f32v a with
  | .nan => (0x7FC00000, Nib.nanIn)
  | .inf n => (if n then 0x80000000 else 0, 0)
  | .fin n m _ =>
    if m = 0 then (if n then 0xFF800000 else 0x7F800000, 0)
    else
      let w := fdiv 0x3F800000 a
      (w, ovf (decide (w &&& 0x7FFFFFFF = 0x7F800000)))

/-- FSQRT (Table 7.6). -/
def fsqrtR (a : Word) : FRes :=
  match f32v a with
  | .nan => (0x7FC00000, Nib.nanIn)
  | .inf n => if n then (0x7FC00000, Nib.invalid) else (0x7F800000, 0)
  | .fin n m _ => if n && m ≠ 0 then (0x7FC00000, Nib.invalid) else (fsqrt a, 0)

/-- FRSQ (Table 7.6). -/
def frsq (a : Word) : FRes :=
  match f32v a with
  | .nan => (0x7FC00000, Nib.nanIn)
  | .inf n => if n then (0x7FC00000, Nib.invalid) else (0, 0)
  | .fin n m e =>
    if m = 0 then (if n then 0xFF800000 else 0x7F800000, 0) else if n then (0x7FC00000, Nib.invalid) else (toF32 (rsqrtVal m e), 0)

/-! ### Reductions (R198) -/

/-- One level of the tree. -/
def redLevel (g : Word → Word → FRes) : List Word → List Word × BitVec 4
  | a :: b :: rest =>
    let (r, n) := g a b
    let (rs, m) := redLevel g rest
    (r :: rs, n ||| m)
  | xs => (xs, 0)

/-- The seven levels of the tree over 128 lanes. -/
def redTree (g : Word → Word → FRes) : Nat → List Word → Word × BitVec 4
  | 0, xs => (xs.getD 0 0, 0)
  | k + 1, xs =>
    let (ys, n) := redLevel g xs
    let (r, m) := redTree g k ys
    (r, n ||| m)

/-- A reduction of W[a]: lanes without their guard bit take the identity. `fl`: binary32, where a NaN lane raises nan_in. -/
def semRed (f : VFields) (fl : Bool) (ident : Word) (g : Word → Word → FRes) : VSem := fun s x =>
  let xs := (List.range 128).map fun l => if x.guard f l then x.wLane f.a.toNat l else ident
  let (r, n) := redTree g 7 xs
  let nan := fl && xs.any fun w => f32v w = .nan
  some (s, wResult f.d.toNat (List.replicate 128 (some r)), (n &&& ~~~Nib.nanIn) ||| (if nan then Nib.nanIn else 0))

/-! ### Draws (R170, R202) -/

/-- A draw of `n` bits for lane `l` of unit `u`: from the owner's state, or from the lane's keyed stream; the built-in test draws
from no owner's state (R216). -/
def State.vdraw (s : State) (u l n : Nat) (keyed : Bool) : Nat × State :=
  let x := s.unit u
  if keyed || (match x.prog with | some k => decide (64 ≤ k) | none => false) then
    let (r, y) := ldraw n (Sparse.get (fun _ => 0) x.keyed l)
    (r, s.setUnit u { x with keyed := Sparse.set (fun _ => 0) x.keyed l y })
  else s.drawLane x.lanesOf (40960 + 128 * u + l) n

/-- Draws for a list of lanes, in ascending order. -/
def State.vdraws (s : State) (u n : Nat) (keyed : Bool) (ls : List Nat) : List Nat × State :=
  ls.foldl (fun (a : List Nat × State) l =>
    let (r, s) := a.2.vdraw u l n keyed
    (a.1 ++ [r], s)) ([], s)

/-- The roundings of some lanes under `rnd`, `sr_n` and `keyed` of an immediate. -/
def State.vrnds (s : State) (u : Nat) (f : VFields) (ls : List Nat) : List Rnd × State :=
  if f.i 8 1 = 0 then (ls.map fun _ => .rne, s)
  else
    let n := f.i 9 4 + 1
    let (rs, s) := s.vdraws u n (f.i 16 1 = 1) ls
    (rs.map fun r => .sr n r, s)

/-! ### Tier F references of a program (R203-R205) -/

/-- Where a reference of a running program lies; references of a cue with a bay may be slot-relative (R301). -/
def State.unitPlace (s : State) (x : VUnit) (ref : Nat) : Place :=
  match x.cue with
  | none => .at_ (64 * ref)
  | some (o, i) =>
    match (s.playing o).bind fun y => y.cue? .v i with
    | none => .at_ (64 * ref)
    | some c => if c.bay = 63 && !c.retake then .at_ (64 * ref) else s.resolve (s.cueBinding o c) ref

/-- The cue that a unit runs for. -/
def State.unitCue (s : State) (x : VUnit) : Option Cue :=
  match x.cue with
  | some (o, i) => (s.playing o).bind fun y => y.cue? .v i
  | none => none

/-- A unit's load reads some runs of bytes at its issue cycle, on port 0 (R253, R261, R264-R266). -/
def State.unitRead (s : State) (x : VUnit) (runs : List (Nat × Nat)) : State :=
  let t := s.cycleT x.owner x.cycle
  let s := s.usePort (mkUse Rq.vec x.owner false runs t t)
  match s.unitCue x with
  | some c => s.shotRead x.owner c runs
  | none => (s.eccRead runs).1

/-- Bytes that a unit's load finds at a place: the old ones where port 1 writes in the same cycle (R262). -/
def State.unitBytes (s : State) (x : VUnit) (p : Place) (len : Nat) : Blob := s.portRead 0 (s.cycleT x.owner x.cycle) p len

/-- A memory result at a place; writes through the reference of a bay that is not bound are discarded. -/
def memResult (p : Place) (bs : Blob) : List VResult :=
  match p with
  | .at_ a | .inSlot a _ => [.mem a bs]
  | .unbound => []

/-- The place of row `r` of an engine-ready tile's element area, and of its scale bytes (R227). -/
def rowPlace (p : Place) (fmt blk plane r : Nat) : Place :=
  if fmt = 11 then p.plus (64 + 8192 * plane + 128 * r) else p.plus (64 + 64 * scalesPerRow blk + rowBytes fmt * r)
def scalePlace (p : Place) (blk r : Nat) : Place := p.plus (64 + r * scalesPerRow blk)

/-- Code `c` of a row's bytes. -/
def rowCode (fmt : Nat) (row : Blob) (c : Nat) : Nat :=
  match fmtBits fmt with
  | 4 => leAt row (c / 2) 1 / (if c % 2 = 0 then 1 else 16) % 16
  | 8 => leAt row c 1
  | _ => leAt row (2 * c) 2

/-- A row's bytes from its 64 codes. -/
def packRow (fmt : Nat) (cs : List Nat) : Blob :=
  match fmtBits fmt with
  | 4 => (List.range 32).flatMap fun i => leBytes 1 (cs.getD (2 * i) 0 % 16 + 16 * (cs.getD (2 * i + 1) 0 % 16))
  | 8 => cs.flatMap fun c => leBytes 1 c
  | _ => cs.flatMap fun c => leBytes 2 c

/-! ### Metering of converts (R182, R183, R201) -/

/-- The meter's blocks of a run of metered lanes: 64 lanes for blk NONE and B128, else the scale blocks. -/
def vMeterLen (blk : Nat) : Nat := if blk = 0 then 64 else min 64 (blkLen blk)

/-- Takes metered blocks into a unit's meter state. -/
def VUnit.meterIn (x : VUnit) (ps : List (Word × Word)) (blk : Nat) : VUnit :=
  (chunks (vMeterLen blk) (cdiv ps.length (vMeterLen blk)) ps).foldl (fun (x : VUnit) b =>
    let m := meterBlock b
    { x with meterMax := mseMax x.meterMax m.2.2.2, meterNf := x.meterNf + m.2.2.1, cueS := (fadd x.cueS m.1).1,
             cuePairs := (fadd x.cuePairs (f32OfNat (b.length - m.2.2.1))).1, cueMax := mseMax x.cueMax m.2.2.2 }) x

end Sys2Proof.Machine
end

