-- ==== Sys2Proof/Machine/Matrices.lean ====
section
/-! DEFINITION. What an optimiser step works on (chapters 11 and 12): a tint's parameter matrices, their statistics and gradient
slices, and the arithmetic of the two passes. -/

namespace Sys2Proof.Machine

/-! ### Matrices (R348) -/

/-- A parameter matrix of a tint: its parameter and statistics objects, its shape and its layer; EMBED is updated lazily. -/
structure Mat where
  param : Nat
  stats : Nat
  rows : Nat
  cols : Nat
  layer : Nat
  lazy : Bool
  deriving DecidableEq, Repr

/-- A tint without components is that of a full-parameter run (R344): the plate's layers take the place of components. -/
def Tint.full (t : Tint) : Bool := t.comps.isEmpty

/-- The matrices of a tint: components in table order, the matrices of each in the order of Table 12.1. -/
def State.matrices (s : State) (t : Nat) : List Mat :=
  let x := s.tintOf t
  if x.full then
    match s.plate.plate with
    | some p => p.layers.zipIdx.map fun (e : PlatePart × Nat) =>
      { param := 32 * 67108864 + 2 * e.2, stats := 32 * 67108864 + 2 * e.2 + 1, rows := 64 * e.1.tiles, cols := 64, layer := e.2, lazy := false }
    | none => []
  else x.comps.flatMap fun (c : Component) =>
    let ds := s.compShapes c
    ds.zipIdx.map fun (e : (Nat × Nat) × Nat) =>
      { param := c.handle + e.2, stats := c.handle + ds.length + e.2, rows := e.1.1, cols := e.1.2, layer := c.layer, lazy := c.kind = 4 }

/-- Format, blk code and packed tiles of an object, if it exists. -/
def State.objTiles (s : State) (h : Nat) : List Blob := match s.obj h with | some o => o.tiles | none => []

/-- The value of an element of a packed tile (R122, R226). -/
def packedVal (fmt blk zp : Nat) (lut : Nat → Nat) (tile : Blob) (r c : Nat) : Val :=
  let sc := 64 * scalesPerRow blk
  expand fmt zp lut (codeAt (tile.drop sc) fmt r c) (scaleAt (tile.take sc) blk r c)

/-- Tile index of element (i, j) of a matrix with `cols` columns. -/
def tileAt (cols i j : Nat) : Nat := i / 64 * cdiv cols 64 + j / 64

/-- Element (i, j) of a dense tensor. -/
def tensorVal (fmt blk zp : Nat) (lut : Nat → Nat) (tiles : List Blob) (cols i j : Nat) : Val :=
  packedVal fmt blk zp lut (tiles.getD (tileAt cols i j) []) (i % 64) (j % 64)

/-! ### Gradient slices (R325, R330, R350) -/

/-- Handles of the slices of a matrix, in slice order. -/
def State.slicesOf (s : State) (param : Nat) : List Nat :=
  sortBy id (s.tiers.objs.filterMap fun e => match e.2 with
    | some o => if o.kind = .other ∧ o.of = param then some e.1 else none
    | none => none)

/-- Row indices of the table that a row-sparse slice begins with. -/
def tableRows (table : Blob) : List Nat :=
  ((List.range (table.length / 4)).map fun i => leAt table (4 * i) 4).filter fun r => r ≠ 0xFFFFFFFF

/-- A free run of bytes: what the spec does not say a unit writes (log entry 3). -/
def State.freeBytes (s : State) (len : Nat) : Blob × State :=
  (((List.range (cdiv len 4)).flatMap fun i => leBytes 4 (Config.free32 (s.free + i)).toNat).take len, { s with free := s.free + cdiv len 4 })

/-- Free runs of bytes of one length. -/
def State.freeRuns (s : State) (len : Nat) : Nat → List Blob × State
  | 0 => ([], s)
  | n + 1 =>
    let (b, s) := s.freeBytes len
    let (bs, s) := s.freeRuns len n
    (b :: bs, s)

/-- The tiles of one slice: gradients that the sheet's own shots computed (free values); a slice of EMBED starts with its table. -/
def State.sliceTiles (s : State) (m : Mat) (fmt blk : Nat) : List Blob × State :=
  if m.lazy then
    let rows := (List.range m.rows).filter fun r => Config.freeBool (s.free + r)
    let s := { s with free := s.free + m.rows }
    let table := rows.flatMap fun r => leBytes 4 r
    let table := table ++ List.replicate (64 * cdiv (table.length) 64 - table.length) (0xFF : Byte)
    let (bs, s) := s.freeRuns (cdiv m.cols 64 * (scalesPerRow blk + rowBytes fmt)) rows.length
    (table :: bs, s)
  else s.freeRuns (packedSize fmt blk) (cdiv m.rows 64 * cdiv m.cols 64)

/-- One backward binding writes its slice of every matrix of a tint (R325, R330): consecutive handles on the primary stack, in
E5M2 with B32, or BF16 where the batch or the bay is wide (R335, R336, R350). -/
def State.addSlice (s : State) (t : Nat) (wide : Bool) : State :=
  let fmt := if wide then 8 else 7
  let blk := if wide then 0 else 2
  let owner := (s.tintOf t).owner
  (s.matrices t).foldl (fun (s : State) (m : Mat) =>
    let have_ := s.slicesOf m.param
    let (h, s) := match have_.head? with
      | some h => (h + have_.length, s)
      | none => let (hs, s) := s.newHandles owner 64; (hs.headD (owner * 67108864), s)
    let (tiles, s) := s.sliceTiles m fmt blk
    let stack := match s.obj m.param with | some o => o.stack | none => 0
    s.setObj h (some { kind := .other, of := m.param, home := .s, stack := stack, mirror := none, fmt := fmt, blk := blk, tiles := tiles,
                       written := s.tbm.fn, move := none })) s

/-- The slices of a tint are freed (R350). -/
def State.freeSlices (s : State) (t : Nat) : State :=
  let ps := (s.matrices t).map fun m => m.param
  s.freeObjs fun _ o => o.kind = .other && ps.contains o.of

/-- Row `i`, column `j` of one slice; none where a row-sparse slice lacks the row. -/
def sliceVal (o : Obj) (m : Mat) (i j : Nat) : Option Val :=
  if !m.lazy then some (tensorVal o.fmt o.blk 0 (fun _ => 0) o.tiles m.cols i j)
  else
    match (tableRows (o.tiles.getD 0 [])).findIdx? fun r => r = i with
    | none => none
    | some q =>
      let spr := scalesPerRow o.blk
      let row := (o.tiles.getD (q + 1) []).drop (j / 64 * (spr + rowBytes o.fmt))
      some (expand o.fmt 0 (fun _ => 0) (codeAt (row.drop spr) o.fmt 0 (j % 64)) (scaleAt (row.take spr) o.blk 0 (j % 64)))

/-- Rows that take part in a step: all, or for EMBED those that some slice holds (R358). -/
def Mat.stepRows (m : Mat) (slices : List Obj) : List Nat :=
  if m.lazy then
    let ts := slices.flatMap fun o => tableRows (o.tiles.getD 0 [])
    (List.range m.rows).filter ts.contains
  else List.range m.rows

/-- The slices of a matrix as objects. -/
def State.sliceObjs (s : State) (m : Mat) : List Obj := (s.slicesOf m.param).filterMap s.obj

/-- The gradient of R334 at (i, j). -/
def gradAt (m : Mat) (slices : List Obj) (w : Word) (i j : Nat) : Word :=
  let sum := slices.foldl (fun (a : Word) o => match sliceVal o m i j with
    | some v => toF32 ((f32v a).add v).1
    | none => a) 0
  (fmul sum w).1

/-! ### Statistics (R349, R351, R356) -/

/-- Entry `k` of a statistics object, as its code. -/
def statAt (tiles : List Blob) (k : Nat) : Nat := codeAt (tiles.getD (k / 4096) []) 8 (k / 64 % 64) (k % 64)

/-- The tiles of a statistics object from its entries. -/
def statBlobs (es : List Nat) : List Blob :=
  (chunks 4096 (cdiv es.length 4096) es).map fun xs => padTo 8192 (xs.flatMap fun c => leBytes 2 c)

/-- Constants of R351. -/
abbrev updBETA : Word := 0x3F7FC000
abbrev updOMB : Word := 0x3A800000
abbrev updEPS : Word := 0x21800000
abbrev updLB : Word := 0xBAB8C154

/-- The draw of a keyed stream (R175, R356). -/
def keyedDraw (k handle index : Nat) : Nat := (ldraw 16 (seedLane (BitVec.ofNat 64 (k * 4294967296 + handle)) index)).1

/-- sr16 of R351: BF16 with SR-16 and clamp SAT. -/
def sr16 (x : Word) (draw : Nat) : Nat := (fpBF16.convert (f32v x) (.sr 16 draw) false).1

/-- Elements of a row as the tiles of a run of columns: the tile of element (i, j) in ascending tile index, row-major in each. -/
def tileElems (rows cols : Nat) (t : Nat) : List (Nat × Nat) :=
  let n := cdiv cols 64
  let i := t / n * 64
  let j := t % n * 64
  (List.range (min 64 (rows - i))).flatMap fun r => (List.range (min 64 (cols - j))).map fun c => (i + r, j + c)

/-- The groups of elements that have a partial each: tiles, or touched rows (R352, R358). -/
def Mat.groups (m : Mat) (rows : List Nat) : List (List (Nat × Nat)) :=
  if m.lazy then rows.map fun i => (List.range m.cols).map fun j => (i, j)
  else (List.range (cdiv m.rows 64 * cdiv m.cols 64)).map (tileElems m.rows m.cols)

/-- Pass 1 of a matrix (R352, R358): the next statistics and the partials of the norm. -/
def pass1 (m : Mat) (stats : List Blob) (slices : List Obj) (w : Word) (k : Nat) : List Blob × List Word :=
  let rows := m.stepRows slices
  let g := gradAt m slices w
  let partials := (m.groups rows).map fun es => es.foldl (fun (p : Word) e => (ffma (g e.1 e.2) (g e.1 e.2) p).1) 0
  if rows.isEmpty then (stats, partials)
  else
    let q := fun i j => (ffma (g i j) (g i j) updEPS).1
    let rc := fdiv 0x3F800000 (f32OfNat m.cols)
    let rr := fdiv 0x3F800000 (f32OfNat rows.length)
    let stat := fun e sum r => sr16 (ffma updBETA (widenBf16 (statAt stats e)) (fmul (fmul sum r).1 updOMB).1).1 (keyedDraw k m.stats e)
    let rowSum := fun i => (List.range m.cols).foldl (fun (x : Word) j => (fadd x (q i j)).1) 0
    let colSum := fun j => rows.foldl (fun (y : Word) i => (fadd y (q i j)).1) 0
    let total := m.rows + m.cols + (if m.lazy then m.rows else 0)
    let es := (List.range total).map fun e =>
      if e < m.rows then if rows.contains e then stat e (rowSum e) rc else statAt stats e
      else if e < m.rows + m.cols then stat e (colSum (e - m.rows)) rr
      else if rows.contains (e - m.rows - m.cols) then min (statAt stats e + 1) 65535 else statAt stats e
    (statBlobs es, partials)

/-! ### The parameter write of pass 2 (R354, R355) -/

/-- Replaces a run of bytes of a tile. -/
def splice (tile : Blob) (off : Nat) (bs : Blob) : Blob := tile.take off ++ bs ++ tile.drop (off + bs.length)

/-- Length of a block of a parameter object: a scale block, or 64 elements of one tile row for blk NONE. -/
def paramBlock (blk : Nat) : Nat := if blk = 0 then 64 else blkLen blk

/-- Writes one row of a parameter object: its codes and the scale of each block; both copies of a B128 scale are written (R159). -/
def writeParamRow (fmt blk cols i : Nat) (tiles : List Blob) (codes scales : List Nat) : List Blob :=
  let n := cdiv cols 64
  let spr := scalesPerRow blk
  (List.range n).foldl (fun (ts : List Blob) tj =>
    let t := i / 64 * n + tj
    let cs := (codes.drop (64 * tj)).take 64
    let cs := cs ++ List.replicate (64 - cs.length) 0
    let ss := (List.range spr).map fun e => scales.getD (if 64 ≤ blkLen blk then 64 * tj / blkLen blk else tj * spr + e) 127
    let tile := splice (ts.getD t []) (i % 64 * spr) (ss.flatMap fun x => leBytes 1 x)
    ts.set t (splice tile (64 * spr + i % 64 * rowBytes fmt) (packRow fmt cs))) tiles

/-- What pass 2 of a matrix gives: the next parameters, the partials (u, w) in turn, the elements that kept their value, and the
blocks written. -/
structure Pass2 where
  tiles : List Blob
  pairs : List Word
  kept : Nat
  blocks : Nat

/-- Pass 2 of a matrix (R354, R355, R356, R358). A LUT4 element has no rule by which it is written: its code is free (`lut`). -/
def pass2 (m : Mat) (o : Obj) (next : List Blob) (slices : List Obj) (w kappa eta : Word) (k zp : Nat) (lut : Nat → Nat) : Pass2 :=
  let rows := m.stepRows slices
  let g := gradAt m slices w
  let cj := fun j => widenBf16 (statAt next (m.rows + j))
  let mean := (fmul ((List.range m.cols).foldl (fun (a : Word) j => (fadd a (cj j)).1) 0) (fdiv 0x3F800000 (f32OfNat m.cols))).1
  let old := fun i j => toF32 (tensorVal o.fmt o.blk zp lut o.tiles m.cols i j)
  let newRow := fun i =>
    let tr := min (if m.lazy then statAt next (m.rows + m.cols + i) else k) 65535
    let bc := (fsub 0x3F800000 (fexp2 (fmul (f32OfNat tr) updLB).1).1).1
    let a := (fmul (widenBf16 (statAt next i)) (frcp (fmul mean bc).1).1).1
    (List.range m.cols).map fun j =>
      let v := (fmul a (cj j)).1
      let u := (fmul (fmul (g i j) kappa).1 (frsq v).1).1
      let x := (ffma (fneg eta) u (old i j)).1
      if (f32v x).isFin then (x, 0) else (old i j, 1)
  let b := paramBlock o.blk
  let (tiles, kept) := rows.foldl (fun (acc : List Blob × Nat) i =>
    let vs := newRow i
    let blocks := (List.range (cdiv m.cols b)).map fun x =>
      convertBlock o.fmt (decide (o.blk ≠ 0)) true
        ((((vs.drop (b * x)).take b).zipIdx).map fun e => (f32v e.1.1, Rnd.sr 16 (keyedDraw k m.param ((i * m.cols + b * x + e.2) % 4294967296))))
        zp false false
    let codes := blocks.flatMap fun x => x.1.map fun c => c.1
    let codes := if o.fmt = 3 then (List.range m.cols).map fun j => lut (16 + i * m.cols + j) % 16 else codes
    (writeParamRow o.fmt o.blk m.cols i acc.1 codes (blocks.map fun x => x.2), acc.2 + (vs.map fun v => v.2).sum)) (o.tiles, 0)
  let pairs := (m.groups rows).flatMap fun es =>
    let r := es.foldl (fun (a : Word × Word) e =>
      let x := old e.1 e.2
      let d := (fsub (toF32 (tensorVal o.fmt o.blk zp lut tiles m.cols e.1 e.2)) x).1
      ((ffma d d a.1).1, (ffma x x a.2).1)) (0, 0)
    [r.1, r.2]
  { tiles := tiles, pairs := pairs, kept := kept, blocks := rows.length * cdiv m.cols b }

end Sys2Proof.Machine
end

