-- ==== Sys2Proof/Machine/Update.lean ====
section
/-! DEFINITION. The optimiser step of a batch (chapters 11 and 12): where its passes run, the commands of the update engines, the
director's reduction, and what ends a pass. -/

namespace Sys2Proof.Machine

/-- Changes the open batch of a tint. -/
def State.modBatch (s : State) (t : Nat) (f : Batch → Batch) : State :=
  let x := s.tintOf t
  s.setTint t { x with train.cur := f x.train.cur }

/-- Counts in NMD_UPD_SKIP_CNT or NMD_UPD_ABANDON_CNT (R364). -/
def State.bumpReg (s : State) (k : Nat) : State := s.setReg k (satAdd 32 (s.reg k) 1)

/-- A TRAIN_EVENT record of a tint (Table 17.6). -/
def State.trainLog (s : State) (t what arg : Nat) : State := s.logUnit 0x0602 (s.tintOf t).owner 0xFF 0 [t, what, arg]

/-! ### Commands (R360) -/

/-- An update command's 64 bytes (Table 12.2). -/
def mkUpd (op tint : Nat) (k : Word) (m : Mat) (grad slices mirror result zp : Nat) (w kappa eta : Word) : UpdCmd :=
  BitVec.ofNat 512 (leNat (leBytes 1 op ++ leBytes 1 (b2n m.lazy) ++ leBytes 2 tint ++ leBytes 4 k.toNat ++ leBytes 4 m.param ++
    leBytes 4 m.stats ++ leBytes 4 grad ++ leBytes 1 slices ++ leBytes 1 0 ++ leBytes 2 m.layer ++ leBytes 4 m.rows ++ leBytes 4 m.cols ++
    leBytes 4 w.toNat ++ leBytes 4 kappa.toNat ++ leBytes 4 eta.toNat ++ leBytes 4 result ++ leBytes 2 mirror ++ leBytes 1 zp))

/-- A place in the house's banks for a result area: the director's choice, free (log entry 3). -/
def State.resultRef (s : State) : Nat × State :=
  let (w, s) := s.draw32
  let bs := (List.range 1536).filter fun b => (s.bank b).owner = 32 && (s.bank b).state = .on
  (bs.getD (w.toNat / 262144 % max 1 bs.length) 0 * 262144 + w.toNat % 262144, s)

/-- Zero point with which a partition's sheets read a UINT layer (R360); zero for every other format. A plate layer of a
full-parameter run alone can be UINT. -/
def State.paramZp (s : State) (t : Nat) (m : Mat) : Nat :=
  match s.obj m.param with
  | none => 0
  | some o =>
    if !fmtUint o.fmt then 0
    else
      let p := (s.tintOf t).owner
      ((List.range 64).findSome? fun slot => match s.sheet p slot with
        | some x => ((s.uintReads x).find? fun (e : List Nat × Nat) => e.1.contains m.layer).map fun e => e.2
        | none => none).getD 0

/-- Primary and mirror stack of a matrix. -/
def State.matStacks (s : State) (m : Mat) : Nat × Option Nat :=
  match s.obj m.param with
  | some o => (o.stack, o.mirror)
  | none => (0, none)

/-- The step's number, token weight and slices of a tint's batch. -/
def State.stepK (s : State) (t : Nat) : Word := (s.tintOf t).train.k + 1

/-- T of R334: the batch's tokens with a target, or the group's total that the second ring pass recorded (R439). -/
def State.stepT (s : State) (t : Nat) : Nat :=
  match s.reel.verdicts.find? fun v => v.tint = t && v.recorded with
  | some v => v.t.toNat
  | none => (s.tintOf t).train.cur.targets

def State.stepW (s : State) (t : Nat) : Word := fdiv 0x3F800000 (f32OfNat (s.stepT t))

/-- The director queues one command for each matrix of a tint (R360). -/
def State.queueStep (s : State) (t op : Nat) (kappa eta : Word) : State :=
  (s.matrices t).foldl (fun (s : State) (m : Mat) =>
    let (n, mirror) := s.matStacks m
    let (r, s) := s.resultRef
    let sl := s.slicesOf m.param
    let c := mkUpd op t (s.stepK t) m (sl.headD 0) sl.length (mirror.getD n) r (s.paramZp t m) (s.stepW t) kappa eta
    let u := s.updOf n
    if 256 ≤ u.queue.length then s else (s.setUpd n { u with queue := u.queue ++ [c] }).updStatus c 0) s

/-! ### Placing a pass in its frame (R331, R357, R359) -/

/-- Some UPDATE cue of the present frame's sheets holds every stack of a list. -/
def State.updSlot (s : State) (ns : List Nat) : Bool :=
  (List.range 33).any fun o => match s.playing o with
    | none => false
    | some x => (x.track .m).any fun c =>
      (x.shot c).op = MOp.update && (s.ctx o).selected c && ns.all fun n => bitOf (BitVec.ofNat 12 (x.shot c).mStacks) n

/-- Every matrix's stacks are live, held by an UPDATE cue of the frame, and their engines have room. -/
def State.nmdPlaceable (s : State) (t : Nat) : Bool :=
  (s.matrices t).all fun m =>
    let (n, mirror) := s.matStacks m
    s.stackLive n && s.updSlot (n :: mirror.toList) && decide ((s.updOf n).queue.length + (s.matrices t).length ≤ 256)

/-- A bay bound to the tint carries vector programs in the present frame (R215). -/
def State.vecPlaceable (s : State) (t : Nat) : Bool :=
  let p := (s.tintOf t).owner
  match s.playing p with
  | none => false
  | some x => (s.ctx p).bindings.any fun b => b.tint = t && (x.track .v).any fun c => c.bay = b.bay && (x.shot c).op = 1 && (s.ctx p).selected c

/-- Bytes of the next copies of a step, both copies of each pair. -/
def State.nextBytes (s : State) (t : Nat) : Nat :=
  2 * ((s.matrices t).map fun m => ([m.param, m.stats].map fun h => match s.obj h with | some o => o.bytes | none => 0).sum).sum

/-- Pass 1 is placed at the tick that begins its frame, if it can be (R331, R357): on the vector units for a HOT tint, else on the
NMDs. -/
def State.placePass1 (s : State) (t : Nat) : State :=
  let x := s.tintOf t
  let hot := x.state = .hot
  if !(if hot then s.vecPlaceable t else s.nmdPlaceable t) then s
  else if !s.sRoom x.owner (s.nextBytes t) then s.trainLog t 7 0
  else
    let s := s.modBatch t fun (b : Batch) => { b with placed := true, partials := [], next := [], scalars := none, onVector := hot }
    if hot then s else s.queueStep t 1 0 0

/-- Pass 2 is placed at the tick of the frame after (R331, R359): a tint that is no longer HOT goes on on the NMDs. -/
def State.placePass2 (s : State) (t : Nat) : State :=
  let b := (s.tintOf t).train.cur
  match b.scalars with
  | none => s
  | some (kappa, eta) =>
    if b.onVector && (s.tintOf t).state = .hot then
      if s.vecPlaceable t then s.modBatch t fun (b : Batch) => { b with placed := true }
      else s.modBatch t fun (b : Batch) => { b with phase := .pass1, placed := false, next := [], scalars := none }
    else if !s.nmdPlaceable t then
      (s.abandonCmds t).modBatch t fun (b : Batch) => { b with phase := .pass1, placed := false, next := [], scalars := none, onVector := false }
    else if b.onVector then
      (s.modBatch t fun (b : Batch) => { b with placed := true, onVector := false }).queueStep t 2 kappa eta
    else s.modBatch t fun (b : Batch) => { b with placed := true }

/-! ### The passes themselves (R352, R354, R357) -/

/-- The next copy of an object in the step, if the step has one, else its home copy. -/
def State.nextTiles (s : State) (t h : Nat) : List Blob :=
  match (s.tintOf t).train.cur.next.find? fun e => e.1 = h with
  | some e => e.2
  | none => s.objTiles h

/-- A next copy is written. -/
def State.setNext (s : State) (t h : Nat) (tiles : List Blob) : State :=
  s.modBatch t fun (b : Batch) => { b with next := (b.next.filter fun e => e.1 ≠ h) ++ [(h, tiles)] }

/-- Pass 1 of one matrix: its next statistics, and the partials. -/
def State.runPass1 (s : State) (t : Nat) (m : Mat) (w k : Word) : State × List Word :=
  let r := pass1 m (s.objTiles m.stats) (s.sliceObjs m) w k.toNat
  (s.setNext t m.stats r.1, r.2)

/-- Pass 2 of one matrix: its next parameters, the pairs, the elements kept and the blocks written. -/
def State.runPass2 (s : State) (t : Nat) (m : Mat) (w kappa eta k : Word) (zp : Nat) : State × List Word × Nat × Nat :=
  match s.obj m.param with
  | none => (s, [], 0, 0)
  | some o =>
    let f := s.free
    let lut := fun i => (Config.free32 (f + i)).toNat % 65536
    let r := pass2 m o (s.nextTiles t m.stats) (s.sliceObjs m) w kappa eta k.toNat zp lut
    let s := if o.fmt = 3 then { s with free := s.free + 16 + m.rows * m.cols } else s
    (s.setNext t m.param r.tiles, r.pairs, r.kept, r.blocks)

/-- The partials of a matrix are in. -/
def State.addPartials (s : State) (t h : Nat) (ws : List Word) : State :=
  s.modBatch t fun (b : Batch) => { b with partials := (b.partials.filter fun e => e.1 ≠ h) ++ [(h, ws)] }

/-- Every matrix has its partials of the present pass. -/
def State.passComplete (s : State) (t : Nat) : Bool :=
  (s.matrices t).all fun m => (s.tintOf t).train.cur.partials.any fun e => e.1 = m.param

/-- Partials of a matrix. -/
def State.partialsOf (s : State) (t h : Nat) : List Word :=
  match (s.tintOf t).train.cur.partials.find? fun e => e.1 = h with
  | some e => e.2
  | none => []

/-! ### The director's reduction (R338, R353) -/

/-- The step is skipped: 1 a top overflow (R335), 2 a non-finite norm (R353). Passes of the batch that still run go on to their ends; a step
that has been placed goes no further. -/
def State.skipStep (s : State) (t what : Nat) : State :=
  let x := s.tintOf t
  if x.train.cur.skip ≠ 0 then s
  else
    let s := if what = 2 then s.raise Reg.nmdUpdStatus 0 else s
    let s := ((s.bumpReg Reg.nmdUpdSkipCnt).trainLog t 2 0).event x.owner 3 (what - 1) t 0 x.gen.toNat 0
    let s := if x.train.cur.phase = .joining then s else s.abandonCmds t
    s.modBatch t fun (b : Batch) =>
      let b := { b with skip := what, excursion := true, next := [] }
      if b.phase = .joining then b else { b with phase := .ready, placed := false, partials := [], scalars := none }

/-- Where the first vector program of a tint's step writes its partial sums: from the tier F word that args[0] of the first RUN cue of the
tint's bay names, as a reference (R215; DEDUCED, log entry 51). -/
def State.partialArea (s : State) (t : Nat) : Option Place :=
  let p := (s.tintOf t).owner
  match s.playing p with
  | none => none
  | some x => (s.ctx p).bindings.findSome? fun b =>
      if b.tint ≠ t then none
      else ((x.track .v).find? fun c => c.bay = b.bay && (x.shot c).op = 1 && (s.ctx p).selected c).map fun c => s.resolve (some b) ((x.shot c).arg 0)

/-- Every partial of a tint's pass, in the order in which the director adds them (R353). -/
def State.stepPartials (s : State) (t : Nat) : List Word := (s.matrices t).flatMap fun m => s.partialsOf t m.param

/-- The words that the director reduces: of the vector units in tier F, of the NMDs in their result areas (R215, R353, R361). -/
def State.normWords (s : State) (t : Nat) : List Word :=
  let ws := s.stepPartials t
  match s.partialArea t with
  | some p =>
    if (s.tintOf t).train.cur.onVector && s.accessOk (s.tintOf t).owner true p (4 * ws.length) && p ≠ .unbound then
      let bs := s.readAt p (4 * ws.length)
      (List.range ws.length).map fun i => BitVec.ofNat 32 (leAt bs (4 * i) 4)
    else ws
  | none => ws

/-- At the commit point of pass 1's frame the director forms the norm and the scalars (R215, R353). -/
def State.reduceNorm (s : State) (t : Nat) : State :=
  let x := s.tintOf t
  let sum := (s.normWords t).foldl (fun (a : Word) w => (fadd a w).1) 0
  if !(f32v sum).isFin then s.skipStep t 2
  else
    let n := (fsqrtR sum).1
    let clip := widenBf16 (s.regFld (Reg.nmdUpdClip + 4 * x.owner) 0 16)
    let kappa := if (f32v n).cmp (f32v clip) ≤ 0 then 0x3F800000 else (fmul clip (frcp n).1).1
    let lr := widenBf16 (fld (x.train.cur.params.getD 0) 0 16)
    let eta := (fmul lr x.train.sigma).1
    s.modBatch t fun (b : Batch) => { b with phase := .pass2, placed := false, partials := [], scalars := some (kappa, eta) }

/-- sqrt(u / w) with one rounding to binary32 (R338). -/
def ratio (u w : Word) : Val :=
  match f32v u, f32v w with
  | .fin _ m1 e1, .fin _ m2 e2 =>
    if m2 = 0 then .nan
    else if m1 = 0 then .fin false 0 0
    else
      let odd := (e1 - e2) % 2
      let a := m1 * 2 ^ (200 + odd.toNat)
      let q := a / m2
      let r := isqrt q
      let st := b2n (decide (a % m2 ≠ 0) || decide (r * r ≠ q))
      f32v (toF32 (.fin false (2 * r + st) ((e1 - e2 - odd) / 2 - 101)))
  | .inf _, .fin .. => .inf false
  | .fin .., .inf _ => .fin false 0 0
  | _, _ => .nan

/-- The step's u and w of one layer, in the order of R353. -/
def State.layerSums (s : State) (t l : Nat) : Word × Word :=
  let ps := (s.matrices t).flatMap fun m => if m.layer = l then chunks 2 (s.partialsOf t m.param).length (s.partialsOf t m.param) else []
  ps.foldl (fun (a : Word × Word) p => ((fadd a.1 (p.getD 0 0)).1, (fadd a.2 (p.getD 1 0)).1)) (0, 0)

/-- The step is an excursion (R338). -/
def State.isExcursion (s : State) (t : Nat) : Bool :=
  let p := (s.tintOf t).train.cur.params.getD 0
  let lo := fpBF16.value (fld p 16 16)
  let hi := fpBF16.value (fld p 32 16)
  (dedup ((s.matrices t).map fun m => m.layer)).any fun l =>
    let (u, w) := s.layerSums t l
    if w = 0 then false
    else
      let r := ratio u w
      r = .nan || decide (r.cmp lo < 0) || decide (0 < r.cmp hi)

/-- Pass 2 has ended on every matrix: the step waits for the tick that begins reel position 0 (R35, R331). -/
def State.endPass2 (s : State) (t : Nat) : State :=
  let e := s.isExcursion t
  s.modBatch t fun (b : Batch) => { b with phase := .ready, placed := false, excursion := e, pass2End := s.tbm.fn }

/-! ### The vector path (R215, R359) -/

/-- Pass 1 on the vector units: it has run by the commit point of its frame, and its partial sums stand in tier F (R215). -/
def State.vecPass1 (s : State) (t : Nat) : State :=
  let s := (s.matrices t).foldl (fun (s : State) m =>
    let (s, ws) := s.runPass1 t m (s.stepW t) (s.stepK t)
    s.addPartials t m.param ws) s
  let ws := s.stepPartials t
  match s.partialArea t with
  | some p => if s.accessOk (s.tintOf t).owner true p (4 * ws.length) then s.writeAt p (ws.flatMap fun w => leBytes 4 w.toNat) else s
  | none => s

/-- Pass 2 on the vector units: it has run by the end of its frame; the changed tiles of the hot slot wait for TINT cues (R296). -/
def State.vecPass2 (s : State) (t : Nat) : State :=
  match (s.tintOf t).train.cur.scalars with
  | none => s
  | some (kappa, eta) =>
    let s := (s.matrices t).foldl (fun (s : State) m =>
      let (s, ws, kept, _) := s.runPass2 t m (s.stepW t) kappa eta (s.stepK t) (s.paramZp t m)
      let s := if kept = 0 then s else s.raise Reg.nmdUpdStatus 2
      s.addPartials t m.param ws) s
    let s := s.setTint t { s.tintOf t with writeThrough := (s.tintOf t).hotTiles.length }
    s.endPass2 t

/-! ### Dropping a step (R362, Table 12.6) -/

/-- The director issues DROP for a step: its passes are abandoned, and both move under R331. -/
def State.dropStep (s : State) (t : Nat) : State :=
  let s := s.abandonCmds t
  let s := ((s.bumpReg Reg.nmdUpdAbandonCnt).raise Reg.nmdUpdStatus 1).trainLog t 7 0
  let s := s.queueStep t 3 0 0
  s.modBatch t fun (b : Batch) => { b with phase := .pass1, placed := false, partials := [], scalars := none, onVector := false }

/-- The samples of a batch return to pending (R101): its slices are gone, and every pass runs again. -/
def State.returnBatch (s : State) (t : Nat) : State :=
  let b := (s.tintOf t).train.cur
  let s := b.samples.foldl (fun (s : State) k => (s.modItem k fun (i : Item) => { i with stage := 0 }).returnItem k) s
  let s := s.freeSlices t
  s.modBatch t fun (b : Batch) => { b with phase := .joining, slices := 0, placed := false, partials := [], next := [], scalars := none }

/-! ### The engines' commands (R347, R360-R362) -/

/-- The matrix that a command names. -/
def State.cmdMat (s : State) (c : UpdCmd) : Option Mat := (s.matrices (updF c 2 2)).find? fun m => m.param = updF c 8 4

/-- Every field of a command is in range (R360). -/
def State.cmdOk (s : State) (n : Nat) (c : UpdCmd) : Bool :=
  let op := updF c 0 1
  match s.cmdMat c, s.obj (updF c 8 4) with
  | some m, some o =>
    (op = 1 || op = 2 || op = 3) && decide (updF c 1 1 = b2n m.lazy) && updF c 0x0C 4 = m.stats && updF c 0x15 1 = 0 && updF c 0x18 4 = m.rows &&
      updF c 0x1C 4 = m.cols && updF c 0x16 2 = m.layer && (op = 3 || decide (1 ≤ updF c 0x14 1) && decide (updF c 0x14 1 ≤ 64)) &&
      (op = 2 || updF c 0x24 4 = 0 && updF c 0x28 4 = 0) && decide (updF c 0x30 2 ≤ 11) && updF c 0x33 13 = 0 && o.stack = n &&
      (fmtUint o.fmt && decide (updF c 0x32 1 < (if o.fmt = 1 then 16 else 256)) || updF c 0x32 1 = 0)
  | _, _ => false

/-- Bytes of a list of tiles. -/
def blobBytes (ts : List Blob) : Nat := (ts.map List.length).sum

/-- Time of a pass in ns (R362, Table 12.4): the longest over the stacks that it uses. -/
def State.passNs (s : State) (c : UpdCmd) : Nat :=
  match s.cmdMat c with
  | none => 1000
  | some m =>
    let slices := s.sliceObjs m
    let rows := (m.stepRows slices).length
    let sl := (slices.map fun o => blobBytes o.tiles).sum
    let st := blobBytes (s.objTiles m.stats)
    let pr := match s.obj m.param with
      | some o => if m.lazy then rows * cdiv m.cols 64 * (scalesPerRow o.blk + rowBytes o.fmt) else o.bytes
      | none => 0
    let els := (slices.map fun o => if m.lazy then (tableRows (o.tiles.getD 0 [])).length * m.cols else m.rows * m.cols).sum
    let (b, bm) := if updF c 0 1 = 1 then (sl + st + st, st) else (pr + sl + st + pr, pr)
    max (1000 + cdiv (12 * b) 2048) (max (1000 + cdiv els 256) (1000 + cdiv (12 * bm) 2048))

/-- TB at which the UPDATE cue in progress that holds some stacks ends. -/
def State.updCueEnd (s : State) (ns : List Nat) : Option Nat := (s.updCue ns).bind fun m => m.until_

/-- End of the house retake window of the present frame: of the last retake cue of its house sheet (R336). -/
def State.retakeEnd (s : State) : Nat :=
  match s.playing 32 with
  | none => 0
  | some x => (x.cues.flatten.filter Cue.retake).foldl (fun a c => max a (s.cycleTb 32 (c.offset + (s.ctx 32).slip + c.dur))) 0

/-- A pass of a tint's step may start on some stacks: it is placed in this frame, the house retake window is over, and an UPDATE cue in
progress holds the stacks (R331, R336, R362). -/
def State.passMayStart (s : State) (t : Nat) (p : BatchPhase) (ns : List Nat) : Bool :=
  (s.tintOf t).train.cur.placed && decide ((s.tintOf t).train.cur.phase = p) && decide (s.retakeEnd ≤ s.now) && s.updOpen ns

/-- The front command of an engine, if it has an op code and has not started. -/
def State.frontCmd (s : State) (n op : Nat) : Option UpdCmd :=
  let u := s.updOf n
  match u.queue with
  | c :: _ => if updF c 0 1 = op && !u.running && s.stackLive n && (s.nmdOf n).state = .live && !s.saf.safe then some c else none
  | [] => none

/-- The front command leaves the queue. -/
def State.popCmd (s : State) (n : Nat) : State :=
  let u := s.updOf n
  s.setUpd n { u with queue := u.queue.drop 1, running := false, paused := false, slotTb := none, doneNs := 0, result := none }

/-- A pass starts in an UPDATE cue that holds its stacks: what it will return is fixed by what it reads. -/
def State.startPass (s : State) (n : Nat) (ws : List Word) (count : Nat) : State :=
  s.setUpd n { s.updOf n with running := true, paused := false, startTb := s.now, doneNs := 0, slotTb := some s.now, result := some (ws, count) }

/-- PASS1 (R347, R352, R357, R358): the front command starts; a malformed one is not executed. -/
def execPass1 (n : Nat) (s : State) : Out :=
  match s.frontCmd n 1 with
  | none => .next s
  | some c =>
    if !s.cmdOk n c then .next ((s.updStatus c 4).popCmd n)
    else if !s.passMayStart (updF c 2 2) .pass1 (updStacks n c) then .next s
    else match s.cmdMat c with
    | none => .next s
    | some m =>
      let (s, ws) := s.runPass1 (updF c 2 2) m (BitVec.ofNat 32 (updF c 0x20 4)) (BitVec.ofNat 32 (updF c 4 4))
      .next (s.startPass n ws ws.length)

/-- PASS2 (R347, R354-R358). -/
def execPass2 (n : Nat) (s : State) : Out :=
  match s.frontCmd n 2 with
  | none => .next s
  | some c =>
    if !s.cmdOk n c then .next ((s.updStatus c 4).popCmd n)
    else if !s.passMayStart (updF c 2 2) .pass2 (updStacks n c) then .next s
    else match s.cmdMat c with
    | none => .next s
    | some m =>
      let w := fun off => BitVec.ofNat 32 (updF c off 4)
      let (s, ws, kept, _) := s.runPass2 (updF c 2 2) m (w 0x20) (w 0x24) (w 0x28) (w 4) (updF c 0x32 1)
      .next (s.startPass n ws kept)

/-- DROP (R360): the matrix's next copies are freed. -/
def execDrop (n : Nat) (s : State) : Out :=
  match s.frontCmd n 3 with
  | none => .next s
  | some c =>
    if !s.cmdOk n c then .next ((s.updStatus c 4).popCmd n)
    else
      let s := s.modBatch (updF c 2 2) fun (b : Batch) => { b with next := b.next.filter fun e => e.1 ≠ updF c 8 4 && e.1 ≠ updF c 0x0C 4 }
      .next ((s.updStatus c 1).popCmd n)

/-- The result area of a pass: its words, then count and status (R361). -/
def State.writeResult (s : State) (c : UpdCmd) (ws : List Word) (count : Nat) : State :=
  let p := s.resolve none (updF c 0x2C 4)
  -- an NMD packer writes the area on port 1 (R253)
  let s := s.usePort (s.writeUse Rq.packer 32 (105 * s.now) (p.run (8 + 4 * ws.length)))
  let s := s.writeAt (p.plus 8) (ws.flatMap fun w => leBytes 4 w.toNat)
  (s.writeAt (p.plus 4) (leBytes 4 count)).updStatus c 1

/-- What a completed pass counts (R364). -/
def State.countPass (s : State) (n : Nat) (c : UpdCmd) (m : Mat) (count ns : Nat) : State :=
  let u := s.updOf n
  let u := { u with lastNs := BitVec.ofNat 32 ns }
  if updF c 0 1 = 1 then s.setUpd n u
  else
    let blocks := (m.stepRows (s.sliceObjs m)).length * cdiv m.cols (match s.obj m.param with | some o => paramBlock o.blk | none => 64)
    let s := s.setUpd n { u with blocks := satAdd 32 u.blocks blocks, nonfin := satAdd 32 u.nonfin count }
    if count = 0 then s else s.raise Reg.nmdUpdStatus 2

/-- UPDATE_PASS_DONE (R361, R362, R363): the running pass has had its time inside UPDATE cues; `unread` says that a slice read was
uncorrectable, and then the step is dropped and the batch's samples return to pending. -/
def execUpdatePassDone (n : Nat) (unread : Bool) (s : State) : Out :=
  let u := s.updOf n
  match u.queue, u.result, u.slotTb with
  | c :: _, some (ws, count), some t0 =>
    let due := t0 + (s.passNs c - u.doneNs)
    let fits := match s.updCueEnd (updStacks n c) with | some e => decide (due ≤ e) | none => false
    if !u.running || u.paused || !fits || s.saf.safe then .next s
    else
      let s := s.advance due
      let t := updF c 2 2
      if unread then
        let s := ((s.updStatus c 3).popCmd n).raise Reg.nmdUpdStatus 3
        .next ((s.dropStep t).returnBatch t)
      else
        let s := s.writeResult c ws count
        let s := match s.cmdMat c with
          | some m => s.countPass n c m count (due - u.startTb)
          | none => s
        let s := (s.popCmd n).addPartials t (updF c 8 4) ws
        .next (if updF c 0 1 = 2 && s.passComplete t then s.endPass2 t else s)
  | _, _, _ => .next s

/-- Tints with commands of an op code in an engine. -/
def State.tintsWith (s : State) (n op : Nat) : List Nat := dedup ((s.updOf n).queue.filterMap fun c => if updF c 0 1 = op then some (updF c 2 2) else none)

/-- Steps that an engine has not ended in time are dropped: pass 1 by its commit point, pass 2 by the end of its frame (R362). -/
def State.updDeadline (s : State) (n : Nat) (frameEnd : Bool) : State :=
  let late := (if s.tbm.cpPassed || frameEnd then s.tintsWith n 1 else []) ++ (if frameEnd then s.tintsWith n 2 else [])
  s.each (dedup late) fun s t => s.dropStep t

/-- UPDATE_DEADLINE (R362). PASS2 queued at a commit point has the whole next frame; at the end of the frame that holds it, TB has
reached the next tick. -/
def execUpdateDeadline (n : Nat) (s : State) : Out :=
  if s.saf.safe then .next s
  else .next (s.updDeadline n (s.tbm.running && decide (s.tbm.tNext.toNat ≤ s.now) && (s.tintsWith n 2).all fun t => (s.tintOf t).train.cur.placed))

end Sys2Proof.Machine
end

