-- ==== Sys2Proof/Machine/Training.lean ====
section
/-! DEFINITION. Fine-tuning (chapter 11): samples and batches, steps as they become visible, the watch, snapshots, restore and
rollback, checked delivery; and the METER descriptor (chapter 6). -/

namespace Sys2Proof.Machine

/-! ### Fields of TRAIN_SAMPLE (Tables 11.1 and 11.2) -/

def Item.tTint (i : Item) : Nat := i.field 0x10 2
def Item.tBatch (i : Item) : BitVec 16 := BitVec.ofNat 16 (i.field 0x12 2)
def Item.tLen (i : Item) : Nat := i.field 0x14 3
def Item.tEnd (i : Item) : Bool := bitOf i.raw (8 * 0x17)
def Item.tBlock (i : Item) : ParamBlock := BitVec.ofNat 128 (i.field 0x28 16)

/-- The resume bit of a parameter block. -/
def blockResume (b : ParamBlock) : Bool := bitOf b 64

/-- A parameter block without its resume bit: what the samples of a batch share (R324). -/
def blockCore (b : ParamBlock) : ParamBlock := b &&& ~~~(BitVec.ofNat 128 (2 ^ 64))

/-- Every field of a parameter block is in range (R324). -/
def blockOk (b : ParamBlock) : Bool :=
  let lr := fpBF16.value (fld b 0 16)
  let lo := fpBF16.value (fld b 16 16)
  let hi := fpBF16.value (fld b 32 16)
  let zero := Val.fin false 0 0
  lr.isFin && decide (0 < lr.cmp zero) && lo ≠ .nan && hi ≠ .nan && decide (0 ≤ lo.cmp zero) && decide (0 < hi.cmp lo) &&
    decide (1 ≤ fld b 48 16) && decide (fld b 48 16 ≤ 1024) && fld b 65 63 = 0

/-! ### Joining a batch (R322-R325) -/

/-- A replayed sample: it has no ring, and writes no completion (R342). -/
def ItemKey.replayed (k : ItemKey) : Bool := decide (16 ≤ k.sq)

/-- Whether a sample joins the open batch, waits for the next, or ends with a status (R322, R324). -/
def Training.place (x : Training) (i : Item) : Except Nat Bool :=
  if i.tBatch = x.openBatch + 1 then .ok false
  else if i.tBatch ≠ x.openBatch || x.cur.closed then .error St.badDescriptor
  else match x.cur.params with
    | some p => if p = blockCore i.tBlock then .ok true else .error St.badDescriptor
    | none => .ok true

/-- A sample joins the open batch. -/
def State.joinBatch (s : State) (k : ItemKey) (i : Item) : State :=
  s.modBatch i.tTint fun (b : Batch) =>
    { b with samples := b.samples ++ [k], closed := b.closed || i.tEnd, params := some (blockCore i.tBlock), targets := b.targets + i.aux }

/-- A sample that ends without running still closes its batch if it was the one to do so (R325). -/
def State.closeBatch (s : State) (i : Item) : State :=
  if i.tEnd && i.tBatch = (s.tintOf i.tTint).train.openBatch then s.modBatch i.tTint fun (b : Batch) => { b with closed := true } else s

/-- Batches of a tint's replay log are on their way again (R342). -/
def State.replaying (s : State) (t : Nat) : Bool :=
  s.items.any fun e => e.1.sq = 16 + t && e.1.set = (s.tintOf t).owner && e.2.done.isNone

/-- A sample whose batch is open joins it, or ends with its status; one of the next batch goes on waiting. During a replay the samples of
every later batch do, the replayed ones and those that had been taken up before the rollback (R342). -/
def State.takeIn (s : State) (k : ItemKey) : State :=
  match s.item? k with
  | none => s
  | some i =>
    if s.replaying i.tTint && decide (0 < sdiff (s.tintOf i.tTint).train.openBatch i.tBatch) then s
    else match (s.tintOf i.tTint).train.place i with
    | .error e => s.finish k e
    | .ok true => s.joinBatch k i
    | .ok false => s

/-- Another sample of the tint was observed earlier and has not been taken up. -/
def State.sampleEarlier (s : State) (k : ItemKey) (i : Item) : Bool :=
  s.items.any fun e => e.1.set = k.set && e.1 ≠ k && e.2.phase = .fetched && e.2.done.isNone && e.2.op = 3 && e.2.tTint = i.tTint &&
    decide (e.2.order < i.order)

/-- A pause is cleared (R339). -/
def Training.resume (x : Training) : Training :=
  if x.paused then { x with paused := false, sigma := 0x3F800000, clean := 0, excursions := 0 } else x

/-- Target IDs of a sample: those that are not marked as absent. -/
def targetIds (i : Item) (bs : Blob) : List Nat := ((List.range i.tLen).map fun j => leAt bs (4 * j) 4).filter fun x => x ≠ 0xFFFFFFFF

/-- TRAIN_SAMPLE (R304, R321-R324, R326, R339): its token and target IDs come with the command, none where a host read fails. -/
def execTrainSample (k : ItemKey) (tokens targets : Option Blob) (s : State) : Out :=
  match s.fresh k 3 with
  | none => .next s
  | some i =>
    let t := i.tTint
    let x := s.tintOf t
    if s.sampleEarlier k i then .next s
    else if !s.registered k.set t then .next (s.finish k St.notPermitted)
    else if x.state = .withdrawing then .next (s.finish k St.tintWithdrawn)
    else if !blockOk i.tBlock || i.tLen = 0 then .next (s.finish k St.badDescriptor)
    else if x.train.paused && (x.diverged || !blockResume i.tBlock) then .next (s.finish k St.notPermitted)
    else match x.train.place i with
    | .error e => .next (s.finish k e)
    | .ok _ =>
      match tokens, targets with
      | some a, some b =>
        let ids := (List.range i.tLen).map fun j => leAt a (4 * j) 4
        let tg := targetIds i b
        if !(ids.all (s.tokenOk t)) || !(tg.all (s.tokenOk t)) then .next (s.finish k St.badDescriptor)
        else
          let s := if blockResume i.tBlock then s.setTint t { x with train := x.train.resume } else s
          .next ((s.modItem k fun (i : Item) => { i with phase := .waiting, aux := tg.length, ids := ids }).takeIn k)
      | _, _ => .next ((s.finish k St.uncorrectable).closeBatch i)

/-! ### Entry and passes (R325, R330, R332, R333) -/

/-- Passes of a sample: one forward and one backward for each segment. -/
def Item.passes (i : Item) : Nat := 2 * i.segs

/-- The sample's present pass is a backward one. -/
def Item.backward (i : Item) : Bool := decide (i.segs ≤ i.stage)

/-- A sample that enters for the first time is cut into segments by its bay's rows, and takes its slices of the batch: one that
would raise it above 64 does not run (R325, R332). Short samples that share a bay share a slice. -/
def State.enterSample (s : State) (k : ItemKey) (rows : Nat) (shared : Bool) : State :=
  match s.item? k with
  | none => s
  | some i =>
    if i.segs ≠ 0 then s
    else
      let n := cdiv i.tLen (max 1 rows)
      let add := if n = 1 && shared then 0 else n
      let b := (s.tintOf i.tTint).train.cur
      if 64 < b.slices + add then (s.finish k St.badDescriptor).closeBatch i
      else
        (s.modItem k fun (i : Item) => { i with segs := n }).modBatch i.tTint fun (b : Batch) => { b with slices := b.slices + add, inFlight := true }

/-- A bay's training level: one below the class of its alternate (R335); a bay without an alternate has none wider. -/
def bayLevel (retakeClass : Nat) : Nat := if retakeClass = 0xFF then 2 else retakeClass - 1

/-- A backward binding has ended its pass: it wrote one slice for the tint. -/
def State.endBackward (s : State) (t level : Nat) : State :=
  s.addSlice t ((s.tintOf t).train.cur.retaken || decide (1 ≤ level))

/-- Live samples of a tint's batch. -/
def State.liveSamples (s : State) (t : Nat) : List ItemKey :=
  (s.tintOf t).train.cur.samples.filter fun k => match s.item? k with | some i => i.done.isNone | none => false

/-- Every sample of a closed batch has ended its last pass (R331). -/
def State.passesDone (s : State) (t : Nat) : Bool :=
  (s.tintOf t).train.cur.closed && (s.liveSamples t).all fun k => match s.item? k with
    | some i => decide (i.segs ≠ 0) && decide (i.passes ≤ i.stage)
    | none => true

/-- A batch whose passes have ended goes on to its step; with no target, or skipped, it takes none (R334, R335). -/
def State.closePasses (s : State) (t : Nat) : State :=
  let b := (s.tintOf t).train.cur
  if b.phase ≠ .joining || !s.passesDone t then s
  else s.modBatch t fun (b : Batch) => { b with phase := if b.targets = 0 || (s.liveSamples t).isEmpty || b.skip ≠ 0 then .ready else .pass1 }

/-! ### Steps that become visible (R35, R322, R326, R331, R339, R357) -/

/-- A sample completes (R326, R385); a replayed one only leaves. -/
def State.endSample (s : State) (k : ItemKey) (status gen : Nat) : State :=
  match s.item? k with
  | none => s
  | some i =>
    let st := if i.late && status < 4 then St.late else status
    if k.replayed then { s with items := s.items.filter fun e => e.1 ≠ k }
    else s.deliver k st (resultOf (leBytes 2 gen ++ leBytes 2 (s.tintOf i.tTint).train.cleanGen.toNat ++ leBytes 4 i.aux)) 0 []

/-- Samples of the tint that wait for a batch, in order of observation. -/
def State.waitingSamples (s : State) (t : Nat) : List ItemKey :=
  s.openItems fun k i => i.op = 3 && i.tTint = t && k.set = (s.tintOf t).owner && i.phase = .waiting && !(s.tintOf t).train.cur.samples.contains k

/-- The next batch is open: samples that waited for it join (R322). -/
def State.openNext (s : State) (t : Nat) : State :=
  let x := s.tintOf t
  let s := s.setTint t { x with train.openBatch := x.train.openBatch + 1, train.cur := Batch.init }
  (s.waitingSamples t).foldl (fun (s : State) k => s.takeIn k) s

/-- The watch's part of a step (R339): the scale, and the two counts. -/
def Training.watch (x : Training) (exc : Bool) : Training :=
  if exc then
    { x with sigma := if (f32v x.sigma).cmp (f32v 0x37800000) ≤ 0 then 0x37800000 else (fmul x.sigma 0x3F000000).1, clean := 0, excursions := x.excursions + 1 }
  else if 64 ≤ x.clean + 1 then
    { x with sigma := if (f32v x.sigma).cmp (f32v 0x3F000000) < 0 then (fmul x.sigma 0x40000000).1 else 0x3F800000, clean := 0, excursions := 0 }
  else { x with clean := x.clean + 1, excursions := 0 }

/-- Engine-ready tiles of a HOT tint's slot are those of its home copies. -/
def State.refreshSlot (s : State) (t : Nat) : State :=
  let x := s.tintOf t
  if x.state ≠ .hot then s
  else x.hotTiles.foldl (fun (s : State) e =>
    let h := matrixTile e.1.handle (s.compShapes e.1) e.2
    match s.hotTileAt t e.1 e.2 with
    | some a =>
      let (r, k) := tileShape (s.compShapes e.1) e.2
      s.writeF a (readyTile e.1.fmt e.1.blk r k h.1 h.2 s.fnNat ((s.objTiles h.1).getD h.2 []))
    | none => s) s

/-- In a full-parameter run the plate's layers are those of their objects: it counts as modified, with their digests; a resident
layer's tier F copy follows (R344, R345). -/
def State.refreshPlate (s : State) (t : Nat) : State :=
  match s.plate.plate with
  | none => s
  | some p =>
    if !(s.tintOf t).full then s
    else
      let ls := p.layers.zipIdx.map fun (e : PlatePart × Nat) =>
        let ts := s.objTiles (32 * 67108864 + 2 * e.2)
        { e.1 with data := ts, digest := sha512 ts.flatten }
      let s := { s with plate := { s.plate with plate := some { p with layers := ls, modified := true } } }
      if p.resident then
        (ls.foldl (fun (a : State × Nat) x => (a.1.layPart a.2 x, a.2 + x.readyBytes)) (s, s.tiers.resBase.1 * 16777216)).1
      else s

/-- Next copies become home (R357). -/
def State.installNext (s : State) (t : Nat) : State :=
  let s := (s.tintOf t).train.cur.next.foldl (fun (s : State) e => match s.obj e.1 with
    | some o => s.setObj e.1 (some { o with tiles := e.2, written := s.tbm.fn })
    | none => s) s
  (s.refreshSlot t).refreshPlate t

/-- A batch's descriptors as the replay log keeps them (R341). -/
def State.batchLog (s : State) (t : Nat) : List Replayed :=
  (s.liveSamples t).filterMap fun k => (s.item? k).map fun i => { raw := i.raw, targets := i.aux, ids := i.ids }

/-- A step becomes visible, or its skip does, at a tick that begins reel position 0 (R35, R326, R331, R334, R335, R339, R357). -/
def State.visibleStep (s : State) (t : Nat) : State :=
  let x := s.tintOf t
  let b := x.train.cur
  if b.phase ≠ .ready || x.writeThrough ≠ 0 then s
  else
    let live := s.liveSamples t
    let none_ := b.targets = 0 || live.isEmpty
    let skip := b.skip ≠ 0
    let takes := !none_ && !skip
    let s := if takes then s.installNext t else s
    let s := s.freeSlices t
    let x := s.tintOf t
    let gen := if takes then x.gen + 1 else x.gen
    let tr := if none_ then x.train else x.train.watch b.excursion
    let every := fld (b.params.getD 0) 48 16
    let tr := if takes then
        { tr with k := tr.k + 1, steps := tr.steps + 1, stepFn := some b.pass2End, snapDue := tr.snapDue || (tr.steps + 1) % max 1 every = 0,
                  replay := (tr.replay.filter fun e => e.1 ≠ tr.openBatch) ++ [(tr.openBatch, gen, b.params.getD 0, s.batchLog t)] }
      else tr
    let s := s.setTint t { x with gen := gen, train := tr }
    let s := if b.excursion && !none_ then s.event x.owner 4 0 t 0 gen.toNat tr.sigma.toNat else s
    let st := if skip || b.retaken then St.retaken else St.ok
    let s := live.foldl (fun (s : State) k => s.endSample k st gen.toNat) s
    s.openNext t

/-! ### Snapshots (R340, R341) -/

/-- Parameter and statistics objects of a tint. -/
def State.tintHandles (s : State) (t : Nat) : List Nat := (s.matrices t).flatMap fun m => [m.param, m.stats]

/-- Room in a tier for a snapshot of a tint. -/
def State.snapRoom (s : State) (t : Nat) (tier : Tier) : Bool :=
  let p := (s.tintOf t).owner
  let hs := s.tintHandles t
  match tier with
  | .h => decide (s.hUsed p + (hs.map fun h => match s.obj h with | some o => o.tiles.length * (o.tileBytes + 64) | none => 0).sum ≤ s.hSize p) && s.hSize p ≠ 0
  | _ =>
    let n := (hs.map fun h => match s.obj h with | some o => o.bytes | none => 0).sum
    s.sRoom p (2 * n) && !(s.stacksWith n).isEmpty

/-- A snapshot is not taken for lack of room (R340). -/
def State.snapFail (s : State) (t : Nat) : State :=
  let x := s.tintOf t
  let s := s.setTint t { x with train.snapFailed := true, train.snapDue := false }
  (s.trainLog t 6 0).event x.owner 11 0 t 0 x.gen.toNat 0

/-- A snapshot is taken: its objects hold the tint's present tiles and move to their tier in the owner's MIGRATE cues. Its handle,
or none where it has no room. -/
def State.takeSnapshot (s : State) (t : Nat) (tier : Tier) (auto : Bool) : State × Option Nat :=
  let x := s.tintOf t
  if !s.snapRoom t tier then (s.snapFail t, none)
  else
    let hs := s.tintHandles t
    let (nums, s) := s.newHandles x.owner (hs.length + 1)
    let snap := nums.headD 0
    let (stack, s) := s.chooseStack (hs.map fun h => match s.obj h with | some o => o.bytes | none => 0).sum
    let s := (hs.zip (nums.drop 1)).foldl (fun (s : State) e => match s.obj e.1 with
      | some o =>
        let m : Move := { target := tier, stack := stack, copied := 0, mirror := false }
        s.setObj e.2 (some { o with kind := .snapshot, of := snap, home := .s, mirror := none, written := s.tbm.fn, move := some m })
      | none => s) s
    let y : Snap := { handle := snap, gen := x.gen, sigma := x.train.sigma, counts := (x.train.clean, x.train.excursions), batch := x.train.openBatch,
                      k := x.train.k, data := hs.map fun h => (h, s.objTiles h), copied := false, auto := auto, frame := x.train.stepFn,
                      units := x.train.units, tier := tier }
    (s.setTint t { x with train.snaps := x.train.snaps ++ [y], train.snapFailed := false, train.snapDue := false }, some snap)

/-- Tier that a placement word names for a snapshot, and whether it is named strictly (R231, R232). -/
def State.snapPlace (s : State) (p w : Nat) : Tier × Bool :=
  if plMode w = 1 then (if plTier w = 2 then .h else .s, true)
  else if plMode w = 2 && plHint w = 3 && s.hSize p ≠ 0 then (.h, false)
  else (.s, false)

/-- A pending SNAPSHOT descriptor acts: under a hint, tier S stands in for tier H where there is no room (R233, R340). -/
def State.actSnapshot (s : State) (k : ItemKey) : State :=
  match s.item? k with
  | none => s
  | some i =>
    let t := i.field 0x10 2
    let (tier, strict) := s.snapPlace k.set (i.field 0x14 4)
    let tier := if !strict && tier = .h && !s.snapRoom t .h then .s else tier
    match s.takeSnapshot t tier false with
    | (s, some h) => s.modItem k fun (i : Item) => { i with phase := .busy, aux := h }
    | (s, none) => s.finish k St.notPermitted

/-- SNAPSHOT (R231-R233, R340): at once if no batch is in flight, else at the next generation that becomes visible. -/
def execSnapshot (k : ItemKey) (s : State) : Out :=
  match s.fresh k 0x28 with
  | none => .next s
  | some i =>
    let t := i.field 0x10 2
    let w := i.field 0x14 4
    let x := s.tintOf t
    if plMode w = 1 && plTier w = 0 then .next (s.finish k St.badDescriptor)
    else if !s.registered k.set t then .next (s.finish k St.notPermitted)
    else if x.state = .withdrawing then .next (s.finish k St.tintWithdrawn)
    else if plMode w = 1 && plTier w = 2 && s.hSize k.set = 0 then .next (s.finish k St.notPermitted)
    else
      let s := s.setTint t { x with train.snapTier := (s.snapPlace k.set w).1 }
      if x.train.cur.inFlight then
        .next ((s.setTint t { s.tintOf t with train.snapItems := x.train.snapItems ++ [k] }).setPhase k .waiting)
      else .next (s.actSnapshot k)

/-- SNAPSHOT descriptors that wait for a visible generation act. -/
def State.dueSnapshots (s : State) (t : Nat) : State :=
  let ks := (s.tintOf t).train.snapItems
  let s := s.setTint t { s.tintOf t with train.snapItems := [] }
  ks.foldl (fun (s : State) k => match s.item? k with
    | some i => if i.done.isSome then s else s.actSnapshot k
    | none => s) s

/-- AUTO_SNAPSHOT (R340): the tick at which every snap_n-th step becomes visible. -/
def execAutoSnapshot (t : Nat) (s : State) : Out :=
  let x := s.tintOf t
  if !x.train.snapDue || x.state = .free || x.state = .withdrawing || s.saf.safe then .next s
  else
    let tier := if x.train.snapTier = .h && !s.snapRoom t .h then .s else x.train.snapTier
    .next (s.takeSnapshot t tier true).1

/-- Every object of a snapshot stands where it was to go. -/
def State.snapCopied (s : State) (p handle : Nat) : Bool :=
  s.tiers.objs.all fun e => match e.2 with
    | some o => !(o.kind = .snapshot && o.of = handle && e.1 / 67108864 = p) || o.move.isNone
    | none => true

/-- SNAPSHOT_COPY_DONE (R340): the copies of a tint's snapshots that have ended stand. -/
def execSnapshotCopyDone (t : Nat) (s : State) : Out :=
  let x := s.tintOf t
  let now := x.train.snaps.filter fun y => !y.copied && s.snapCopied x.owner y.handle
  if now.isEmpty || s.saf.safe then .next s
  else
    let hs := now.map fun y => y.handle
    let s := s.setTint t { x with train.snaps := x.train.snaps.map fun (y : Snap) => if hs.contains y.handle then { y with copied := true } else y }
    .next (now.foldl (fun (s : State) y =>
      (s.openItems fun k i => k.set = x.owner && i.op = 0x28 && i.phase = .busy && i.aux = y.handle).foldl
        (fun (s : State) k => s.finish k St.ok (resultOf (leBytes 4 y.handle ++ leBytes 2 y.gen.toNat))) s) s)

/-- A frame lies before every active array's last passing check, and every unit's of a mask (R341). -/
def State.checkedAfter (s : State) (fn : BitVec 32) (units : BitVec 32) (strict : Bool) : Bool :=
  let after := fun (p : BitVec 32) => fnLe fn p && (!strict || p ≠ fn)
  ((List.range 2560).all fun g => match Sparse.get (fun _ => none) s.grid.pass g with | some p => after p | none => false) &&
    (List.range 32).all fun u => !bitOf units u || match s.vec.katPass.getD u none with | some p => after p | none => false

/-- A snapshot's generation is clean (R341); one that no step on this device made has nothing to check. -/
def State.genClean (s : State) (y : Snap) : Bool :=
  match y.frame with
  | none => true
  | some fn => s.checkedAfter fn y.units true

/-- The newest clean snapshot of a tint, if it has one. -/
def State.cleanSnap (s : State) (t : Nat) : Option Snap :=
  ((s.tintOf t).train.snaps.filter fun y => y.copied && s.genClean y).getLast?

/-- The tint's newest clean snapshot advances (R341): older automatic ones are freed, and the replay log begins after it. -/
def State.advanceClean (s : State) (t : Nat) : State :=
  match s.cleanSnap t with
  | none => s
  | some y =>
    let x := s.tintOf t
    let old := x.train.snaps.takeWhile fun z => z.handle ≠ y.handle
    let gone := (old.filter fun z => z.auto).map fun z => z.handle
    let s := s.freeObjs fun h o => o.kind = .snapshot && gone.contains o.of && h / 67108864 = x.owner
    let s := s.setTint t { s.tintOf t with
      train.snaps := x.train.snaps.filter fun z => !gone.contains z.handle
      train.replay := x.train.replay.filter fun e => decide (0 ≤ sdiff y.batch e.1)
      train.cleanGen := y.gen }
    if x.train.cleanGen = y.gen then s else s.event x.owner 6 0 t 0 y.gen.toNat 0

/-! ### Restore and rollback (R342) -/

/-- Passes of a tint in flight are abandoned: its samples return to pending as they were posted, its slices and next copies go. -/
def State.abandonPasses (s : State) (t : Nat) : State :=
  let b := (s.tintOf t).train.cur
  let s := (s.abandonCmds t).freeSlices t
  let s := b.samples.foldl (fun (s : State) k => s.modItem k fun (i : Item) =>
    if i.done.isSome then i else { i with phase := .waiting, layers := 0, stage := 0, segs := 0, suspect := false }) s
  s.setTint t { s.tintOf t with writeThrough := 0, train.cur := Batch.init }

/-- RESTORE (R342): a copied snapshot of the tint; it takes effect at the next tick that begins reel position 0. -/
def execRestore (k : ItemKey) (s : State) : Out :=
  match s.fresh k 0x29 with
  | none => .next s
  | some i =>
    let t := i.field 0x10 2
    let h := i.field 0x14 4
    let x := s.tintOf t
    if !s.registered k.set t then .next (s.finish k St.notPermitted)
    else if x.state = .withdrawing then .next (s.finish k St.tintWithdrawn)
    else if !(x.train.snaps.any fun y => y.handle = h && y.copied) then .next (s.finish k St.notPermitted)
    else .next ((s.setTint t { x with train.restore := some (h, false), train.replay := [] }).modItem k fun (i : Item) =>
      { i with phase := .waiting, aux := h })

/-- Batches of the replay log re-enter as samples of no ring (R342). -/
def State.replayBatches (s : State) (t : Nat) : State :=
  let x := s.tintOf t
  let entries := x.train.replay.flatMap fun e => e.2.2.2
  let s := (entries.zipIdx).foldl (fun (s : State) (e : Replayed × Nat) =>
    let k : ItemKey := { set := x.owner, sq := 16 + t, idx := e.2 }
    let i : Item := {
      raw := e.1.raw, obs := s.tbm.tb, order := obsOrder s.now 0 s.observed, phase := .waiting, done := none, returns := 0, late := false, reloaded := false,
      retaken := false, layers := 0, eligible := some s.tbm.fn, heldFrom := 0, aux := e.1.targets, segs := 0, stage := 0, lastFn := 0, firstFn := 0, units := 0, suspect := false,
      ids := e.1.ids, shape := none }
    { s with items := s.items ++ [(k, i)], observed := s.observed + 1 }) s
  x.train.replay.foldl (fun (s : State) e => (s.trainLog t 5 e.1.toNat).event x.owner 8 0 t 0 e.2.1.toNat e.1.toNat) s

/-- A restore takes effect at a tick that begins reel position 0 (R342): the snapshot's state becomes a new generation. -/
def State.applyRestore (s : State) (t : Nat) : State :=
  match (s.tintOf t).train.restore with
  | none => s
  | some (h, replay) =>
    match (s.tintOf t).train.snaps.find? fun y => y.handle = h with
    | none => s.setTint t { s.tintOf t with train.restore := none }
    | some y =>
      let s := s.abandonPasses t
      let s := { s with items := s.items.filter fun e => !(e.1.sq = 16 + t && e.1.set = (s.tintOf t).owner) }
      let s := y.data.foldl (fun (s : State) e => match s.obj e.1 with
        | some o => s.setObj e.1 (some { o with tiles := e.2, written := s.tbm.fn })
        | none => s) s
      let x := s.tintOf t
      let tr := { x.train with restore := none, sigma := y.sigma, clean := y.counts.1, excursions := y.counts.2, k := y.k, openBatch := y.batch, stepFn := y.frame }
      let s := s.setTint t { x with gen := x.gen + 1, train := tr }
      let s := (s.refreshSlot t).refreshPlate t
      let ks := s.openItems fun k i => k.set = x.owner && i.op = 0x29 && i.phase = .waiting && i.field 0x10 2 = t
      let s := ks.foldl (fun (s : State) k => match s.item? k with
        | some i => s.finish k (if i.aux = h && !replay then St.ok else St.aborted)
        | none => s) s
      let s := if replay then s.replayBatches t else s
      (s.waitingSamples t).foldl (fun (s : State) k => s.takeIn k) s

/-- ROLLBACK (R342): at the tick after a check failure an affected tint's passes are abandoned and it is restored from its newest
clean snapshot, with its replay log; automatic snapshots newer than that one hold what is computed anew, and are freed. With no
clean snapshot there is nothing to restore. -/
def execRollback (t : Nat) (s : State) : Out :=
  let x := s.tintOf t
  if !x.train.affected || s.saf.safe then .next s
  else
    let s := (s.setTint t { x with train.affected := false }).abandonPasses t
    match s.cleanSnap t with
    | none => .next ((s.waitingSamples t).foldl (fun (s : State) k => s.takeIn k) s)
    | some y =>
      let newer := ((x.train.snaps.dropWhile fun z => z.handle ≠ y.handle).drop 1).filter fun z => z.auto
      let gone := newer.map fun z => z.handle
      let s := s.freeObjs fun h o => o.kind = .snapshot && gone.contains o.of && h / 67108864 = x.owner
      let s := s.setTint t { s.tintOf t with train.restore := some (y.handle, true), train.snaps := x.train.snaps.filter fun z => !gone.contains z.handle }
      .next ((s.trainLog t 4 y.handle).event x.owner 7 0 t 0 (x.gen + 1).toNat y.handle)

/-! ### Checked delivery, holds and pauses -/

/-- COMPLETION_RELEASE (R343): the first tick at which every active array and every unit of the item has passed a check at or after
its last frame. -/
def execCompletionRelease (k : ItemKey) (s : State) : Out :=
  match s.item? k with
  | some i =>
    if i.phase = .held && s.checkedAfter i.lastFn i.units false && !s.saf.safe then .next (s.setPhase k .done) else .next s
  | none => .next s

/-- RETAKE_HOLD (R337): the eighth retaken pass in a row of a layer holds the tint at the level of that retake. -/
def execRetakeHold (t layer level : Nat) (s : State) : Out :=
  let x := s.tintOf t
  if !(x.train.retakes.any fun e => e.1 = layer && e.2.1 = level && decide (8 ≤ e.2.2)) || x.train.hold = some level || s.saf.safe then .next s
  else
    let s := s.setTint t { x with train.hold := some level }
    .next ((s.trainLog t 1 level).event x.owner 2 level t layer x.gen.toNat 0)

/-- TRAINING_PAUSE (R326, R339): pending samples end with NOT_PERMITTED, in their order of observation, up to one that carries resume: it
clears the pause. -/
def execTrainingPause (t : Nat) (s : State) : Out :=
  let x := s.tintOf t
  if x.train.excursions < 16 || x.train.paused || s.saf.safe then .next s
  else
    let s := s.setTint t { x with train.paused := true }
    let s := (s.trainLog t 3 0).event x.owner 5 0 t 0 x.gen.toNat 0
    let pend := s.openItems fun k i => k.set = x.owner && i.op = 3 && i.tTint = t && i.phase = .waiting
    let resumes := fun k => match s.item? k with | some i => blockResume i.tBlock | none => false
    let s := (pend.takeWhile fun k => !resumes k).foldl (fun (s : State) k => s.finish k St.notPermitted) s
    .next (if pend.any resumes then s.setTint t { s.tintOf t with train := (s.tintOf t).train.resume } else s)

end Sys2Proof.Machine
end

