-- ==== Sys2Proof/Machine/Rings.lean ====
section
/-! DEFINITION. The rings of the host interface (R371-R397): enabling and disabling them, doorbell observations, fetching and checking
descriptors, completion records and wake words. -/

namespace Sys2Proof.Machine

/-! ### Pointers and shares -/

/-- A pointer's place on a ring of `2^k` entries, over both phases (R372): it starts at 0 and counts modulo `2^(k+1)`. -/
def RingPtr.lin (p : RingPtr) (k : Nat) : Nat := p.index.toNat + (if p.phase then 0 else 2 ^ k)

/-- Entries from one pointer up to another (R372). -/
def ringDist (k : Nat) (a b : RingPtr) : Nat := (b.lin k + 2 * 2 ^ k - a.lin k) % (2 * 2 ^ k)

/-- The pointer past an entry: past the last entry the phase inverts (R372). -/
def RingPtr.next (p : RingPtr) (k : Nat) : RingPtr :=
  if p.index.toNat + 1 < 2 ^ k then { index := p.index + 1, phase := p.phase } else { index := 0, phase := !p.phase }

/-- Base of the registers of ring `r` of a set: 0-15 SQs, 16-31 CQs (R397). -/
def ringKey (set r : Nat) : Nat := 0xA2000 + 0x400 * set + 0x20 * r

/-- The ring's k: log2 of its entries. -/
def State.ringLog (s : State) (set r : Nat) : Nat := s.regFld (ringKey set r + 0x10) (if r < 16 then 2 else 3) 5

/-- Host address of a ring. -/
def State.ringBase (s : State) (set r : Nat) : Nat := (s.reg64 (ringKey set r) (ringKey set r + 4)).toNat

/-- Doorbell line (host address over 64) and word of a ring (R373). -/
def State.ringLine (s : State) (set r : Nat) : Nat := (s.reg64 (ringKey set r + 8) (ringKey set r + 0xC)).toNat / 64
def State.ringWord (s : State) (set r : Nat) : Nat := s.regFld (ringKey set r + 8) 2 4

/-- Watch share of a set: the manager set keeps 16 lines (R400). -/
def State.watchShare (s : State) (set : Nat) : Nat := if set = 32 then 16 else (s.ringSet set).watches

/-- Pending share of a set: the manager set keeps 1,024 entries (R400). -/
def State.pendShare (s : State) (set : Nat) : Nat := if set = 32 then 1024 else (s.ringSet set).pend

/-- SQ and CQ of a set. -/
def RingSet.sqOf (x : RingSet) (n : Nat) : SubRing := x.sq.getD n SubRing.init
def RingSet.cqOf (x : RingSet) (n : Nat) : CompRing := x.cq.getD n CompRing.init

/-- Changes an SQ of a set. -/
def State.setSq (s : State) (set n : Nat) (x : SubRing) : State :=
  s.setRingSet set { s.ringSet set with sq := (s.ringSet set).sq.set n x }

/-- Changes a CQ of a set. -/
def State.setCq (s : State) (set n : Nat) (x : CompRing) : State :=
  s.setRingSet set { s.ringSet set with cq := (s.ringSet set).cq.set n x }

/-- A ring watches its doorbell word: it is enabled. -/
def RingMode.watches : RingMode → Bool
  | .off => false
  | _ => true

/-- Distinct lines that a set watches (R373). -/
def State.linesOf (s : State) (set : Nat) : List Nat :=
  dedup (((List.range 32).filter fun r => (s.ringMode set r).watches).map fun r => s.ringLine set r)

/-- QUE_STATUS bits of a set. -/
def State.ringErr (s : State) (set : Nat) : State := s.raise (queStatusKey set) 0
def State.queCfgErr (s : State) (set : Nat) : State := s.raise (queStatusKey set) 4

/-! ### Enabling and disabling (R371-R374, R397) -/

/-- The line of a ring would exceed its set's watch share, or the device's 1,024 lines (R373). -/
def State.watchFull (s : State) (set r : Nat) : Bool :=
  let ls := s.linesOf set
  let l := s.ringLine set r
  !ls.contains l && (decide (s.watchShare set ≤ ls.length) ||
    decide (1024 ≤ (dedup ((List.range 33).flatMap s.linesOf)).length))

/-- The word of a ring's doorbell is taken as not yet changed: it holds the pointer (0, 1). -/
def State.freshWord (s : State) (set r : Nat) : State :=
  s.setRingSet set { s.ringSet set with
    lastRead := Sparse.set (fun _ => 0x10000) (s.ringSet set).lastRead (16 * s.ringLine set r + s.ringWord set r) 0x10000 }

/-- A write of en = 1 to a ring that is enabled: en stays, and other fields are not writable (R397). -/
def State.rewriteCfg (s : State) (set r : Nat) (v : Word) : State :=
  if s.ringCfg set r v = some (s.reg (ringKey set r + 0x10)) then s else s.queCfgErr set

/-- SQ_ENABLE (R371-R373, R397): QUE_SQn_CFG is written with en = 1. -/
def execSqEnable (set n : Nat) (v : Word) (s : State) : Out :=
  if 32 < set || 15 < n || s.saf.safe then .next s
  else
    let v := v ||| 1
    match (s.ringSet set).sqOf n |>.mode with
    | .draining => .next (s.queCfgErr set)
    | .on | .halted => .next (s.rewriteCfg set n v)
    | .off =>
      match s.ringCfg set n v with
      | none => .next (s.queCfgErr set)
      | some w =>
        if s.watchFull set n then .next (s.queCfgErr set)
        else
          let s := (s.setReg (sqCfgKey set n) (w &&& 0x7F)).freshWord set n
          .next (s.setSq set n { SubRing.init with mode := .on })

/-- Items of an SQ in the pending store. -/
def State.sqItems (s : State) (set n : Nat) : Bool := s.items.any fun e => e.1.set = set && e.1.sq = n

/-- SQ_DISABLE (R396, R397): en is written 0; the ring drains, and is OFF at once where nothing of it is pending. -/
def execSqDisable (set n : Nat) (s : State) : Out :=
  let x := (s.ringSet set).sqOf n
  if 32 < set || 15 < n || x.mode = .off || x.mode = .draining then .next s
  else
    let s := s.setFld (sqCfgKey set n) 0 1 0
    .next (s.setSq set n { x with mode := if s.sqItems set n then .draining else .off, seen := [] })

/-- SQ_DRAIN_DONE (R396): the last descriptor of a draining ring has completed. -/
def execSqDrainDone (set n : Nat) (s : State) : Out :=
  let x := (s.ringSet set).sqOf n
  if x.mode = .draining && !s.sqItems set n then .next (s.setSq set n { x with mode := .off }) else .next s

/-- CQ_ENABLE (R372, R373, R397): QUE_CQn_CFG is written with en = 1. A CQ names a doorbell line as an SQ does. -/
def execCqEnable (set n : Nat) (v : Word) (s : State) : Out :=
  if 32 < set || 15 < n || wakeReserved (16 + n) v then .next s
  else
    let v := v ||| 1
    let r := 16 + n
    match (s.ringSet set).cqOf n |>.mode with
    | .on | .halted | .draining => .next (s.rewriteCfg set r v)
    | .off =>
      match s.ringCfg set r v with
      | none => .next (s.queCfgErr set)
      | some w =>
        if s.watchFull set r then .next (s.queCfgErr set)
        else
          let s := (s.setReg (cqCfgKey set n) (w &&& 0xFF)).freshWord set r
          .next (s.setCq set n { CompRing.init with mode := .on })

/-- CQ that a descriptor names. -/
def Item.cq (i : Item) : Nat := i.field 2 2 % 16

/-- A pending descriptor names the CQ. -/
def State.cqNamed (s : State) (set n : Nat) : Bool := s.items.any fun e => e.1.set = set && e.2.cq = n && !e.1.replayed

/-- CQ_DISABLE (R397): en is written 0; while a pending descriptor names the CQ the write is ignored. -/
def execCqDisable (set n : Nat) (s : State) : Out :=
  let x := (s.ringSet set).cqOf n
  if 32 < set || 15 < n || x.mode = .off then .next s
  else if s.cqNamed set n then .next (s.queCfgErr set)
  else .next ((s.setFld (cqCfgKey set n) 0 1 0).setCq set n { x with mode := .off })

/-! ### Doorbells (R373-R377, R387) -/

/-- The word spells a pointer of a ring of `2^k` entries (R373, R377). -/
def ptrWord (v : Word) (k : Nat) : Option RingPtr :=
  if fld v 17 15 = 0 && decide (fld v 0 16 < 2 ^ k) then some { index := BitVec.ofNat 16 (fld v 0 16), phase := bitOf v 16 } else none

/-- The set as an owner of the log: a partition, or the device. -/
def setOwner (set : Nat) : Nat := if set < 32 then set else 0xFF

/-- A ring halts (R377): 0-15 SQs, 16-31 CQs. -/
def State.haltRing (s : State) (set r : Nat) : State :=
  let s := if r < 16 then s.setSq set r { (s.ringSet set).sqOf r with mode := .halted, seen := [] }
    else s.setCq set (r - 16) { (s.ringSet set).cqOf (r - 16) with mode := .halted }
  (s.ringErr set).logUnit 0x0703 (setOwner set) 0xFF 0 [r]

/-- Occupancy of a set's pending store. -/
def State.pendUsed (s : State) (set : Nat) : Nat := (s.items.filter fun e => e.1.set = set).length

/-- While a set's pending store is full none of its rings is fetched: what waits is deferred, and takes the time of its fetch (R376, R378). -/
def State.deferFetches (s : State) (set : Nat) : State :=
  let x := s.ringSet set
  if s.pendUsed set < s.pendShare set || !(x.sq.any fun (q : SubRing) => !q.seen.isEmpty) then s
  else (s.setRingSet set { x with sq := x.sq.map fun (q : SubRing) => { q with seen := q.seen.map fun e => (e.1, none) } }).raise (queStatusKey set) 3

/-- A changed word of an enabled ring is its new pointer (R374-R377). -/
def State.takeWord (s : State) (set r : Nat) (v : Word) : State :=
  let k := s.ringLog set r
  if r < 16 then
    let x := (s.ringSet set).sqOf r
    if x.mode ≠ .on then s
    else match ptrWord v k with
    | none => s.haltRing set r
    | some t => if 2 ^ k < ringDist k x.head t then s.haltRing set r
        else (s.setSq set r { x with tail := t, seen := x.seen ++ [(t, some s.tbm.tb)] }).deferFetches set
  else
    let x := (s.ringSet set).cqOf (r - 16)
    if x.mode ≠ .on then s
    else match ptrWord v k with
    | none => s.haltRing set r
    | some h => s.setCq set (r - 16) { x with head := h }

/-- The word of one ring on an observed line is compared with the value last read (R374). -/
def State.compareWord (s : State) (line : Nat) (words : List Word) (set r : Nat) : State :=
  if !(s.ringMode set r).watches || s.ringLine set r ≠ line then s
  else
    let w := s.ringWord set r
    let v := words.getD w 0
    let key := 16 * line + w
    if v = Sparse.get (fun _ => 0x10000) (s.ringSet set).lastRead key then s
    else
      let x := s.ringSet set
      (s.setRingSet set { x with lastRead := Sparse.set (fun _ => 0x10000) x.lastRead key v }).takeWord set r v

/-- DOORBELL_OBSERVED (R41-R43, R374-R377): the line (host address over 64) is invalidated and re-read. In the safe state a CQ's head
is still taken. -/
def execDoorbellObserved (line : Nat) (words : List Word) (s : State) : Out :=
  .next (s.each (List.range 33) fun s set => s.each (List.range 32) fun s r => s.compareWord line words set r)

/-! ### Descriptors (R378-R381, R545) -/

/-- Bytes of a body that its opcode lists, as (offset, size) (Table 13.5). -/
def bodyFields : Nat → Option (List (Nat × Nat))
  | 0x01 => some [(0x10, 2), (0x14, 4), (0x18, 4), (0x1C, 1), (0x20, 8)]
  | 0x02 => some [(0x10, 2), (0x14, 4), (0x18, 4), (0x1C, 4), (0x20, 8), (0x28, 8), (0x30, 1)]
  | 0x03 => some [(0x10, 2), (0x12, 2), (0x14, 4), (0x18, 8), (0x20, 8), (0x28, 16)]
  | 0x10 => some [(0x10, 2), (0x18, 8), (0x20, 8), (0x28, 8)]
  | 0x11 => some [(0x10, 2), (0x12, 2), (0x14, 2)]
  | 0x12 => some [(0x10, 2), (0x12, 1)]
  | 0x13 => some [(0x10, 2)]
  | 0x14 => some [(0x10, 2)]
  | 0x18 => some [(0x10, 2), (0x12, 2), (0x14, 4)]
  | 0x19 => some [(0x10, 2)]
  | 0x20 => some [(0x10, 1), (0x11, 1), (0x12, 1), (0x18, 8), (0x20, 32)]
  | 0x21 => some [(0x10, 4), (0x14, 4), (0x18, 2), (0x1A, 2), (0x1C, 1), (0x1D, 1), (0x1E, 2), (0x20, 8), (0x28, 1), (0x29, 1)]
  | 0x28 => some [(0x10, 2), (0x14, 4)]
  | 0x29 => some [(0x10, 2), (0x14, 4)]
  | 0x30 => some [(0x10, 1), (0x11, 1), (0x18, 8)]
  | 0x38 => some [(0x10, 1)]
  | 0x39 => some [(0x10, 1), (0x18, 8), (0x20, 8)]
  | 0x3A => some [(0x10, 1), (0x18, 8), (0x20, 8)]
  | 0x40 => some [(0x10, 1), (0x14, 4), (0x18, 8), (0x20, 32)]
  | _ => none

/-- A placement word: no reserved code, and the fields of a mode that is not its own zero (R231, R545). -/
def placementOk (w : Nat) (sessions : Bool) : Bool :=
  let m := plMode w
  m ≠ 3 && decide (w / 1048576 = 0) && (if m = 1 then plTier w ≠ 3 else plTier w = 0) &&
    (if m = 2 then decide (plHint w ≤ 3) else plHint w = 0) && (sessions || plExtents w = 0)

/-- The field is a partition number, or 0xFF (R381). -/
def Item.partOk (i : Item) : Bool := decide (i.field 0x10 1 < 32) || i.field 0x10 1 = 0xFF

/-- Codes, ranges, alignments and conditional fields of a body (Table 13.5, R12, R140, R231, R309, R545). -/
def Item.bodyOk (i : Item) : Bool :=
  let al := fun off a => i.field off 8 % a = 0
  match i.op with
  | 0x01 => placementOk (i.field 0x18 4) true && decide (1 ≤ i.field 0x1C 1) && decide (i.field 0x1C 1 ≤ 64) && al 0x20 64
  | 0x02 => placementOk (i.field 0x18 4) true && i.field 0x17 1 = 0 && decide (1 ≤ i.field 0x1C 4) && al 0x20 4 && al 0x28 64 &&
      decide (i.field 0x30 1 ≤ 64) && decide ((i.field 0x30 1 = 0) ↔ (i.field 0x28 8 = 0))
  | 0x03 => fld i.raw (8 * 0x14 + 25) 7 = 0 && al 0x18 4 && al 0x20 4
  | 0x10 => al 0x18 64 && al 0x28 64
  | 0x11 => i.field 0x12 2 ≠ 0xFFFF || i.field 0x14 2 = 0
  | 0x12 => decide (i.field 0x12 1 ≤ 1)
  | 0x18 => placementOk (i.field 0x14 4) true
  | 0x20 => decide (i.field 0x10 1 ≤ 63) && decide (i.field 0x11 1 ≤ 11) && al 0x18 64 &&
      fld i.raw (8 * 0x20 + fmtBits (i.field 0x11 1) * i.field 0x12 1) (256 - fmtBits (i.field 0x11 1) * i.field 0x12 1) = 0
  | 0x21 => decide (1 ≤ i.field 0x1C 1) && decide (i.field 0x1C 1 ≤ 4) && decide (i.field 0x1D 1 ≤ 1) && al 0x20 64
  | 0x28 => placementOk (i.field 0x14 4) false
  | 0x30 => decide (i.field 0x10 1 ≤ 1) && decide (4 ≤ i.field 0x11 1) && decide (i.field 0x11 1 ≤ 12) && al 0x18 4096
  | 0x38 => i.partOk
  | 0x39 => i.partOk && al 0x18 64
  | 0x3A => i.partOk && al 0x18 64
  | 0x40 => (i.field 0x10 1 = 1 || i.field 0x10 1 = 2) && al 0x18 64
  | _ => true

/-- Bytes of the body that the opcode does not list are zero (R381). -/
def Item.reservedOk (i : Item) (fields : List (Nat × Nat)) : Bool :=
  (List.range 48).all fun j =>
    let b := 0x10 + j
    i.field b 1 = 0 || fields.any fun f => decide (f.1 ≤ b) && decide (b < f.1 + f.2)

/-- The common header's reserved and conditional fields (Table 13.3). -/
def Item.headerOk (i : Item) : Bool :=
  decide (i.field 1 1 < 4) && decide (i.field 2 2 < 16) && decide (i.field 0x0E 1 ≤ 1) && i.field 0x0F 1 = 0 &&
    (bitOf i.raw 9 || i.field 8 4 = 0)

/-- Where Table 13.4 allows an opcode: on the set, and on the ring's kind. -/
def opAllowed (op set : Nat) (insertRing : Bool) : Bool :=
  (insertRing = (op = 0x20)) &&
    (if op = 0x30 ∨ op = 0x40 then true else if op = 0x38 ∨ op = 0x39 ∨ op = 0x3A then set = 32 else decide (set < 32))

/-- The checks of R380 in their order: the status of the first failure, and whether it is the stamp. -/
def Item.fetchCheck (i : Item) (set : Nat) (head : RingPtr) (insertRing : Bool) : Option Nat × Bool :=
  if i.field 0x0C 2 ≠ head.index.toNat || decide (i.field 0x0E 1 % 2 = 1) ≠ head.phase then (some St.badDescriptor, true)
  else match bodyFields i.op with
    | none => (some St.badDescriptor, false)
    | some fs =>
      if !i.headerOk || !i.reservedOk fs || !i.bodyOk then (some St.badDescriptor, false)
      else if !opAllowed i.op set insertRing then (some St.notPermitted, false)
      else (none, false)

/-- A fetched descriptor before its checks. -/
def Item.fetched (raw : BitVec 512) (obs : BitVec 64) (order : Nat) : Item :=
  { raw := raw, obs := obs, order := order, phase := .fetched, done := none, returns := 0, late := false, reloaded := false,
    retaken := false, layers := 0, eligible := none, heldFrom := 0, aux := 0, segs := 0, stage := 0, lastFn := 0, firstFn := 0, units := 0, suspect := false, ids := [], shape := none }

/-- The set's rings stopped fetching for good at a SAVE (R413). -/
def State.savedSet (s : State) (set : Nat) : Bool := decide (set < 32) && (s.part set).saved

/-- A ring has an entry to fetch, and its slot's previous descriptor has completed (R376, R378). -/
def State.fetchable (s : State) (set n : Nat) : Bool :=
  let x := (s.ringSet set).sqOf n
  x.mode = .on && x.head ≠ x.tail && !s.savedSet set && (s.item? { set := set, sq := n, idx := x.head.index.toNat }).isNone

/-- An insert ring whose descriptors can be fetched now: those are never queued behind other fetches (R376, R396). -/
def State.insertFirst (s : State) : Bool :=
  (List.range 32).any fun set => decide (s.pendUsed set < s.pendShare set) &&
    (List.range 16).any fun n => s.fetchable set n && s.regBit (sqCfgKey set n) 1

/-- DESCRIPTOR_FETCH (R12, R23, R372, R376, R378-R381, R395, R545): the descriptor at the head comes with the command, none where the
host has not answered. -/
def execDescriptorFetch (set sq : Nat) (bytes : Option Blob) (s : State) : Out :=
  let x := (s.ringSet set).sqOf sq
  if 32 < set || 15 < sq || s.saf.safe || !s.fetchable set sq then .next s
  else if !s.regBit (sqCfgKey set sq) 1 && s.insertFirst then .next s
  else if s.pendShare set ≤ s.pendUsed set then .next (s.deferFetches set)
  else match bytes with
    | none => .next s
    | some bs =>
      let k := s.ringLog set sq
      let obs := match x.seen.find? fun e => decide (ringDist k x.head e.1 ≠ 0) with | some e => e.2.getD s.tbm.tb | none => s.tbm.tb
      let raw := BitVec.ofNat 512 (leNat (bs.take 64))
      let first := if s.tbm.cpPassed && s.inFrames && !s.pastCp obs.toNat then some (s.tbm.fn + 1) else none
      let item := { Item.fetched raw obs (obsOrder obs.toNat sq s.observed) with eligible := first }
      let key : ItemKey := { set := set, sq := sq, idx := x.head.index.toNat }
      let head := x.head.next k
      let s := s.setSq set sq { x with head := head, seen := x.seen.filter fun e => e.1 ≠ head }
      let s := s.setTally set { s.tallyOf set with fetched := (s.tallyOf set).fetched + 1 }
      let s := { s with observed := s.observed + 1 }
      let (bad, stamp) := item.fetchCheck set x.head (s.regBit (sqCfgKey set sq) 1)
      let s := if stamp then s.raise (queStatusKey set) 1 else s
      if ((s.ringSet set).cqOf item.cq).mode = .off then .next (s.ringErr set)
      else
        let s := { s with items := s.items ++ [(key, item)] }.deferFetches set
        .next (match bad with | some e => s.finish key e | none => s)

/-! ### Completions (R384-R389, R395) -/

/-- Place of a status code among the codes of Table 13.8 in ascending order: where the dailies count it (R393). -/
def codeIndex (c : Nat) : Nat :=
  ([0, 1, 2, 3, 0x10, 0x11, 0x12, 0x13, 0x20, 0x21, 0x22, 0x23, 0x30, 0x31, 0x32].findIdx? fun x => decide (x = c)).getD 15

/-- The 32 bytes of a completion record (Table 13.6). -/
def completionBytes (k : ItemKey) (i : Item) (d : Done) (phase : Bool) (fn : Nat) : Blob :=
  leBytes 4 (i.field 4 4) ++ leBytes 1 d.status.toNat ++ leBytes 1 i.op ++ leBytes 1 d.info.toNat ++ leBytes 1 (b2n phase) ++
    leBytes 4 fn ++ leBytes 4 (k.idx + 65536 * k.sq) ++ leBytes 16 d.result.toNat

/-- The wake word of a CQ (R389). -/
def wakeBytes (tail : RingPtr) (fn : Nat) : Blob := leBytes 4 (tail.index.toNat + 65536 * b2n tail.phase) ++ leBytes 4 fn

/-- A CQ's wake mode asks for a wake write after this record (R389). -/
def State.wakes (s : State) (set n : Nat) (i : Item) : Bool :=
  match s.regFld (cqCfgKey set n) 1 2 with
  | 1 => bitOf i.raw 8
  | 2 => true
  | _ => false

/-- An item of the store may be written now: its completion is decided and not held; in the safe state, in order of
observation, as the CQ of each has space (R395). A descriptor that a SAVE captured gets its record elsewhere (R384, R407). -/
def State.writable (s : State) (k : ItemKey) (i : Item) : Bool :=
  i.phase = .done && i.done.isSome && (s.saf.safe || !(s.part k.set).captured.contains k) && (!s.saf.safe || s.items.all fun e =>
    e.1 = k || e.1.set ≠ k.set || e.2.cq ≠ i.cq || decide (i.order ≤ e.2.order) || e.1.replayed)

/-- Writes a record with its outputs before it and its wake word behind it, and removes the item (R386-R389). -/
def State.writeRecord (s : State) (k : ItemKey) (i : Item) (d : Done) : State :=
  let r := 16 + i.cq
  let x := (s.ringSet k.set).cqOf i.cq
  let n := s.ringLog k.set r
  let s := d.outs.foldl (fun (s : State) (e : Nat × Blob) => s.hostWrite e.1 e.2) s
  let s := s.hostWrite (s.ringBase k.set r + 32 * x.tail.index.toNat) (completionBytes k i d x.tail.phase s.fnNat)
  let tail := x.tail.next n
  let s := s.setCq k.set i.cq { x with tail := tail }
  let s := if s.wakes k.set i.cq i then
      s.hostWrite (s.reg64 (ringKey k.set r + 0x18) (ringKey k.set r + 0x1C)).toNat (wakeBytes tail s.fnNat) else s
  let t := s.tallyOf k.set
  let s := s.setTally k.set { t with completions := t.completions.modify (codeIndex d.status.toNat) (· + 1) }
  { s with items := s.items.filter fun e => e.1 ≠ k }

/-- COMPLETION_WRITE (R2, R3, R384-R389, R395): a replayed sample writes no record, and a CQ that its function's reset disabled takes none
(R515). -/
def execCompletionWrite (k : ItemKey) (s : State) : Out :=
  match s.item? k with
  | none => .next s
  | some i =>
    if !s.writable k i then .next s
    else if k.replayed then .next { s with items := s.items.filter fun e => e.1 ≠ k }
    else match i.done with
    | none => .next s
    | some d =>
      let x := (s.ringSet k.set).cqOf i.cq
      if x.mode = .off then .next { s with items := s.items.filter fun e => e.1 ≠ k }
      else if x.mode ≠ .on then .next s
      else if 2 ^ s.ringLog k.set (16 + i.cq) ≤ ringDist (s.ringLog k.set (16 + i.cq)) x.head x.tail then .next (s.raise (queStatusKey k.set) 2)
      else .next (s.writeRecord k i d)

/-! ### Dailies and UCL ports -/

/-- DAILIES_ARM (R392): the change waits for the next tick; one that was observed before the present frame's tick takes effect at once. -/
def execDailiesArm (k : ItemKey) (s : State) : Out :=
  match s.fresh k 0x30 with
  | none => .next s
  | some i =>
    let x := s.ringSet k.set
    let s := s.setRingSet k.set { x with dailies := { x.dailies with
      pending := some (decide (i.field 0x10 1 = 1), i.field 0x11 1, BitVec.ofNat 64 (i.field 0x18 8)) } }
    let s := if s.tbm.running && decide (i.obs.toNat < s.tbm.tLast.toNat) then s.armDailies k.set else s
    .next (s.finish k St.ok)

/-- UCL_PORT_FENCE (R366): the port failed its training, or replayed more than 1,024 flits in the frame; the next tick fences it. -/
def execUclPortFence (n : Nat) (s : State) : Out :=
  let p := s.uclPort n
  if 1 < n || p.grey then .next s else .next (s.setUcl n { p with failed := true })

/-- A UCL port is fenced at its tick (R366, Table 17.1): traffic moves to the other port; the loss of both is dangerous. -/
def State.fenceUcl (s : State) (n : Nat) (requested : Bool) : State :=
  let p := s.uclPort n
  if p.grey then s
  else
    let s := s.setUcl n { p with up := false, grey := true, failed := false }
    let s := s.logUnit 0x0701 0xFF 5 n [if requested then 3 else 5]
    let s := s.countFence 5 n 0xFF requested
    s.detect 0x0F (s.uclPort (1 - n)).grey 5 n

end Sys2Proof.Machine
end

