-- ==== Sys2Proof/Machine/Partitions.lean ====
section
/-! DEFINITION. Partitions (chapter 14, R398-R407, R412): pools and the commands of PRT_CMD, their effects at ticks, and freezing. -/

namespace Sys2Proof.Machine

/-- A wipe runs: every PRT command fails with STATE (R452). -/
def State.wiping (s : State) : Bool := s.sec.custody = .wiping

/-! ### Staging registers and pools (R400) -/

/-- A staging register of a partition. -/
def State.prtReg (s : State) (base p lo len : Nat) : Nat := s.regFld (base + 64 * p) lo len

/-- The resources that the staging registers of a partition name. -/
def State.staged (s : State) (p : Nat) : Alloc :=
  { seg := (List.range 4).map fun n => 4 * s.prtReg (Reg.prtPSeg + 4 * n) p 0 22,
    fBase := s.prtReg Reg.prtPF p 0 11, fBanks := s.prtReg Reg.prtPF p 11 11,
    slotFirst := s.prtReg Reg.prtPSlot p 0 12, slotCount := s.prtReg Reg.prtPSlot p 12 13, slotBanks := s.prtReg Reg.prtPSlot p 25 7,
    sGib := s.prtReg Reg.prtPS p 0 11,
    tintFirst := s.prtReg Reg.prtPTints p 0 16, tintLast := s.prtReg Reg.prtPTints p 16 16,
    sesFirst := s.prtReg Reg.prtPSes p 0 16, sesLast := s.prtReg Reg.prtPSes p 16 16,
    reel := s.prtReg Reg.prtPReel p 0 8, checked := s.prtReg Reg.prtPOpt p 0 1 = 1, fullParam := s.prtReg Reg.prtPOpt p 1 1 = 1 }

/-- Staged watch and pending shares. -/
def State.stagedShares (s : State) (p : Nat) : Nat × Nat := (s.prtReg Reg.prtPQue p 0 11, s.prtReg Reg.prtPQue p 11 18)

/-- The job seed of the staging registers. -/
def State.stagedSeed (s : State) (p : Nat) : BitVec 64 := s.reg64 (Reg.prtPSeedLo + 64 * p) (Reg.prtPSeedHi + 64 * p)

/-- The other partitions that hold resources. -/
def State.others (s : State) (p : Nat) : List Nat := (List.range 32).filter fun q => q ≠ p && (s.part q).state ≠ .free

/-- Banks of an allocation's run. -/
def Alloc.run (a : Alloc) : List Nat := (List.range a.fBanks).map fun i => a.fBase + i

/-- Hot slots of an allocation. -/
def Alloc.slots (a : Alloc) : List Nat := (List.range a.slotCount).map fun i => a.slotFirst + i

/-- Two ranges have a number in common; a range whose last is below its first is empty. -/
def rangesMeet (a b c d : Nat) : Bool := decide (a ≤ b) && decide (c ≤ d) && decide (a ≤ d) && decide (c ≤ b)

/-- Free tier S GiB besides the partitions' capacities: 12 stacks of 96 GiB less the loaded plate (R239, R400). -/
def State.sAfterPlate (s : State) : Nat :=
  let striped := fun (x : PlatePart) => 12 * cdiv x.tiles 11 * packedSize x.fmt x.blk
  let taken := match s.plate.plate with
    | some p => match s.fullParam with
      | some _ => striped p.embed + striped p.head
      | none => (p.parts.map striped).sum
    | none => 0
  (1152 * 1073741824 - taken) / 1073741824

/-- SEGMENT: R51 holds for each used profile with this length and the house length. -/
def State.segOk (s : State) (a : Alloc) : Bool :=
  (List.range 4).all fun n => !s.used n || lengthsValid (s.frameUs n) (s.houseNs n) [a.seg.getD n 0] (s.regFld Reg.tbCtrl 2 2)

/-- BANKS: each bank of the run is free to take, or in a RESIZE already the partition's own. -/
def State.runOk (s : State) (p : Nat) (a : Alloc) (own : List Nat) : Bool :=
  decide (a.fBase + a.fBanks ≤ 1536) && a.run.all fun b =>
    (s.bank b).state ≠ .grey && ((own.contains b && (s.bank b).owner = p) ||
      ((s.bank b).owner = 63 && !s.inWindow b && !s.inHead b && !s.inResident b && !Config.storeBank (s.regFld Reg.shtStore 0 10) b))

/-- SLOTS: the slots lie at the start of the run, and no other partition holds one; in a RESIZE no claimed slot is removed or moved. -/
def State.slotsOk (s : State) (p : Nat) (a old : Alloc) : Bool :=
  decide (a.slotFirst + a.slotCount ≤ 4096) && decide (a.slotCount * a.slotBanks ≤ a.fBanks) &&
    (a.slotCount = 0 || (decide (1 ≤ a.slotBanks) && decide (a.slotBanks ≤ 64))) &&
    ((s.others p).all fun q => (s.part q).alloc.slots.all fun h => !a.slots.contains h) &&
    (old.slots.all fun h => (s.slotOf h).tint.isNone ||
      (a.slots.contains h && a.slotBanks = old.slotBanks && (s.slotOf h).base = a.fBase + (h - a.slotFirst) * a.slotBanks))

/-- TIER_S: the capacities fit, and this one holds what the partition has. -/
def State.capacityOk (s : State) (p : Nat) (a : Alloc) : Bool :=
  decide (((s.others p).map fun q => (s.part q).alloc.sGib).sum + a.sGib ≤ s.sAfterPlate) && decide (s.sUsed p ≤ a.sGib * 1073741824)

/-- RANGES: no overlap with another partition, no context 0xFFFF, and every entry that is not FREE stays inside. -/
def State.entriesOk (s : State) (p : Nat) (a : Alloc) : Bool :=
  ((s.others p).all fun q =>
    let b := (s.part q).alloc
    !rangesMeet a.tintFirst a.tintLast b.tintFirst b.tintLast && !rangesMeet a.sesFirst a.sesLast b.sesFirst b.sesLast) &&
  !(decide (a.sesFirst ≤ a.sesLast) && a.sesLast = 0xFFFF) &&
  (s.tints.all fun e => e.2.state = .free || e.2.owner ≠ p || (decide (a.tintFirst ≤ e.1) && decide (e.1 ≤ a.tintLast))) &&
  (s.ses.all fun e => e.2.state = .free || e.2.owner ≠ p || (decide (a.sesFirst ≤ e.1) && decide (e.1 ≤ a.sesLast)))

/-- QUEUE: the shares fit their pools and present use. -/
def State.sharesOk (s : State) (p watches pend : Nat) : Bool :=
  decide (((s.others p).map fun q => (s.ringSet q).watches).sum + watches ≤ 1008) &&
    decide (((s.others p).map fun q => (s.ringSet q).pend).sum + pend ≤ 261120) && decide (pend ≤ 65536) &&
    decide ((s.linesOf p).length ≤ watches) && decide (s.pendUsed p ≤ pend)

/-- REEL: the shares sum to at most 240. -/
def State.reelShareOk (s : State) (p : Nat) (a : Alloc) : Bool :=
  decide (((s.others p).map fun q => (s.part q).alloc.reel).sum + a.reel ≤ 240)

/-- FULL_PARAM: a full-parameter partition is alone. -/
def State.fullParamOk (s : State) (p : Nat) (a : Alloc) : Bool :=
  !(a.fullParam && !(s.others p).isEmpty) && !((s.others p).any fun q => (s.part q).alloc.fullParam)

/-- IN_USE of a RESIZE: a changed segment length meets a loaded sheet of that profile. -/
def State.segInUse (s : State) (p : Nat) (a old : Alloc) : Bool :=
  s.player.store.any fun e => e.1 / 64 = p && match e.2 with
    | some x => a.seg.getD x.profile.toNat 0 ≠ old.seg.getD x.profile.toNat 0
    | none => false

/-- Checks of CREATE, RESIZE and LOAD_IMAGE over Table 14.2, in ascending detail code: 0 where all hold. `old` is what a RESIZE
replaces. -/
def State.checkAlloc (s : State) (p : Nat) (a old : Alloc) (watches pend : Nat) : Nat :=
  if !s.segOk a then 0x02
  else if !s.runOk p a old.run then 0x03
  else if !s.slotsOk p a old then 0x04
  else if !s.capacityOk p a then 0x05
  else if !s.entriesOk p a then 0x06
  else if !s.sharesOk p watches pend then 0x07
  else if !s.reelShareOk p a then 0x08
  else if !s.fullParamOk p a then 0x0A
  else 0

/-! ### PRT_CMD (R401) -/

/-- The outcome of a command in PRT_CMD_STATUS: NOT_PERMITTED with a detail, or OK. -/
def State.prtOutcome (s : State) (detail : Nat) : State :=
  { s with prt := { s.prt with code := if detail = 0 then 0x00 else 0x31, detail := BitVec.ofNat 8 detail } }

/-- Changes partition `p`. -/
def State.modPart (s : State) (p : Nat) (f : Partition → Partition) : State := s.setPart p (f (s.part p))

/-- The slots of a new allocation, each at its place in the run; a slot that stays is as it was. -/
def State.laySlots (s : State) (a old : Alloc) : State :=
  let s := s.each (old.slots.filter fun h => !a.slots.contains h) fun s h => s.setSlot h HotSlot.init
  s.each a.slots fun s h =>
    let x := if old.slots.contains h then s.slotOf h else HotSlot.init
    s.setSlot h { x with base := a.fBase + (h - a.slotFirst) * a.slotBanks }

/-- A partition begins to be created on an allocation (R402, R455): its banks are handed over, its keys made. -/
def State.beginCreate (s : State) (p : Nat) (a : Alloc) (watches pend : Nat) (seed : BitVec 64) (x : Partition) : State :=
  let s := s.each a.run fun s b => s.handBank b p .on false
  let s := s.laySlots a Alloc.init
  let s := s.setRingSet p { RingSet.init with watches := watches, pend := pend }
  let s := { s with sec := { s.sec with part := s.sec.part.set p { imp := none, generating := true, tierH := some (Config.newKey s.free) } },
                    free := s.free + 1, saf := { s.saf with greyParts := s.saf.greyParts.filter fun q => q ≠ p } }
  s.setPart p { x with state := .creating, alloc := a, seed := seed }

/-- CREATE runs on a FREE partition: its checks, then its start (R402, R453, R454). -/
def State.runCreate (s : State) (p : Nat) : State :=
  let a := s.staged p
  let (w, n) := s.stagedShares p
  if (s.part p).state ≠ .free || s.sec.custody = .none || s.sec.rngFail then s.prtOutcome 0x01
  else
    let d := s.checkAlloc p a Alloc.init w n
    if d ≠ 0 then s.prtOutcome d
    else (s.beginCreate p a w n (s.stagedSeed p) Partition.init).prtOutcome 0

/-- CREATE (R402, R406). -/
def execCreate (p : Nat) (s : State) : Out :=
  if 31 < p then .next s
  else if s.wiping then .next (s.prtOutcome 0x01)
  else match (s.part p).state with
    | .tearing | .queuedOn => .next ((s.modPart p fun x => { x with state := .queuedOn }).prtOutcome 0)
    | _ => .next (s.runCreate p)

/-- A tick has come since every bank of the run is ON. -/
def State.runReady (s : State) (p : Nat) : Bool :=
  (s.part p).alloc.run.all fun b => (s.bank b).state = .on && (s.bank b).usable && (s.bank b).owner = p

/-- Pinned tints of a loaded partition are claimed again (R297, R415). -/
def State.reclaim (s : State) (p : Nat) : State :=
  let ts := (s.tints.filter fun e => e.2.owner = p && e.2.pinned && e.2.state = .cold).map (·.1)
  s.each ts fun s t => s.claimFor t none 0 none

/-- Insert images of a loaded partition take their places (R414, R415). -/
def State.placeImages (s : State) (p : Nat) : State :=
  let xs := (s.part p).images
  let s := xs.foldl (fun (s : State) (e : Nat × Pin × Blob) =>
    { s.writeF (64 * e.2.1.ref) e.2.2 with ins := { s.ins with pins := Sparse.set (fun _ => none) s.ins.pins e.1 (some e.2.1) } }) s
  s.modPart p fun x => { x with images := [] }

/-- The LOAD_IMAGE under way creates the partition: it names it, or the device (R415). -/
def Item.loads (i : Item) (p : Nat) : Bool := i.op = 0x3A && i.phase = .busy && (i.field 0x10 1 = p || i.field 0x10 1 = 0xFF)

/-- LOAD_IMAGE completes once each partition that it creates is FROZEN (R415). -/
def State.endLoads (s : State) : State :=
  s.finishAll ((s.openItems fun _ i => i.op = 0x3A && i.phase = .busy && (List.range 32).all fun q => !(i.loads q && (s.part q).loading))) St.ok

/-- CREATE_DONE (R169, R171, R367, R402, R405, R415): the partition becomes READY, its lane states seeded; a RESIZE keeps them; one
made by LOAD_IMAGE becomes FROZEN. -/
def execCreateDone (p : Nat) (s : State) : Out :=
  let x := s.part p
  if x.state ≠ .creating || !s.runReady p then .next s
  else
    let s := if x.resizing || x.loading then s else { s with lanes := s.lanes.set p (LaneSet.init x.seed) }
    let s := s.setPart p { x with state := if x.loading then .frozen else .ready, loading := false, resizing := false }
    .next (if x.loading then ((s.placeImages p).reclaim p).endLoads else s)

/-- RESIZE (R405). -/
def execResize (p : Nat) (s : State) : Out :=
  let x := s.part p
  let a := s.staged p
  let (w, n) := s.stagedShares p
  if 31 < p then .next s
  else if x.state ≠ .ready || s.wiping then .next (s.prtOutcome 0x01)
  else
    let d := s.checkAlloc p a x.alloc w n
    let gone := x.alloc.run.filter fun b => !a.run.contains b
    if d ≠ 0 then .next (s.prtOutcome d)
    else if s.segInUse p a x.alloc || gone.any (s.bankNamed p) then .next (s.prtOutcome 0x0C)
    else
      let s := s.each gone fun s b => s.handBank b 63 .off false
      let s := s.each (a.run.filter fun b => !x.alloc.run.contains b) fun s b => s.handBank b p .on false
      let s := s.laySlots a x.alloc
      let s := s.setRingSet p { s.ringSet p with watches := w, pend := n }
      .next ((s.setPart p { x with state := .creating, resizing := true, alloc := a }).prtOutcome 0)

/-! ### Playing (R403, R404, R416) -/

/-- R51 holds for every used profile over the house and the given partitions. -/
def State.frameFits (s : State) (ps : List Nat) : Bool :=
  (List.range 4).all fun n => !s.used n ||
    lengthsValid (s.frameUs n) (s.houseNs n) (ps.map fun q => s.segNs q n) (s.regFld Reg.tbCtrl 2 2)

/-- The partition leaves the frame at the tick of an earlier DEACTIVATE or TEARDOWN, no later than an ACTIVATE written now (R403). -/
def Partition.leaves (x : Partition) : Bool := x.teardown.isSome || (x.state = .active && x.deactivate.isSome && x.freeze.isNone)

/-- ACTIVATE (R78, R403). -/
def execActivate (p : Nat) (s : State) : Out :=
  let x := s.part p
  let fb := s.reg (Reg.shtFb + 4 * p)
  let ps := (List.range 32).filter fun q => q = p || (!(s.part q).leaves && (s.frameParts.contains q || (s.part q).activate.isSome))
  if 31 < p then .next s
  else if s.wiping then .next (s.prtOutcome 0x01)
  else if x.state ≠ .ready && x.state ≠ .frozen then .next (s.prtOutcome 0x01)
  else if x.saved then .next (s.prtOutcome 0x0B)
  else if !bitOf fb 31 || !s.fallbacksOk p fb then .next (s.prtOutcome 0x09)
  else if !s.frameFits ps then .next (s.prtOutcome 0x02)
  else .next ((s.setPart p { x with activate := some (x.activate.getD (s.waitFrom s.now)) }).prtOutcome 0)

/-- A descriptor's due frame moves on by an offset, where it has one (R416). -/
def Item.shiftDue (i : Item) (o : BitVec 32) : Item :=
  if bitOf i.raw 9 then
    let due := (BitVec.ofNat 32 (i.field 8 4) + o).toNat
    let keep := i.raw.toNat - i.field 8 4 * 2 ^ 64
    { i with raw := BitVec.ofNat 512 (keep + due * 2 ^ 64) }
  else i

/-- A partition resumes from FROZEN (R416): its FN offset, and each descriptor held since the freeze counts as observed now.
PRT_Pp_FN_OFF reports the offset of a partition that was restored, and 0 for any other (R418). -/
def State.resume (s : State) (p : Nat) : State :=
  let o := s.tbm.fn - (s.part p).fnFreeze
  let s := s.modPart p fun x => { x with fnOff := if x.restored then o else 0, firstPlay := false, captured := [] }
  let place := fun (i : Item) => obsOrder s.now 0 (s.items.filter fun e => e.1.set = p && decide (e.2.order < i.order)).length
  { s with items := s.items.map fun (e : ItemKey × Item) =>
      if e.1.set = p && !e.1.replayed && e.2.done.isNone then
        (e.1, { e.2.shiftDue o with obs := s.tbm.tb, order := place e.2, eligible := none })
      else e }

/-- ACTIVATE_EFFECT (R403, R404, R416): the partition's segment is in the frame that this tick starts. -/
def execActivateEffect (p : Nat) (s : State) : Out :=
  let x := s.part p
  if x.activate ≠ some .due || s.saf.safe then .next s
  else if x.state = .ready then .next (s.setPart p { x with state := .active, activate := none })
  else if x.state = .frozen then .next ((s.setPart p { x with state := .active, activate := none }).resume p)
  else .next (s.setPart p { x with activate := none })

/-- DEACTIVATE (R403). -/
def execDeactivate (p : Nat) (s : State) : Out :=
  let x := s.part p
  if 31 < p then .next s
  else if s.wiping then .next (s.prtOutcome 0x01)
  else if x.state ≠ .active then .next (s.prtOutcome 0x01)
  else .next ((s.setPart p { x with deactivate := some (x.deactivate.getD (s.waitFrom s.now)) }).prtOutcome 0)

/-- Items in passage are abandoned and return to pending, which does not count under R101 (R403, R412). -/
def State.abandonPassage (s : State) (p : Nat) : State :=
  let ks := s.openItems fun k i => k.set = p && i.phase = .passage
  let s := s.each ks fun s k => match s.item? k with
    | some i => if i.serves then s.setSes i.ctxNo { s.sesOf i.ctxNo with inPassage := false } else s
    | none => s
  s.each ks fun s k => s.modItem k fun (i : Item) => { i with phase := .waiting, layers := 0 }

/-- The player of a segment that has left the frame is IDLE. -/
def State.idleSegment (s : State) (p : Nat) : State := s.setCtx p { PlayCtx.init with lastHeld := (s.ctx p).lastHeld }

/-- DEACTIVATE_EFFECT (R403, R404). -/
def execDeactivateEffect (p : Nat) (s : State) : Out :=
  let x := s.part p
  if x.deactivate ≠ some .due || s.saf.safe then .next s
  else if x.state = .active then
    .next (((s.setPart p { x with state := .ready, deactivate := none }).abandonPassage p).idleSegment p)
  else .next (s.setPart p { x with deactivate := none })

/-! ### Teardown (R406, R407, R411) -/

/-- TEARDOWN (R406, R407): in QUEUED_ON it cancels the queued CREATE. -/
def execTeardown (p : Nat) (s : State) : Out :=
  let x := s.part p
  if 31 < p then .next s
  else if s.wiping then .next (s.prtOutcome 0x01)
  else match x.state with
    | .creating | .ready | .active | .frozen => .next ((s.setPart p { x with teardown := some (x.teardown.getD (s.waitFrom s.now)) }).prtOutcome 0)
    | .queuedOn =>
      .next { s.setPart p { x with state := .tearing } with prt := { (s.setPart p { x with state := .tearing }).prt with code := 0x32, detail := 0 } }
    | _ => .next (s.prtOutcome 0x01)

/-- Work of a partition ends with a status (R407 step 1): pending and in passage, and completions still held; captured descriptors go
without one. -/
def State.endWork (s : State) (p status : Nat) : State :=
  let cap := (s.part p).captured
  let s := { s with items := s.items.filter fun e => !(e.1.set = p && (cap.contains e.1 || e.1.replayed)) }
  let s := s.endItems (s.openItems fun k _ => k.set = p) status
  { s with items := s.items.map fun (e : ItemKey × Item) =>
      if e.1.set = p && e.2.phase = .held then
        (e.1, { e.2 with phase := .done, done := some { status := BitVec.ofNat 8 status, info := 0, result := 0, outs := [] } })
      else e }

/-- Movers of the partition's own cues stop with its segment, and leave their stacks (R235). -/
def State.stopMovers (s : State) (p : Nat) : State :=
  { s with tiers := { s.tiers with running := s.tiers.running.filter fun (m : Mover) => m.owner ≠ p } }.replan

/-- Engines stop working for a partition: its passes, movers, programs and drains. -/
def State.stopEngines (s : State) (p : Nat) : State :=
  let ts := (s.tints.filter fun e => e.2.owner = p && e.2.state ≠ .free).map (·.1)
  let s := s.each ts fun s t => s.abandonCmds t
  let s := s.stopPrograms p
  let s := s.stopMovers p
  let s := { s with grid := { s.grid with drains := s.grid.drains.filter fun (d : Drain) => d.seg ≠ p } }
  let s := { s with vec := { s.vec with meters := s.vec.meters.filter fun m => m.1.set ≠ p } }
  { s with ins := { s.ins with queue := s.ins.queue.filter (fun k => k.set ≠ p),
                               pinning := match s.ins.pinning with | some (n, q) => if q = p then none else some (n, q) | none => none,
                               pins := s.ins.pins.filter fun e => match e.2 with | some x => x.owner ≠ p | none => true } }

/-- The insert program that runs is a partition's: it is stopped. -/
def State.stopInsert (s : State) (p : Nat) : State :=
  match s.ins.queue with
  | k :: _ => if k.set = p then { s with ins := { s.ins with step := 0, row := none, draining := false, last := none } } else s
  | [] => s

/-- Sessions, tints, snapshots and replay logs of a partition are cleared, and each entry is FREE (R407 step 2). -/
def State.freeEntries (s : State) (p : Nat) : State :=
  let ts := (s.tints.filter fun e => e.2.owner = p).map (·.1)
  let cs := (s.ses.filter fun e => e.2.owner = p && e.2.state ≠ .free).map (·.1)
  let s := { s with saf := { s.saf with greyTints := s.saf.greyTints.filter (fun t => !ts.contains t),
                                        greySessions := s.saf.greySessions.filter (fun c => !cs.contains c),
                                        reqs := s.saf.reqs.filter fun r => !((r.kind = 7 && ts.contains r.unit) || (r.kind = 8 && cs.contains r.unit)) } }
  let s := s.each cs fun s c => s.setSes c Ses.init
  let s := s.each ts fun s t => s.setTint t Tint.init
  let s := { s with reel := { s.reel with verdicts := s.reel.verdicts.filter (fun v => !ts.contains v.tint),
                                          badTints := s.reel.badTints.filter fun t => !ts.contains t } }
  s

/-- The tier S objects of a partition wait for the house's MIGRATE cues, which clear them; its tier H area is no longer used (R407 step 2). -/
def State.queueClear (s : State) (p : Nat) : State :=
  let s := s.freeObjs fun h o => h / 67108864 = p && (o.home ≠ .s || o.tiles.isEmpty)
  { s with tiers := { s.tiers with objs := s.tiers.objs.map fun (e : Nat × Option Obj) =>
      if e.1 / 67108864 = p then
        (e.1, e.2.map fun (o : Obj) => { o with move := some { target := .s, stack := o.mirror.getD o.stack, copied := 0, mirror := false } })
      else e } }

/-- A partition's sheet slots are emptied (R407 step 3). -/
def State.dropSheets (s : State) (p : Nat) : State :=
  { s with player := { s.player with
    store := s.player.store.filter (fun e => e.1 / 64 ≠ p), forced := s.player.forced.filter (fun o => o ≠ p),
    load := match s.player.load with | some l => if l.owner = p then none else some l | none => none,
    nextRecs := s.player.nextRecs.filter (fun r => r.1 ≠ p), afterRecs := s.player.afterRecs.filter (fun r => r.1 ≠ p),
    fixedRecs := s.player.fixedRecs.filter fun r => r.1 ≠ p } }

/-- FREEZE descriptors that wait for the partition (R412). -/
def State.freezesOf (s : State) (p : Nat) : List ItemKey :=
  (s.part p).freezeItems.filter fun k => match s.item? k with
    | some i => i.op = 0x38 && i.phase = .waiting && i.done.isNone
    | none => false

/-- Changes every partition. -/
def State.mapParts (s : State) (f : Nat → Partition → Partition) : State :=
  { s with prt := { s.prt with part := s.prt.part.zipIdx.map fun (x : Partition × Nat) => f x.2 x.1 } }

/-- No partition waits for the FREEZE descriptors any more. -/
def State.dropFreezes (s : State) (ks : List ItemKey) : State :=
  s.mapParts fun _ (x : Partition) => { x with freezeItems := x.freezeItems.filter fun k => !ks.contains k }

/-- A teardown takes effect (R407, R411, R486), `status` for its work; a FREEZE of the partition, and a LOAD_IMAGE that still creates it,
are cancelled (R417). -/
def State.startTeardown (s : State) (p status : Nat) : State :=
  let x := s.part p
  let s := (s.finishAll (s.freezesOf p) St.aborted).dropFreezes x.freezeItems
  let s := s.finishAll (s.openItems fun _ i => x.loading && i.loads p) St.aborted
  let s := ((s.stopInsert p).stopEngines p).endWork p status
  let s := ((s.freeEntries p).queueClear p).dropSheets p
  let s := s.receiverReset (0x40 + p)
  let s := s.each x.alloc.slots fun s h => s.setSlot h HotSlot.init
  let s := s.each x.alloc.run fun s b => s.handBank b 63 .off false
  let r := s.ringSet p
  let s := s.setRingSet p { r with sq := r.sq.map fun (q : SubRing) => { q with mode := if q.mode = .off then .off else .draining, seen := [] } }
  (s.setPart p { x with state := .tearing, activate := none, deactivate := none, teardown := none, freeze := none, freezeItems := [],
                        captured := [], loading := false, resizing := false, images := [] }).idleSegment p

/-- TEARDOWN_EFFECT (R404, R407). -/
def execTeardownEffect (p : Nat) (s : State) : Out :=
  let x := s.part p
  if x.teardown ≠ some .due || s.saf.safe then .next s
  else match x.state with
    | .creating | .ready | .active | .frozen => .next (s.startTeardown p St.aborted)
    | _ => .next s

/-- The last step of a teardown has ended: every bank's shutdown, the clearing of every object, and every record that a CQ still takes. -/
def State.tornDown (s : State) (p : Nat) : Bool :=
  ((s.part p).alloc.run.all fun b => (s.bank b).state = .grey || ((s.bank b).state = .off && (s.bank b).endTb.isNone)) &&
    (s.tiers.objs.all fun e => e.1 / 67108864 ≠ p || e.2.isNone) && s.items.all fun e => e.1.set ≠ p || ((s.ringSet p).cqOf e.2.cq).mode ≠ .on

/-- TEARDOWN_DONE (R406, R407): the tick after the last step; a queued CREATE runs with the staging registers as they stand. -/
def execTeardownDone (p : Nat) (s : State) : Out :=
  let x := s.part p
  if (x.state ≠ .tearing && x.state ≠ .queuedOn) || x.teardown ≠ some .due || !s.tornDown p then .next s
  else
    let s := { s with items := s.items.filter fun e => e.1.set ≠ p,
                      sec := { s.sec with part := s.sec.part.set p { imp := none, generating := false, tierH := none } } }
    let s := (s.setRingSet p RingSet.init).setPart p Partition.init
    let s := s.dropWrites p
    .next (if x.state = .queuedOn then s.runCreate p else s)

/-- A bank of a run turned GREY while its partition was created (R402): its banks go back, and the partition is FREE. A partition
that was RESIZED has rings and descriptors: it goes the way of a teardown. -/
def State.failCreate (s : State) (p : Nat) : State :=
  let x := s.part p
  if x.resizing then s.startTeardown p St.aborted else
  let s := s.finishAll (s.openItems fun _ i => x.loading && i.loads p) St.notPermitted
  let s := ((s.freeEntries p).freeObjs fun h _ => h / 67108864 = p).dropSheets p
  let s := s.each x.alloc.slots fun s h => s.setSlot h HotSlot.init
  let s := s.each x.alloc.run fun s b => s.handBank b 63 .off false
  let s := { s with sec := { s.sec with part := s.sec.part.set p { imp := none, generating := false, tierH := none } },
                    items := s.items.filter fun e => e.1.set ≠ p }
  ((s.dropWrites p).setRingSet p RingSet.init).setPart p Partition.init

/-! ### Freezing (R412) -/

/-- Partitions that a FREEZE, SAVE or LOAD_IMAGE names: one, or those for which a test holds. -/
def State.named (s : State) (p : Nat) (all : Partition → Bool) : List Nat :=
  if p < 32 then [p] else (List.range 32).filter fun q => all (s.part q)

/-- FREEZE (R24, R412). -/
def execFreeze (k : ItemKey) (s : State) : Out :=
  match s.fresh k 0x38 with
  | none => .next s
  | some i =>
    let p := i.field 0x10 1
    let bad := if p < 32 then (s.part p).state ≠ .active else (List.range 32).any fun q =>
      let st := (s.part q).state
      st = .creating || st = .tearing || st = .queuedOn
    if bad then .next (s.finish k St.notPermitted)
    else
      let s := s.dropFreezes [k]
      let s := s.each (s.named p fun x => x.state = .active) fun s q =>
        s.modPart q fun x => { x with freeze := some (x.freeze.getD (s.waitFrom i.obs.toNat)), freezeItems := x.freezeItems ++ [k] }
      .next (s.setPhase k .waiting)

/-- A step under way in a tint is dropped by a freeze (R412, Table 12.6). -/
def State.dropSteps (s : State) (p : Nat) : State :=
  let ts := (s.tints.filter fun e => e.2.owner = p && (e.2.train.cur.placed || e.2.train.cur.phase = .pass2)).map (·.1)
  s.each ts fun s t => s.dropStep t

/-- Queued moves of a partition that have not switched are abandoned (Table 8.9). -/
def State.dropMoves (s : State) (p : Nat) : State :=
  let s := { s with tiers := { s.tiers with objs := s.tiers.objs.map fun (e : Nat × Option Obj) =>
      if e.1 / 67108864 = p then (e.1, e.2.map fun (o : Obj) => { o with move := none }) else e } }
  { s with ses := Sparse.mapListed (fun _ => Ses.init) (fun _ x => if x.owner = p then { x with hQueued := 0, hCopied := 0, sQueued := 0, sCopied := 0 } else x) s.ses }

/-- A FREEZE whose tick finds the partition not ACTIVE (R412): one of the partition completes with NOT_PERMITTED, one of the device goes on
with the partitions that are. -/
def State.missFreeze (s : State) (p : Nat) : State :=
  let ks := (s.freezesOf p).filter fun k => match s.item? k with | some i => i.field 0x10 1 = p | none => false
  (s.finishAll ks St.notPermitted).modPart p fun x => { x with freeze := none, freezeItems := [] }

/-- FREEZE_EFFECT (R173, R404, R412). -/
def execFreezeEffect (p : Nat) (s : State) : Out :=
  let x := s.part p
  if x.freeze ≠ some .due || s.saf.safe then .next s
  else if x.state ≠ .active then .next (s.missFreeze p)
  else
    let s := s.setPart p { x with state := .frozen, freeze := none, saved := false, fnFreeze := s.tbm.fn, epochFreeze := s.tbm.epoch }
    .next (((((s.abandonPassage p).dropSteps p).stopMovers p).dropMoves p).idleSegment p)

/-- A partition's state is captured: its drains have ended, no INSERT of it runs, and no completion of it is held (R412). -/
def State.capturedAll (s : State) (p : Nat) : Bool :=
  (s.part p).state = .frozen && (s.part p).freeze.isNone && (s.grid.drains.all fun (d : Drain) => d.owner ≠ p) &&
    (s.items.all fun e => e.1.set ≠ p || e.2.phase ≠ .held) &&
    (match s.ins.queue with | k :: _ => k.set ≠ p || (s.ins.step = 0 && !s.ins.draining) | [] => true)

/-- FREEZE_DONE (R412). -/
def execFreezeDone (k : ItemKey) (s : State) : Out :=
  match s.item? k with
  | none => .next s
  | some i =>
    let ps := (List.range 32).filter fun q => (s.part q).freezeItems.contains k
    if i.op ≠ 0x38 || i.phase ≠ .waiting || i.done.isSome || !ps.all s.capturedAll then .next s
    else
      .next ((s.dropFreezes [k]).finish k St.ok)

end Sys2Proof.Machine
end

