-- ==== Sys2Proof/Machine/Images.lean ====
section
/-! DEFINITION. Partition and device images (R412-R416, R463): SAVE and LOAD_IMAGE. The spec gives the header, the table, the lane states
and the encryption byte by byte; how the other sections lie in bytes it leaves open (log entry 3). -/

namespace Sys2Proof.Machine

/-- What the sections of a partition hold (Table 14.5). -/
structure ImagePart where
  /-- Staging values of CONFIG; the bank base and the first slot are not among them. -/
  alloc : Alloc
  /-- Watch and pending shares. -/
  shares : Nat × Nat
  /-- Job seed. -/
  seed : BitVec 64
  /-- TIER_Hp size and rate, NMD_UPD_CLIPp. -/
  hSize : Word
  hRate : Word
  clip : Word
  /-- Tint entries that are not FREE, with their training state. -/
  tints : List (Nat × Tint)
  /-- Objects: tint objects, optimiser state, snapshots, slices and carried state. -/
  objs : List (Nat × Obj)
  /-- Contexts that are not FREE. -/
  ses : List (Nat × Ses)
  /-- Sheet images by slot, and the fallback designations. -/
  sheets : List (Nat × Blob)
  fallback : Word
  /-- Pinned insert images by pin slot. -/
  pins : List (Nat × Pin × Blob)
  /-- Pending descriptors in order of observation. -/
  pending : List (ItemKey × Item)
  deriving DecidableEq, Repr

/-- What the DEVICE section holds. -/
structure ImageDevice where
  /-- TB_PROFn_FRAME and TB_PROFn_HOUSE of the four profiles, and the cadence code. -/
  frames : List Word
  houses : List Word
  cadence : BitVec 2
  /-- House sheets by slot, and their fallback designations. -/
  sheets : List (Nat × Blob)
  fallback : Word
  /-- MBX_BINDc. -/
  binds : List Word
  deriving DecidableEq, Repr

end Sys2Proof.Machine

namespace Sys2Proof

/-- The bytes of a section, by its type and partition, of the block in a state (Table 14.5; log entry 3). -/
opaque Config.imageSection : Nat → Nat → Machine.State → Blob

/-- What a partition's sections hold, by its number and (type, bytes) of each; none where one is malformed (Table 14.5; log entry 3). -/
opaque Config.readImage : Nat → List (Nat × Blob) → Option Machine.ImagePart

/-- What a DEVICE section holds; none where it is malformed (Table 14.5; log entry 3). -/
opaque Config.readDevice : Blob → Option Machine.ImageDevice

end Sys2Proof

namespace Sys2Proof.Machine

/-! ### The image key (R463) -/

/-- The image key. -/
def imageKey (cdk : BitVec 256) (src dst fn epoch kind part : Blob) : BitVec 256 :=
  let d := sha512 (ascii "UMD-IMAGE" ++ leBytes 32 cdk.toNat ++ src ++ dst ++ fn ++ epoch ++ kind ++ part)
  BitVec.ofNat 256 (fld d 0 256)

/-- The IV of an image. -/
def imageIv (fn epoch kind part : Blob) : Blob := [1, 0, 0, 0] ++ fn ++ epoch ++ kind ++ part

/-- SHA-512 of this device's identity certificate. -/
def ownIdentity : Blob := digestBytes (sha512 Config.identityCert)

/-- SEC_DEST_DIGn: the digest of the destination's identity certificate. -/
def State.destDigest (s : State) : Blob := (List.range 16).flatMap fun w => leBytes 4 (s.reg (Reg.secDestDig + 4 * w)).toNat

/-! ### SAVE (R413, R414) -/

/-- State of a lane of an owner. -/
def State.laneState (s : State) (o l : Nat) : BitVec 64 :=
  let x := s.lanes.getD o (LaneSet.init 0)
  (Sparse.get (fun _ => none) x.states l).getD (seedLane x.seed l)

/-- Lanes of an owner (R170). -/
abbrev laneCount : Nat := 45056

/-- The bytes of a section: the lane states as R414 gives them, the others as the device lays them out. -/
def State.sectionBytes (s : State) (ty p : Nat) : Blob :=
  if ty = 2 then (List.range laneCount).flatMap fun l => leBytes 8 (s.laneState p l).toNat else Config.imageSection ty p s

/-- Sections of an image in the order of Table 14.5: type and partition, 0xFFFFFFFF for the device. -/
def imageSections (ps : List Nat) (device : Bool) : List (Nat × Nat) :=
  ((List.range 10).flatMap fun i => ps.map fun p => (i + 1, p)) ++ (if device then [(11, 0xFFFFFFFF)] else [])

/-- Offsets of sections that follow one another from `off`. -/
def offsetsFrom : Nat → List Nat → List Nat
  | _, [] => []
  | off, n :: ns => off :: offsetsFrom (off + n) ns

/-- The image of some partitions, or of the device. -/
def State.image (s : State) (cdk : BitVec 256) (ps : List Nat) (device : Bool) : Blob :=
  let first := s.part (ps.headD 32)
  let part := if device then 0xFF else ps.headD 0
  let fn := leBytes 4 first.fnFreeze.toNat
  let epoch := leBytes 2 first.epochFreeze.toNat
  let kind := leBytes 1 (b2n device)
  let secs := imageSections ps device
  let bodies := secs.map fun e => s.sectionBytes e.1 e.2
  let base := 256 + 16 * secs.length
  let len := (bodies.map List.length).sum
  let plain := padTo (cdiv (base + len) 64 * 64 - base) bodies.flatten
  let total := base + plain.length + 64
  let plate := match s.plate.plate with | some p => digestBytes p.digest | none => List.replicate 64 0
  let header := leBytes 4 0x47494D49 ++ leBytes 2 1 ++ kind ++ leBytes 1 part ++ fn ++ epoch ++ leBytes 2 secs.length ++ leBytes 8 total ++
    List.replicate 40 0 ++ plate ++ ownIdentity ++ List.replicate 64 0
  let table := (secs.zip (offsetsFrom base (bodies.map List.length))).flatMap fun e =>
    leBytes 2 e.1.1 ++ [0, 0] ++ leBytes 4 e.1.2 ++ leBytes 8 e.2
  let key := imageKey cdk ownIdentity s.destDigest fn epoch kind (leBytes 1 part)
  let (ct, tag) := gcmSeal key (imageIv fn epoch kind (leBytes 1 part)) (header ++ table) plain
  header ++ table ++ ct ++ tag ++ List.replicate 48 0

/-- SAVE (R413, R454, R463): it waits until the partitions' state is captured and for a house HOST cue. It captures the
descriptors that have no outcome yet. -/
def execSave (k : ItemKey) (s : State) : Out :=
  match s.fresh k 0x39 with
  | none => .next s
  | some i =>
    let p := i.field 0x10 1
    let ps := s.named p fun x => x.state ≠ .free
    let bad := ps.any fun q => (s.part q).state ≠ .frozen || (s.part q).saved
    if bad || s.sec.rngFail || allZero s.destDigest then .next (s.finish k St.notPermitted)
    else match s.sec.cdk with
    | none => .next (s.finish k St.notPermitted)
    | some cdk =>
      if !ps.all s.capturedAll || !s.hostBulk then .next s
      else
        let img := s.image cdk ps (p = 0xFF)
        if i.field 0x20 8 < img.length then .next (s.finish k St.notPermitted)
        else
          let s := s.hostWrite (i.field 0x18 8) img
          let s := s.each ps fun s q => s.modPart q fun x =>
            { x with saved := true, captured := (s.items.filter fun e => e.1.set = q && e.2.done.isNone).map (·.1) }
          .next (s.finish k St.ok (resultOf (leBytes 8 img.length)))

/-! ### LOAD_IMAGE (R415) -/

/-- The table entries of an image: (type, partition, offset). -/
def imageTable (img : Blob) (n : Nat) : List (Nat × Nat × Nat) :=
  (List.range n).map fun i => (leAt img (256 + 16 * i) 2, leAt img (256 + 16 * i + 4) 4, leAt img (256 + 16 * i + 8) 8)

/-- The header, the table and the trailer are well formed (R414). -/
def imageLayout (img : Blob) (len : Nat) (device : Bool) : Bool :=
  let n := leAt img 0x0E 2
  let total := leAt img 0x10 8
  let part := leAt img 7 1
  let tab := imageTable img n
  let offs := tab.map (fun e => e.2.2) ++ [total - 64]
  leAt img 0 4 = 0x47494D49 && leAt img 4 2 = 1 && leAt img 6 1 = b2n device && (if device then part = 0xFF else decide (part < 32)) &&
    total % 64 = 0 && total = len && decide (256 + 16 * n + 64 ≤ total) && allZero (slice img 0x18 40) && allZero (slice img 0xC0 64) &&
    allZero (slice img (total - 48) 48) &&
    ((List.range n).all fun i => leAt img (256 + 16 * i + 2) 2 = 0 && decide (offs.getD i 0 ≤ offs.getD (i + 1) 0)) &&
    decide (256 + 16 * n ≤ offs.headD 0) &&
    (tab.all fun e => decide (1 ≤ e.1) && decide (e.1 ≤ 11) &&
      (if e.1 = 11 then device && e.2.1 = 0xFFFFFFFF else if device then decide (e.2.1 < 32) else e.2.1 = part))

/-- The decrypted sections of an image: (type, partition, bytes), where its tag verifies for this device. -/
def openImage (cdk : BitVec 256) (img : Blob) : Option (List (Nat × Nat × Blob)) :=
  let n := leAt img 0x0E 2
  let total := leAt img 0x10 8
  let base := 256 + 16 * n
  let fn := slice img 8 4
  let epoch := slice img 0x0C 2
  let key := imageKey cdk (slice img 0x80 64) ownIdentity fn epoch (slice img 6 1) (slice img 7 1)
  let iv := imageIv fn epoch (slice img 6 1) (slice img 7 1)
  match gcmOpen key iv (slice img 0 base) (slice img base (total - 64 - base)) (slice img (total - 64) 16) with
  | none => none
  | some pt =>
    let tab := imageTable img n
    let offs := tab.map (fun e => e.2.2) ++ [total - 64]
    some ((List.range n).map fun i =>
      let e := tab.getD i (0, 0, 0)
      (e.1, e.2.1, slice pt (e.2.2 - base) (offs.getD (i + 1) 0 - e.2.2)))

/-- The lane states of a LANES section: none where one is missing or zero (R173). -/
def lanesOf (bs : Blob) : Option (List (BitVec 64)) :=
  let xs := (List.range laneCount).map fun l => BitVec.ofNat 64 (leAt bs (8 * l) 8)
  if bs.length = 8 * laneCount && xs.all (fun x => x ≠ 0) then some xs else none

/-- What an image holds of one partition: its content and its lane states. -/
def partOf (secs : List (Nat × Nat × Blob)) (from_ to_ : Nat) : Option (ImagePart × List (BitVec 64)) :=
  let mine := (secs.filter fun e => e.2.1 = from_).map fun e => (e.1, e.2.2)
  match Config.readImage to_ mine, (mine.find? fun e => e.1 = 2).bind fun e => lanesOf e.2 with
  | some x, some ls => some (x, ls)
  | _, _ => none

/-- Loads sheets of an owner, each under R84; none where one fails. -/
def State.loadSheets (s : State) (o : Nat) : List (Nat × Blob) → Option State
  | [] => some s
  | (slot, img) :: rest =>
    let l : SheetLoad := { owner := o, slot := slot, addr := 0, len := img.length }
    if s.checkSheet l img ≠ 0 then none else (s.placeSheet o slot (parseSheet img img.length)).loadSheets o rest

/-- A tint entry as it is written back: COLD, with no slot and nothing waiting (R415). -/
def Tint.restored (x : Tint) (p stack : Nat) : Tint :=
  { x with state := .cold, owner := p, stack := stack, slot := none, queued := none, loadItem := none, moved := 0, hotDue := false,
           evict := none, evictItems := [], withdraw := none, withdrawItems := [], writeThrough := 0, regItem := none }

/-- The stack of an object that is written back: the director's choice among the live ones. -/
def State.homeStack (s : State) (want : Nat) : Nat := if s.stackLive want then want else s.liveStacks.headD 0

/-- Writes the sections of a partition back in place (R415). -/
def State.putPart (s : State) (p : Nat) (x : ImagePart) (ls : List (BitVec 64)) : State :=
  let s := { s with lanes := s.lanes.set p { seed := x.seed, states := (ls.zipIdx).map fun (e : BitVec 64 × Nat) => (e.2, some e.1) } }
  let s := ((s.setReg (Reg.tierHSize + 16 * p) x.hSize).setFld (Reg.tierHRate + 16 * p) 0 9 x.hRate.toNat).setFld (Reg.nmdUpdClip + 4 * p) 0 16 x.clip.toNat
  let s := (x.tints.filter fun e => s.tintInRange p e.1).foldl (fun (s : State) (e : Nat × Tint) =>
    s.setTint e.1 (e.2.restored p (s.homeStack e.2.stack))) s
  let s := (x.objs.filter fun e => e.1 / 67108864 = p).foldl (fun (s : State) (e : Nat × Obj) =>
    let n := s.homeStack e.2.stack
    s.setObj e.1 (some { e.2 with home := .s, stack := n, mirror := if e.2.mirror.isSome then s.mirrorOf n else none, move := none })) s
  let s := (x.ses.filter fun e => s.ctxInRange p e.1).foldl (fun (s : State) (e : Nat × Ses) =>
    s.setSes e.1 { e.2 with owner := p, home := s.homeStack e.2.home, inPassage := false, sExt := e.2.sExt + e.2.hExt, hExt := 0, hQueued := 0,
                            hCopied := 0, sQueued := 0, sCopied := 0, close := none, closeItems := [], queued := none }) s
  let s := s.setReg (Reg.shtFb + 4 * p) x.fallback
  let items := ((x.pending.filter fun e => e.1.set = p && decide (e.1.sq < 16)).zipIdx).map fun (e : (ItemKey × Item) × Nat) =>
    (e.1.1, { e.1.2 with order := obsOrder s.now 0 (s.observed + e.2), phase := if e.1.2.phase = .passage then .waiting else e.1.2.phase })
  let s := { s with items := s.items ++ items, observed := s.observed + items.length }
  s.modPart p fun y => { y with images := x.pins }

/-- Creates one partition from its content, or answers none where a check of CREATE or of a sheet fails. -/
def State.loadPart (s : State) (p : Nat) (fn : BitVec 32) (epoch : BitVec 16) (x : ImagePart) (ls : List (BitVec 64)) : Option State :=
  let a := { x.alloc with fBase := (s.staged p).fBase, slotFirst := (s.staged p).slotFirst }
  if s.checkAlloc p a Alloc.init x.shares.1 x.shares.2 ≠ 0 || 400 < s.rateSum p x.hRate.toNat then none
  else
    let y := { Partition.init with loading := true, restored := true, firstPlay := true, fnFreeze := fn, epochFreeze := epoch }
    let s := ((s.beginCreate p a x.shares.1 x.shares.2 x.seed y).receiverReset (0x40 + p)).putPart p x ls
    let ready := s.modPart p fun z => { z with state := .ready }
    (ready.loadSheets p x.sheets).map fun s => s.modPart p fun z => { z with state := .creating }

/-- Creates partitions in ascending number. -/
def State.loadParts (s : State) (fn : BitVec 32) (epoch : BitVec 16) : List (Nat × ImagePart × List (BitVec 64)) → Option State
  | [] => some s
  | (p, x, ls) :: rest => (s.loadPart p fn epoch x ls).bind fun s => s.loadParts fn epoch rest

/-- Writes a DEVICE section back (Table 14.5): profiles, cadence, house sheets and fallbacks, bindings. Locked registers stay. -/
def State.putDevice (s : State) (x : ImageDevice) : Option State :=
  let s := if s.locked .tb then s else
    let s := s.each (List.range 4) fun s n =>
      (s.setFld (Reg.tbProfFrame + 8 * n) 0 14 (x.frames.getD n 0).toNat).setFld (Reg.tbProfHouse + 8 * n) 0 22 (x.houses.getD n 0).toNat
    s.setFld Reg.tbCtrl 2 2 x.cadence.toNat
  let s := if s.locked .mbx then s else s.each (List.range 64) fun s c => s.setReg (bindKey c) (x.binds.getD c 0 &&& 0x801FFFFF)
  (s.loadSheets 32 x.sheets).map fun s => if s.locked .sht then s else s.setReg Reg.shtHouseFb (x.fallback &&& 0xBF3F3F3F)

/-- LOAD_IMAGE (R173, R414-R416, R454, R463): the image comes with the command, none where the host read failed. -/
def execLoadImage (k : ItemKey) (img : Option Blob) (s : State) : Out :=
  match s.fresh k 0x3A with
  | none => .next s
  | some i =>
    let p := i.field 0x10 1
    let device := decide (p = 0xFF)
    let free := if device then (List.range 32).all fun q => (s.part q).state = .free else (s.part p).state = .free
    if !free || s.sec.rngFail || s.wiping then .next (s.finish k St.notPermitted)
    else if !s.hostBulk then .next s
    else match img with
    | none => .next (s.finish k St.uncorrectable)
    | some bs =>
      if !imageLayout bs (i.field 0x20 8) device then .next (s.finish k St.badDescriptor)
      else match s.sec.cdk.bind fun c => openImage c bs with
      | none => .next (s.finish k St.badDescriptor)
      | some secs =>
        let from_ := dedup ((secs.filter fun e => e.1 ≠ 11).map fun e => e.2.1)
        let from_ := sortBy (fun q => q) from_
        let parts := allSome (from_.map fun q => (partOf secs q (if device then q else p)).map fun x => ((if device then q else p), x.1, x.2))
        let dev := if device then ((secs.find? fun e => e.1 = 11).bind fun e => Config.readDevice e.2.2).map some else some none
        if !device && from_.isEmpty then .next (s.finish k St.badDescriptor)
        else match parts, dev with
        | some ps, some d =>
          let plate := match s.plate.plate with | some x => x.digest = digestOf (slice bs 0x40 64) | none => false
          if !plate then .next (s.finish k St.notPermitted)
          else
            let s1 := match d with | some x => s.putDevice x | none => some s
            match s1.bind fun s => s.loadParts (BitVec.ofNat 32 (leAt bs 8 4)) (BitVec.ofNat 16 (leAt bs 0x0C 2)) ps with
            | none => .next (s.finish k St.notPermitted)
            | some s => .next (s.setPhase k .busy).endLoads
        | _, _ => .next (s.finish k St.badDescriptor)

end Sys2Proof.Machine
end

