-- ==== Sys2Proof/Machine/Custody.lean ====
section
/-! DEFINITION. Custody commands, wipes, key imports and the random bit generator (chapter 16). -/

namespace Sys2Proof.Machine

/-! ### Custody commands (R448-R452) -/

/-- A custody command or key import fails with a detail code of Table 16.3. -/
def State.cmdFail (s : State) (detail : Nat) : State :=
  { s with sec := { s.sec with cmdDetail := BitVec.ofNat 8 detail } }.raise Reg.secStatus 0

/-- The device has been returned to the vendor: its keys are destroyed (R471). -/
def State.returned (s : State) : Bool := s.sec.life = .returned

/-- Fields of a custody command (Table 16.2). -/
def cmdOp (b : Blob) : Nat := leAt b 6 2
def cmdKey (b : Blob) : BitVec 4096 := BitVec.ofNat 4096 (beNat (slice b 0x60 512))
def cmdDigest (b : Blob) : Digest := digestOf (slice b 0x20 64)

/-- The block's magic, version and op are known, and what its op does not use is zero (Table 16.2). -/
def cmdFormat (b : Blob) : Bool :=
  let op := cmdOp b
  b.length = 1664 && leAt b 0 4 = 0x54535543 && leAt b 4 2 = 1 && decide (1 ≤ op) && decide (op ≤ 6) && leAt b 0x1C 4 = 0 &&
    allZero (slice b 0x460 32) && (op = 4 || op = 5 || allZero (slice b 0x20 64)) && (op = 1 || op = 2 || allZero (slice b 0x60 512)) &&
    (op = 6 || allZero (slice b 0x260 512))

/-- The signature verifies under the key that R451 names. -/
def State.cmdSigned (s : State) (b : Blob) : Bool :=
  let key := if cmdOp b = 1 then some (cmdKey b) else s.sec.custodyKey
  match key with
  | some k => pssVerify k (slice b 0 0x480) (slice b 0x480 512)
  | none => false

/-- The custody state and the publisher list allow the op (Tables 16.3, 16.4). -/
def State.cmdAllowed (s : State) (b : Blob) : Bool :=
  let op := cmdOp b
  (if op = 1 then s.sec.custody = .none else s.sec.custody = .held) && (op ≠ 4 || decide (s.sec.pubs.length < 8)) &&
    (op ≠ 5 || s.sec.pubs.contains (cmdDigest b)) && (op ≠ 6 || !s.returned)

/-- The key that a CDK command wraps (R456). -/
def unwrapCdk (b : Blob) : Option (BitVec 256) :=
  match oaepDecrypt Config.transportKey (ascii "UMD-CDK") (slice b 0x260 512) with
  | some p => if p.length = 128 && allZero (slice p 0x20 0x60) then some (BitVec.ofNat 256 (leAt p 0 32)) else none
  | none => none

/-- The first detail of Table 16.3 that a block fails with, 0 for none. -/
def State.cmdDetail (s : State) (b : Blob) : Nat :=
  if !cmdFormat b then 1
  else if leAt b 8 16 ≠ Config.serial.toNat then 2
  else if s.sec.count = 0xFFFFFFFF || leAt b 0x18 4 ≠ s.sec.count.toNat + 1 then 3
  else if !s.cmdSigned b then 4
  else if !s.cmdAllowed b then 5
  else if cmdOp b = 6 && (unwrapCdk b).isNone then 6
  else 0

/-- The CUSTODY record: the op and the 64 digest bytes, in words (Table 17.6). -/
def State.logCustody (s : State) (op : Nat) (d : Digest) : State :=
  s.logLong 0x0801 (op :: (List.range 16).map fun i => fld d (32 * i) 32)

/-- A wipe starts (R452): every partition that is not FREE is torn down, and a queued CREATE is cancelled. -/
def State.startWipe (s : State) (newKey : Option (BitVec 4096)) : State :=
  let s := s.setFld Reg.secCmdCtrl 31 1 1
  let s := { s with sec := { s.sec with custody := .wiping, wipe := some { newKey := newKey } } }
  s.each (List.range 32) fun s p =>
    let x := s.part p
    match x.state with
    | .creating | .ready | .active | .frozen => s.setPart p { x with teardown := some (x.teardown.getD (s.waitFrom s.now)) }
    | .queuedOn => s.setPart p { x with state := .tearing }
    | _ => s

/-- The effect of an accepted op (Table 16.4). -/
def State.cmdEffect (s : State) (b : Blob) : State :=
  let d := cmdDigest b
  match cmdOp b with
  | 1 => { s with sec := { s.sec with custody := .held, custodyKey := some (cmdKey b) } }.logCustody 1 (keyDigest (cmdKey b))
  | 2 => (s.logCustody 2 (keyDigest (cmdKey b))).startWipe (some (cmdKey b))
  | 3 => (s.logCustody 3 (match s.sec.custodyKey with | some k => keyDigest k | none => 0)).startWipe none
  | 4 => { s with sec := { s.sec with pubs := s.sec.pubs ++ [d] } }.logCustody 4 d
  | 5 => { s with sec := { s.sec with pubs := s.sec.pubs.filter fun e => e ≠ d } }.logCustody 5 d
  | _ => match unwrapCdk b with
    | some k => { s with sec := { s.sec with cdk := some k } }.logCustody 6 (sha512 (leBytes 32 k.toNat))
    | none => s

/-- SEC_CMD_CTRL takes go for a block: ignored while a command runs; the block is none where the host read fails. -/
def State.custodyRun (s : State) (op : Nat) (block : Option Blob) : State :=
  if s.sec.wipe.isSome then s
  else match block with
  | none => s.cmdFail 7
  | some b =>
    let d := s.cmdDetail b
    if d = 0 && cmdOp b ≠ op then s
    else if d ≠ 0 then s.cmdFail d
    else
      let s := { s with sec := { s.sec with count := BitVec.ofNat 32 (leAt b 0x18 4), cmdDetail := 0 } }
      s.cmdEffect b

/-- TAKE (R449-R451). -/
def execTake (block : Option Blob) (s : State) : Out := .next (s.custodyRun 1 block)

/-- TRANSFER (R449-R452). -/
def execTransfer (block : Option Blob) (s : State) : Out := .next (s.custodyRun 2 block)

/-- RELEASE (R449-R452). -/
def execRelease (block : Option Blob) (s : State) : Out := .next (s.custodyRun 3 block)

/-- PUB_ADD (R449-R451). -/
def execPubAdd (block : Option Blob) (s : State) : Out := .next (s.custodyRun 4 block)

/-- PUB_REMOVE (R449-R451). -/
def execPubRemove (block : Option Blob) (s : State) : Out := .next (s.custodyRun 5 block)

/-- CDK (R449-R451, R456, R471). -/
def execCdk (block : Option Blob) (s : State) : Out := .next (s.custodyRun 6 block)

/-- WIPE_DONE (R452): every partition is FREE. The plate is unloaded, the key store is cleared, the custody key is replaced or removed. -/
def execWipeDone (s : State) : Out :=
  match s.sec.wipe with
  | none => .next s
  | some w =>
    if s.prt.part.any fun x => x.state ≠ .free then .next s
    else
      let s := if s.plate.load.isSome || s.plate.asking.isSome then s.endPlateLoad 10 else s
      let s := if s.plate.plate.isSome then s.unloadPlate else s
      let s := s.setFld Reg.secCmdCtrl 31 1 0
      .next { s with sec := { s.sec with cdk := none, gk := none, gkPrev := none, gkPending := none, gkSpent := false, plateKey := none, pubs := [],
                                         custodyKey := w.newKey, custody := if w.newKey.isSome then .held else .none, wipe := none } }

/-! ### Key imports (R453, R455-R457, R461, R462) -/

/-- A key import fails with a detail code. -/
def State.keyFail (s : State) (detail : Nat) : State :=
  { s with sec := { s.sec with keyDetail := BitVec.ofNat 8 detail } }.raise Reg.secStatus 1

/-- A key import ends well. -/
def State.keyOk (s : State) : State := { s with sec := { s.sec with keyDetail := 0 } }

/-- Custody allows no key import (R448, R453, R471). -/
def State.keyBarred (s : State) : Bool := s.sec.custody ≠ .held || s.returned

/-- PLATE_KEY_IMPORT (R453, R456, R457, R474): SEC_KEY_CTRL written with go and kind 1; the wrapped key comes with the command. -/
def execPlateKeyImport (wrapped : Option Blob) (s : State) : Out :=
  let s := s.setFld Reg.secKeyCtrl 0 2 1
  if s.keyBarred || s.plate.load.isSome || s.plate.asking.isSome then .next (s.keyFail 5)
  else match wrapped with
  | none => .next (s.keyFail 7)
  | some w => match oaepDecrypt Config.transportKey (ascii "UMD-PLATE-KEY") w with
    | some p =>
      if p.length = 128 && allZero (slice p 0x20 0x20) then
        .next { s.keyOk with sec := { s.keyOk.sec with plateKey := some (BitVec.ofNat 256 (leAt p 0 32), digestOf (slice p 0x40 64)) } }
      else .next (s.keyFail 6)
    | none => .next (s.keyFail 6)

/-- GROUP_KEY_IMPORT (R453, R456, R457, R461, R475): kind 2. A key whose boot count is spent is not taken again; an activation FN that
has come is the next tick's. -/
def execGroupKeyImport (wrapped : Option Blob) (s : State) : Out :=
  let s := s.setFld Reg.secKeyCtrl 0 2 2
  if s.keyBarred then .next (s.keyFail 5)
  else match wrapped with
  | none => .next (s.keyFail 7)
  | some w => match oaepDecrypt Config.transportKey (ascii "UMD-GROUP-KEY") w with
    | some p =>
      if p.length = 128 && decide (leAt p 0x20 1 < 16) && allZero (slice p 0x21 0x5F) then
        let k : GroupKey := { gen := BitVec.ofNat 4 (leAt p 0x20 1), key := BitVec.ofNat 256 (leAt p 0 32), boots := 0 }
        let spent := s.sec.gkSpent && match s.sec.gk with | some g => g.key = k.key | none => false
        let fn := s.reg Reg.secKeyFn
        let at_ := if fnLe fn s.tbm.fn then s.tbm.fn + 1 else fn
        if spent then .next (s.keyFail 8) else .next { s.keyOk with sec := { s.keyOk.sec with gkPending := some (k, at_) } }
      else .next (s.keyFail 6)
    | none => .next (s.keyFail 6)

/-- GROUP_KEY_ACTIVATE (R462): the tick that starts the activation FN has come. -/
def execGroupKeyActivate (s : State) : Out :=
  match s.sec.gkPending with
  | some (k, fn) =>
    if s.tbm.running && fnLe fn s.tbm.fn && !s.saf.safe then
      .next { s with sec := { s.sec with gk := some k, gkPrev := s.sec.gk.map fun g => (g, 16), gkPending := none, gkSpent := false } }
    else .next s
  | none => .next s

/-- GROUP_KEY_RETIRE (R462): the previous key has been kept for 16 frames. -/
def execGroupKeyRetire (s : State) : Out :=
  match s.sec.gkPrev with
  | some (_, 0) => .next { s with sec := { s.sec with gkPrev := none } }
  | _ => .next s

/-- IMPORT_KEY_READY (R454, R455): a partition's import key has been generated; its modulus is free. -/
def execImportKeyReady (p : Nat) (s : State) : Out :=
  let x := s.sec.part.getD p { imp := none, generating := false, tierH := none }
  if !x.generating || s.sec.rngFail then .next s
  else
    let x := { x with imp := some (Config.newModulus s.free), generating := false }
    .next { s with sec := { s.sec with part := s.sec.part.set p x }, free := s.free + 1 }

/-- RNG_FAIL (R454). -/
def execRngFail (s : State) : Out := .next ({ s with sec := { s.sec with rngFail := true } }.log 0x0802 [])

/-- LIFECYCLE_RETURN (R470, R471): only while custody is NONE; the identity and transport keys are destroyed. -/
def execLifecycleReturn (s : State) : Out :=
  if s.sec.custody ≠ .none then .next s else .next { s with sec := { s.sec with life := .returned, vendorKeys := false } }

/-! ### Reports (R467-R469) -/

/-- Codes of Tables 14.1, 10.7, 16.1 and 16.11. -/
def PrtState.code : PrtState → Nat
  | .free => 0
  | .creating => 1
  | .ready => 2
  | .active => 3
  | .frozen => 4
  | .tearing => 5
  | .queuedOn => 6
def TintState.code : TintState → Nat
  | .free => 0
  | .registering => 1
  | .cold => 2
  | .loading => 3
  | .hot => 4
  | .evicting => 5
  | .queuedOn => 6
  | .withdrawing => 7
  | .dormant => 8
def Custody.code : Custody → Nat
  | .none => 0
  | .held => 1
  | .wiping => 2
def Lifecycle.code : Lifecycle → Nat
  | .development => 0
  | .production => 1
  | .returned => 2

/-- SEC_LIFE (R475); its boot slot is that of the stage-2 loader. -/
def State.secLife (s : State) : Nat :=
  s.sec.life.code + 4 * b2n (s.sec.life = .development) + 8 * b2n (s.boot.stage = .recovery) + 16 * b2n (bitOf s.boot.running 0)

/-- SEC_CUST (R475). -/
def State.secCust (s : State) : Nat :=
  s.sec.custody.code + 4 * b2n s.sec.cdk.isSome + 8 * b2n s.sec.gk.isSome + 16 * b2n s.sec.gkPending.isSome + 32 * b2n s.sec.plateKey.isSome +
    256 * (match s.sec.gk with | some k => k.gen.toNat | none => 0) + 4096 * s.sec.pubs.length

/-- Digest of the custody key, or zero. -/
def State.custodyDigest (s : State) : Digest := match s.sec.custodyKey with | some k => keyDigest k | none => 0

/-- Manifest digest of the loaded plate, or zero. -/
def State.plateDigest (s : State) : Digest := match s.plate.plate with | some p => p.digest | none => 0

/-- The firmware entry of a component (Table 16.9). -/
def firmwareEntry (c : Nat) (x : Component5) : Blob :=
  leBytes 1 c ++ leBytes 3 0 ++ leBytes 4 x.version.toNat ++ leBytes 1 x.arb ++ leBytes 7 0 ++ digestBytes x.digest

/-- The entry of a partition (Table 16.9). -/
def State.partEntry (s : State) (p : Nat) : Blob :=
  let x := s.part p
  let tints := (s.tints.filter fun e => s.registered p e.1).length
  leBytes 1 x.state.code ++ leBytes 1 (b2n x.alloc.checked + 2 * b2n x.alloc.fullParam + 4 * b2n x.saved) ++ leBytes 2 x.alloc.fBanks ++
    leBytes 4 (x.alloc.seg.getD 0 0 / 4) ++ leBytes 2 x.alloc.slotCount ++ leBytes 2 x.alloc.sGib ++ leBytes 2 tints ++ leBytes 2 0

/-- Bytes 0 to 0x47F of a report (Table 16.9). -/
def State.reportHead (s : State) (form who total : Nat) (nonce : Blob) : Blob :=
  leBytes 4 0x54525041 ++ leBytes 1 form ++ leBytes 1 who ++ leBytes 2 0 ++ leBytes 4 total ++ leBytes 4 s.fnNat ++
    leBytes 8 s.tbm.tLast.toNat ++ leBytes 2 s.tbm.epoch.toNat ++ leBytes 6 0 ++ nonce ++ digestBytes (sha512 Config.identityCert) ++
    leBytes 16 Config.serial.toNat ++ leBytes 4 s.secLife ++ leBytes 4 s.secCust ++ leBytes 8 0 ++ digestBytes s.custodyDigest ++
    ((s.boot.comps.zipIdx).flatMap fun (e : Component5 × Nat) => firmwareEntry (e.2 + 1) e.1) ++
    ((List.range 32).flatMap fun p => if who = 32 || who = p then s.partEntry p else leBytes 16 0) ++ leBytes 16 0

/-- Sheets that a requester sees: by owner, the house last, then by slot (R469). -/
def State.reportSheets (s : State) (who : Nat) : List Blob :=
  s.player.store.filterMap fun e => match e.2 with
    | some x =>
      let o := e.1 / 64
      if who = 32 || o = who || o = 32 then
        some (leBytes 1 o ++ leBytes 1 (e.1 % 64) ++ leBytes 1 (b2n (x.kind = 1 || x.kind = 3)) ++ leBytes 1 0 ++ leBytes 2 x.sheetId.toNat ++ leBytes 2 0 ++
          digestBytes x.digest)
      else none
    | none => none

/-- Tints that a requester sees, in ascending ID (R469). -/
def State.reportTints (s : State) (who : Nat) : List Blob :=
  s.tints.filterMap fun e =>
    let x := e.2
    if x.state ≠ .free && (who = 32 || x.owner = who) then
      some (leBytes 2 e.1 ++ leBytes 2 x.gen.toNat ++ leBytes 1 x.state.code ++ leBytes 1 x.owner ++ leBytes 2 x.regGen.toNat ++ leBytes 8 0 ++ digestBytes x.digest)
    else none

/-- The key that a form 2 report carries: the requester's import key, or the transport key for the manager set. -/
def State.reportKey (s : State) (who : Nat) : Blob :=
  if who = 32 then beBytes 512 Config.transportKey.toNat
  else match (s.sec.part.getD who { imp := none, generating := false, tierH := none }).imp with
    | some m => beBytes 512 m.toNat
    | none => leBytes 512 0

/-- The part of a form 2 report behind its common fields (Table 16.10). -/
def State.reportTail (s : State) (who : Nat) : Blob :=
  let sh := s.reportSheets who
  let ts := s.reportTints who
  let ls := match s.plate.plate with
    | some p => if p.modified then p.layers.map fun (l : PlatePart) => digestBytes l.digest else []
    | none => []
  let flags := match s.plate.plate with | some p => 1 + 2 * b2n p.modified + 4 * b2n p.resident | none => 0
  digestBytes s.plateDigest ++ leBytes 1 flags ++ leBytes 1 0 ++ leBytes 2 ls.length ++ leBytes 2 sh.length ++ leBytes 2 ts.length ++ leBytes 56 0 ++
    s.reportKey who ++ sh.flatten ++ ts.flatten ++ ls.flatten

/-- A report of a form, without its signature, padded to a multiple of 64 bytes; the report's size is 512 more. -/
def State.report (s : State) (form who : Nat) (nonce : Blob) : Blob :=
  let tail := if form = 1 then [] else s.reportTail who
  let n := cdiv (0x480 + tail.length) 64 * 64
  padTo n (s.reportHead form who (n + 512) nonce ++ tail)

/-- ATTEST (R467-R469, R471): at the first tick after its observation; the report comes signed by the identity key. -/
def execAttest (k : ItemKey) (s : State) : Out :=
  match s.fresh k 0x40 with
  | none => .next s
  | some i =>
    if s.returned then .next (s.finish k St.notPermitted)
    else if !s.tbm.running || s.tbm.tLast.toNat ≤ i.obs.toNat then .next s
    else
      let body := s.report (i.field 0x10 1) k.set (leBytes 32 (i.field 0x20 32))
      let total := body.length + 512
      if i.field 0x14 4 < total then .next (s.finish k St.notPermitted)
      else
        let full := body ++ identitySign body s.free
        let s := { s with free := s.free + 1 }
        .next (s.finish k St.ok (resultOf (leBytes 8 total)) 0 [(i.field 0x18 8, full)])

end Sys2Proof.Machine
end

