-- ==== Sys2Proof/Machine/Spdm.lean ====
section
/-! DEFINITION. The SPDM responder, the MCTP endpoint and the PLDM sensors (R465, R466, R512, R531). The message layouts are those
of the named DMTF standards (PRESUMED, log entry 40). -/

namespace Sys2Proof.Machine

/-! ### Packets (R466, R531) -/

/-- MCTP packets of a message that answers the packet in `tx`: 64 bytes of body in each, the first byte naming the message type. -/
def State.packets (s : State) (msg : Blob) : List Blob :=
  let tx := s.sec.tx.getD []
  let n := max 1 (cdiv msg.length 64)
  (List.range n).map fun i =>
    let flags := 128 * b2n (i = 0) + 64 * b2n (i + 1 = n) + 16 * (i % 4) + leAt tx 3 1 % 8
    leBytes 1 1 ++ leBytes 1 (leAt tx 2 1) ++ leBytes 1 s.sec.eid.toNat ++ leBytes 1 flags ++ (msg.drop (64 * i)).take 64

/-- The packet area is filled from the queue when it is free. -/
def State.fillRx (s : State) : State :=
  match s.sec.rx, s.sec.rxQueue with
  | none, p :: ps => { s with sec := { s.sec with rx := some p, rxQueue := ps } }
  | _, _ => s

/-- A response leaves on the path of its request. -/
def State.respond (s : State) (path : MctpPath) (type : Nat) (msg : Blob) : State :=
  let s := { s with sec := { s.sec with response := some msg } }
  match path with
  | .smbus => s
  | .ucl => { s with sec := { s.sec with rxQueue := s.sec.rxQueue ++ s.packets (leBytes 1 type ++ msg) } }.fillRx

/-- The responder runs on VAUX; the UCL path needs main power too (R466). -/
def State.pathUp (s : State) (path : MctpPath) : Bool := s.pins.vaux && (path = .smbus || s.pins.mainOn)

/-- MCTP_TX (R466, R475): the responder takes the packet in SEC_MCTP_TXw; tx_go clears. -/
def execMctpTx (s : State) : Out :=
  let n := s.regFld Reg.secMctpCtrl 0 7
  if n < 5 || 68 < n || !s.pathUp .ucl then .next s
  else .next { s with sec := { s.sec with tx := some (((List.range 20).flatMap fun w => leBytes 4 (s.reg (Reg.secMctpTx + 4 * w)).toNat).take n) } }

/-- MCTP_RX_RELEASE (R466, R475): the packet is released, and the next one takes its place. -/
def execMctpRxRelease (s : State) : Out := .next ({ s with sec := { s.sec with rx := none } }.fillRx)

/-- SMBUS_PACKET (R531): a packet to another address is not answered, and one whose PEC fails is discarded; else its MCTP packet is
taken. The bytes run from the command code to the PEC. -/
def execSmbusPacket (addr : BitVec 7) (bytes : Blob) (s : State) : Out :=
  let own := 0x64 + s.pins.smbAddr.toNat
  let body := bytes.dropLast
  if addr.toNat ≠ own || !s.pins.vaux || bytes.length < 2 then .next s
  else if crc8 (leBytes 1 (2 * addr.toNat) ++ body) ≠ bytes.getLastD 0 then .next s
  else .next { s with sec := { s.sec with tx := some (body.drop 3) } }

/-! ### SPDM (R465, R471) -/

/-- An SPDM message of version 1.2. -/
def spdm (code p1 p2 : Nat) (body : Blob) : Blob := leBytes 1 0x12 ++ leBytes 1 code ++ leBytes 1 p1 ++ leBytes 1 p2 ++ body

/-- ERROR response: 0x01 invalid request, 0x04 unexpected request, 0x41 version mismatch, 0x05 unspecified. -/
def spdmError (code : Nat) : Blob := spdm 0x7F code 0 []

/-- A response of a code has been given since the last GET_VERSION. -/
def State.spoken (s : State) (code : Nat) : Bool := s.sec.transcript.any fun m => leAt m 1 1 = code

/-- A request is answered: both messages join the transcript. -/
def State.answerSpdm (s : State) (path : MctpPath) (req msg : Blob) : State :=
  { s with sec := { s.sec with transcript := s.sec.transcript ++ [req, msg] } }.respond path 5 msg

/-- An SPDM request other than GET_VERSION: a returned device, a wrong version or a request out of order is answered with an error. -/
def State.spdmRequest (s : State) (path : MctpPath) (code len after : Nat) (req : Blob) (f : State → State × Blob) : State :=
  if leAt req 1 1 ≠ code || !s.pathUp path then s
  else if s.returned then s.respond path 5 (spdmError 0x05)
  else if leAt req 0 1 ≠ 0x12 then s.respond path 5 (spdmError 0x41)
  else if !s.spoken after then s.respond path 5 (spdmError 0x04)
  else if req.length < len then s.respond path 5 (spdmError 0x01)
  else
    let (s, msg) := f s
    if leAt msg 1 1 = 0x7F then s.respond path 5 msg else s.answerSpdm path req msg

/-- GET_VERSION (R465): SPDM 1.2 only; the transcript begins anew. -/
def execGetVersion (path : MctpPath) (req : Blob) (s : State) : Out :=
  if leAt req 1 1 ≠ 0x84 || !s.pathUp path then .next s
  else
    let msg := leBytes 1 0x10 ++ leBytes 1 0x04 ++ leBytes 2 0 ++ leBytes 1 0 ++ leBytes 1 1 ++ leBytes 2 0x1200
    .next ({ s with sec := { s.sec with transcript := [] } }.answerSpdm path req msg)

/-- GET_CAPABILITIES (R465): CERT_CAP, CHAL_CAP and signed MEAS_CAP; the time exponent and the buffer sizes are free. -/
def execGetCapabilities (path : MctpPath) (req : Blob) (s : State) : Out :=
  .next (s.spdmRequest path 0xE1 4 0x04 req fun s =>
    let (b, s) := s.freeBytes 9
    (s, spdm 0x61 0 0 (leBytes 1 0 ++ b.take 1 ++ leBytes 2 0 ++ leBytes 4 0x16 ++ b.drop 1)))

/-- NEGOTIATE_ALGORITHMS (R465): TPM_ALG_RSAPSS_4096 and TPM_ALG_SHA_512, where the request offers them. -/
def execNegotiateAlgorithms (path : MctpPath) (req : Blob) (s : State) : Out :=
  .next (s.spdmRequest path 0xE3 32 0x61 req fun s =>
    let asym := leAt req 8 4 / 0x40 % 2
    let hash := leAt req 12 4 / 0x04 % 2
    let meas := leAt req 6 1 % 2
    (s, spdm 0x63 0 0 (leBytes 2 36 ++ leBytes 1 meas ++ leBytes 1 0 ++ leBytes 4 (0x08 * meas) ++ leBytes 4 (0x40 * asym) ++ leBytes 4 (0x04 * hash) ++
      leBytes 12 0 ++ leBytes 4 0)))

/-- GET_DIGESTS (R465): slot 0 alone holds a chain. -/
def execGetDigests (path : MctpPath) (req : Blob) (s : State) : Out :=
  .next (s.spdmRequest path 0x81 4 0x63 req fun s => (s, spdm 0x01 0 1 (digestBytes (sha512 Config.certChain))))

/-- GET_CERTIFICATE (R465): a portion of slot 0's chain. -/
def execGetCertificate (path : MctpPath) (req : Blob) (s : State) : Out :=
  .next (s.spdmRequest path 0x82 8 0x63 req fun s =>
    let off := leAt req 4 2
    let n := min (leAt req 6 2) (Config.certChain.length - off)
    if leAt req 2 1 % 16 ≠ 0 || Config.certChain.length ≤ off then (s, spdmError 0x01)
    else (s, spdm 0x02 0 0 (leBytes 2 n ++ leBytes 2 (Config.certChain.length - off - n) ++ slice Config.certChain off n)))

/-- The value of a measurement index (Table 16.8). While main power is off, 1-7 are the last values and 8 is zero (R466). -/
def State.measValue (s : State) (i : Nat) : Blob :=
  if i = 9 then beBytes 512 Config.transportKey.toNat
  else if !s.pins.mainOn then (if i = 8 then leBytes 64 0 else s.sec.lastMeas.getD (i - 1) [])
  else if i ≤ 5 then digestBytes (s.boot.comps.getD (i - 1) { version := 0, arb := 0, digest := 0 }).digest
  else if i = 6 then leBytes 4 s.secLife
  else if i = 7 then digestBytes s.custodyDigest
  else digestBytes s.plateDigest

/-- A measurement block; raw for indices 6 and 9. Its type is free: the spec names none. -/
def State.measBlock (s : State) (i : Nat) : Blob × State :=
  let v := s.measValue i
  let (w, s) := s.draw32
  let t := 128 * b2n (i = 6 || i = 9) + w.toNat % 128
  (leBytes 1 i ++ leBytes 1 1 ++ leBytes 2 (v.length + 3) ++ leBytes 1 t ++ leBytes 2 v.length ++ v, s)

/-- Measurement blocks of a list of indices. -/
def State.measBlocks (s : State) (is_ : List Nat) : Blob × State :=
  is_.foldl (fun (a : Blob × State) i =>
    let (b, s) := a.2.measBlock i
    (a.1 ++ b, s)) ([], s)

/-- A signature over a transcript with its SPDM 1.2 context. -/
def State.signSpdm (s : State) (context : String) (msgs : List Blob) : Blob × State :=
  let pre := (List.replicate 4 (ascii "dmtf-spdm-v1.2.*")).flatten
  let ctx := ascii context
  let m := pre ++ leBytes (36 - ctx.length) 0 ++ ctx ++ digestBytes (sha512 msgs.flatten)
  (identitySign m s.free, { s with free := s.free + 1 })

/-- CHALLENGE (R465): the digest of the chain, a nonce, a summary of the measurements where one is asked for, and the signature over
the transcript. What the summary of the trusted computing base takes in is free. -/
def execChallenge (path : MctpPath) (req : Blob) (s : State) : Out :=
  .next (s.spdmRequest path 0x83 36 0x63 req fun s =>
    let kind := leAt req 3 1
    if leAt req 2 1 % 16 ≠ 0 || !(kind = 0 || kind = 1 || kind = 0xFF) then (s, spdmError 0x01)
    else
      let (nonce, s) := s.freeBytes 32
      let (sum, s) := if kind = 0 then ([], s)
        else if kind = 1 then s.freeBytes 64
        else
          let (b, s) := s.measBlocks [1, 2, 3, 4, 5, 6, 7, 8, 9]
          (digestBytes (sha512 b), s)
      let body := spdm 0x03 0 1 (digestBytes (sha512 Config.certChain) ++ nonce ++ sum ++ leBytes 2 0)
      let (sig, s) := s.signSpdm "responder-challenge_auth signing" (s.sec.transcript ++ [req, body])
      (s, body ++ sig))

/-- GET_MEASUREMENTS (R465): the number of indices, one block, or all; any other index is answered with an error. The signature covers
the messages since GET_VERSION. -/
def execGetMeasurements (path : MctpPath) (req : Blob) (s : State) : Out :=
  .next (s.spdmRequest path 0xE0 4 0x63 req fun s =>
    let signed := leAt req 2 1 % 2 = 1
    let op := leAt req 3 1
    if (decide (9 < op) && op ≠ 0xFF) || (signed && decide (req.length < 37)) then (s, spdmError 0x01)
    else
      let is_ := if op = 0 then [] else if op = 0xFF then [1, 2, 3, 4, 5, 6, 7, 8, 9] else [op]
      let (rec_, s) := s.measBlocks is_
      let (nonce, s) := s.freeBytes 32
      let body := spdm 0x60 (if op = 0 then 9 else 0) 0 (leBytes 1 is_.length ++ leBytes 3 rec_.length ++ rec_ ++ nonce ++ leBytes 2 0)
      if signed then
        let (sig, s) := s.signSpdm "responder-measurements signing" (s.sec.transcript ++ [req, body])
        (s, body ++ sig)
      else (s, body))

/-! ### MCTP control (R466) -/

/-- An MCTP control request of a command code is answered with a completion code and data. -/
def State.mctpControl (s : State) (path : MctpPath) (cmd : Nat) (req : Blob) (f : State → State × Nat × Blob) : State :=
  if leAt req 1 1 ≠ cmd || leAt req 0 1 < 128 || !s.pathUp path then s
  else
    let (s, cc, data) := f s
    s.respond path 0 (leBytes 1 (leAt req 0 1 % 32) ++ leBytes 1 cmd ++ leBytes 1 cc ++ data)

/-- SET_ENDPOINT_ID (R466). -/
def execSetEndpointId (path : MctpPath) (req : Blob) (s : State) : Out :=
  .next (s.mctpControl path 0x01 req fun s =>
    let e := leAt req 3 1
    if 2 ≤ leAt req 2 1 % 4 || e = 0 || e = 0xFF then (s, 0x02, [])
    else ({ s with sec := { s.sec with eid := BitVec.ofNat 8 e } }, 0, leBytes 1 0 ++ leBytes 1 e ++ leBytes 1 0))

/-- GET_ENDPOINT_ID (R466). -/
def execGetEndpointId (path : MctpPath) (req : Blob) (s : State) : Out :=
  .next (s.mctpControl path 0x02 req fun s => (s, 0, leBytes 1 s.sec.eid.toNat ++ leBytes 2 0))

/-- GET_MCTP_VERSION_SUPPORT (R466): which version of each is free; a type that the endpoint does not have is refused. -/
def execGetMctpVersionSupport (path : MctpPath) (req : Blob) (s : State) : Out :=
  .next (s.mctpControl path 0x04 req fun s =>
    let t := leAt req 2 1
    if t = 0xFF || t = 0 || t = 5 then
      let (b, s) := s.freeBytes 4
      (s, 0, leBytes 1 1 ++ b)
    else (s, 0x80, []))

/-- GET_MESSAGE_TYPE_SUPPORT (R466): SPDM, besides the control messages. -/
def execGetMessageTypeSupport (path : MctpPath) (req : Blob) (s : State) : Out :=
  .next (s.mctpControl path 0x05 req fun s => (s, 0, leBytes 1 1 ++ leBytes 1 5))

/-! ### PLDM (R512) -/

/-- A sensor has a value: with main power off only 9 and 19 have one. -/
def State.sensorUp (s : State) (n : Nat) : Bool := s.pins.mainOn || n = 9 || n = 19

/-- PLDM_REQUEST (R512): a reading of a numeric sensor, as a signed 32-bit number; an unavailable one says so. -/
def execPldmRequest (path : MctpPath) (req : Blob) (s : State) : Out :=
  if leAt req 1 1 ≠ 0x02 || leAt req 2 1 ≠ 0x11 || leAt req 0 1 < 128 || !s.pathUp path then .next s
  else
    let n := leAt req 3 2
    let head := leBytes 1 (leAt req 0 1 % 32) ++ leBytes 1 2 ++ leBytes 1 0x11
    if n < 1 || 24 < n then .next (s.respond path 1 (head ++ leBytes 1 0x80))
    else
      let up := s.sensorUp n
      let v := if up then s.pwr.sensors.getD (n - 1) 0 else 0
      .next (s.respond path 1 (head ++ leBytes 1 0 ++ leBytes 1 5 ++ leBytes 1 (if up then 0 else 2) ++ leBytes 4 0 ++ leBytes 4 (intWord v).toNat))

/-- SENSOR_UPDATE (R512): every 1 ms; with main power off only sensors 9 and 19 update. -/
def execSensorUpdate (values : List Int) (s : State) : Out :=
  if values.length ≠ 24 || !s.pins.vaux then .next s
  else
    let vs := (values.zip s.pwr.sensors).zipIdx.map fun (e : (Int × Int) × Nat) => if s.sensorUp (e.2 + 1) then e.1.1 else e.1.2
    .next { s with pwr := { s.pwr with sensors := vs } }

end Sys2Proof.Machine
end

