-- ==== Sys2Proof/Machine/Reel.lean ====
section
/-! DEFINITION. Reel links (chapter 15): port states, scheduled transfers, verdicts, distribution and bulk flits. -/

namespace Sys2Proof.Machine

/-! ### Port states (R423, R424) -/

/-- Changes port `n`. -/
def State.modPort (s : State) (n : Nat) (f : Port → Port) : State := s.setPort n (f (s.port n))

/-- A bulk transfer ends with a code; go clears (R444). -/
def State.endBulk (s : State) (n code : Nat) : State :=
  let s := s.modPort n fun p => { p with bulk := none, use := .free }
  let s := s.setFld Reg.reelBulkCtrl 31 1 0
  { s with reel := { s.reel with bulkCode := BitVec.ofNat 8 code } }

/-- What ran on a port in DIST or BULK use ends as its port turns GREY: a load with SOURCE, a bulk transfer with ABORTED. -/
def State.dropUse (s : State) (n : Nat) : State :=
  let s := match (s.port n).dist with
    | some d => if d.receiver then s.endPlateLoad 9 else s.endDist n
    | none => s
  if (s.port n).bulk.isSome then s.endBulk n St.aborted else s

/-- A port turns GREY (R424, R485): cause 1 CRC limit, 2 miss limit, 3 request, 4 partner lost. -/
def State.fenceReelPort (s : State) (n cause : Nat) : State :=
  let s := s.dropUse n
  let s := s.modPort n fun p => { p with state := .grey, replyDue := false, requestDue := false }
  let s := s.raise Reg.reelStatus 4
  let s := s.logUnit 0x0701 0xFF 4 n [cause]
  s.countFence 4 n 0xFF false

/-- A limit of REEL_CTRL; 0 is treated as 1. -/
def State.reelLimit (s : State) (lo : Nat) : Nat := max 1 (s.regFld Reg.reelCtrl lo 8)

/-- REEL_PORT_FENCE (R424): a limit is reached within the span, or an UP port has lost its partner. -/
def execReelPortFence (port : Nat) (s : State) : Out :=
  let p := s.port port
  if 7 < port || p.state ≠ .up then .next s
  else if s.reelLimit 0 ≤ p.winCrc.toNat then .next (s.fenceReelPort port 1)
  else if s.reelLimit 8 ≤ p.winMiss.toNat then .next (s.fenceReelPort port 2)
  else .next (s.fenceReelPort port 4)

/-- REEL_FENCE_REQ (R424, R447). -/
def execReelFenceReq (port : Nat) (s : State) : Out :=
  if 7 < port || (s.port port).state = .grey then .next s else .next (s.fenceReelPort port 3)

/-- A training that has lasted 20 ms without success is over: the port is DOWN (R423). -/
def Port.trainOver (p : Port) (now : Nat) : Bool :=
  match p.trainTb with
  | some t => p.state = .training && decide (t + 20000000 < now)
  | none => false

/-- A DOWN port may train: 100 ms have passed since its last training began (R423). -/
def Port.mayTrain (p : Port) (now : Nat) : Bool :=
  (p.state = .down || p.trainOver now) && match p.trainTb with
    | some t => decide (t + 100000000 ≤ now)
    | none => true

/-- PORT_TRAIN_RETRY (R423): every 100 ms a DOWN port trains. -/
def execPortTrainRetry (port : Nat) (s : State) : Out :=
  if 7 < port || !(s.port port).mayTrain s.now then .next s
  else .next (s.modPort port fun p => { p with state := .training, trainTb := some s.now })

/-- PORT_TRAINED (R64, R423): within 20 ms the port enters ALIGN and asks for the delay exchange; no measurement has completed since this
link-up. -/
def execPortTrained (port : Nat) (lanes : BitVec 4) (s : State) : Out :=
  if (s.port port).state ≠ .training || 7 < port || 8 < lanes.toNat || (s.port port).trainOver s.now then .next s
  else
    let s := { s with tbm := { s.tbm with bcnDelay := s.tbm.bcnDelay.set port ((s.tbm.bcnDelay.getD port (0, false)).1, false) } }
    .next (s.modPort port fun p => { p with state := .align, lanes := lanes, requestDue := true, askedFn := none })

/-! ### The delay exchange (R64, R436) -/

/-- 1,024 frames will have passed at the next tick since the port's last request (R64). -/
def Port.askAgain (p : Port) (fn : BitVec 32) : Bool :=
  match p.askedFn with
  | some n => decide (1023 ≤ (fn - n).toNat)
  | none => true

/-- DELAY_EXCHANGE (R64): every 1,024 frames the port's request goes out at the next tick. -/
def execDelayExchange (port : Nat) (s : State) : Out :=
  if 7 < port || !(s.port port).carries || !(s.port port).askAgain s.tbm.fn then .next s
  else .next (s.modPort port fun p => { p with requestDue := true })

/-- A DELAY flit with its three times. -/
def delayFlitOf (fn t1 t2 t3 : Nat) : Blob := mkFlit 4 3 0 0 fn (leBytes 8 t1 ++ leBytes 8 t2 ++ leBytes 8 t3)

/-- One-way delay of an exchange: to the nearest ns, ties up. -/
def oneWayDelay (t1 t2 t3 t4 : Nat) : Int := Int.fdiv ((t4 - t1 : Int) - (t3 - t2 : Int) + 1) 2

/-- At a tick: the request and the reply that are due leave in the beacon reserve (R436, R437). -/
def State.sendDelays (s : State) : State :=
  s.each (List.range 8) fun s n =>
    let p := s.port n
    let t := s.tbm.tLast.toNat
    let s := if p.requestDue then (s.modPort n fun p => { p with requestDue := false, askedFn := some s.tbm.fn }).sendFlits n [delayFlitOf s.fnNat t 0 0] else s
    if p.replyDue then (s.modPort n fun p => { p with replyDue := false }).sendFlits n [delayFlitOf s.fnNat p.t1.toNat p.t2.toNat t] else s

/-! ### Flits as they arrive (R421, R422) -/

/-- A CRC failure that no transfer in its window holds back: it counts at once, and in DIST and BULK use not towards the limit. -/
def State.countCrc (s : State) (n k : Nat) : State :=
  if k = 0 then s
  else
    let s := s.modPort n fun p =>
      { p with crc := satAdd 32 p.crc k, winCrc := if p.use = .free then satAdd 16 p.winCrc k else p.winCrc }
    (s.raise Reg.reelStatus 0).detect 0x0B false 4 n

/-- Changes the open transfer of a stream on a port, if there is one. -/
def State.modXfer (s : State) (n stream : Nat) (f : Transfer → Transfer) : State :=
  s.modPort n fun p => { p with xfers := p.xfers.map fun (t : Transfer) => if t.stream.toNat = stream then f t else t }

/-- The open transfer of a stream on a port. -/
def State.xfer (s : State) (n stream : Nat) : Option Transfer := (s.port n).xfers.find? fun t => t.stream.toNat = stream

/-- A flit with a wrong CRC is discarded; one whose stream names an open transfer counts when that is judged (R433), and is relayed
before its CRC is known (R432). -/
def State.crcFailure (s : State) (n : Nat) (f : Blob) : State :=
  match s.xfer n (flitStream f) with
  | some t =>
    let s := s.modXfer n (flitStream f) fun t => { t with crcs := t.crcs + 1, bad := true }
    match t.out with
    | some o => s.sendFlits o [f]
    | none => s
  | none => s.countCrc n 1

/-- A flit arrives on a port: it is counted while the port is UP, checked, and taken up by `act` where it has the kind expected and
the port accepts it. A port in ALIGN takes DELAY flits only. -/
def State.arrive (s : State) (n kind : Nat) (f : Blob) (act : State → State) : State :=
  let p := s.port n
  if 7 < n || !p.carries then s
  else
    let s := if p.state = .up then s.setPort n { p with rx := p.rx + 1 } else s
    if !flitCrcOk f then s.crcFailure n f
    else if flitKind f ≠ kind || decide (4 ≤ flitFlags f) || (p.state = .align && kind ≠ 4) then s
    else act s

/-- IDLE_FLIT (R422): it is checked and discarded. -/
def execIdleFlit (port : Nat) (flit : Blob) (s : State) : Out := .next (s.arrive port 0 flit id)

/-- DELAY_FLIT (R64, R423, R436): a request is answered at the next tick; a reply gives the port's delay, and an aligning port is
then UP. -/
def execDelayFlit (port : Nat) (flit : Blob) (arrival : BitVec 64) (s : State) : Out :=
  .next (s.arrive port 4 flit fun s =>
    let pl := flitPayload flit
    let t1 := leAt pl 0 8
    let t2 := leAt pl 8 8
    let t3 := leAt pl 16 8
    if t2 = 0 && t3 = 0 then s.modPort port fun p => { p with t1 := BitVec.ofNat 64 t1, t2 := arrival, replyDue := true }
    else
      let d := oneWayDelay t1 t2 t3 arrival.toNat
      let s := { s with tbm := { s.tbm with
        bcnDelay := s.tbm.bcnDelay.set port (BitVec.ofInt 16 d, true), bcnOffset := s.tbm.bcnOffset.set port ((t2 : Int) - t1 - d) } }
      s.modPort port fun p => { p with state := if p.state = .align then .up else p.state })

/-! ### L-track cues (R426-R435) -/

/-- The delay that a descriptor assumes on its port_in holds (R430). -/
def State.delayOk (s : State) (d : Shot) : Bool :=
  d.lOp = 1 || decide (((d.delayNs : Int) - s.compensation (.beacon d.portIn)).natAbs ≤ 4)

/-- The descriptor's ports are UP and its delay holds (R430). -/
def State.linkOk (s : State) (d : Shot) : Bool :=
  (!d.transmits || (s.port d.portOut).state = .up) && (d.lOp = 1 || (s.port d.portIn).state = .up) && s.delayOk d

/-- An L cue of an op starts (R426): it neither slips nor is shed. In a segment whose sheet is fenced, and in the safe state, a cue
that transmits sends one VOID with reason 1 in place of its flits (R434), and a RECV still accepts its flits (R95). In a fallback sheet a cue on a port that fails R430 is skipped. -/
def State.playL (s : State) (o i op : Nat) (act : State → Cue → Shot → State) : State :=
  match s.playing o with
  | none => s
  | some x =>
    match x.cue? .l i with
    | none => s
    | some c =>
      let p := s.ctx o
      let d := x.shot c
      if p.state = .idle || p.gone .l i || !p.selected c || d.lOp ≠ op then s
      else
        let s := s.advance (s.lTb o c.offset)
        if p.state = .void || s.saf.safe then
          if d.transmits then (s.sendFlits d.portOut [s.voidFlit d.stream 1]).setCtx o { p with skipped := p.skipped ++ [(.l, i)] }
          else if s.saf.safe then s
          else act (s.markStarted o .l i c.offset) c d
        else if p.fallback && !s.linkOk d then s.setCtx o { p with skipped := p.skipped ++ [(.l, i)] }
        else
          let s := s.markStarted o .l i c.offset
          match c.fault .l with
          | some why => s.fenceSheet o why
          | none => act s c d

/-- The IV of a scheduled transfer (R461). -/
def State.sendIv (s : State) (owner : Nat) (k : GroupKey) : Blob :=
  leBytes 1 (s.regFld Reg.reelGroup 0 4) ++ leBytes 1 owner ++ leBytes 2 k.boots.toNat ++ leBytes 8 s.reel.sends.toNat

/-- The additional data of a scheduled transfer (R461). -/
def linkAad (stream fn bytes : Nat) : Blob := leBytes 2 stream ++ leBytes 4 fn ++ leBytes 4 bytes

/-- A SEND's flits: its data under the group key, and the TAG flit behind them (R428, R461). -/
def State.transmit (s : State) (o : Nat) (d : Shot) (k : GroupKey) (data : Blob) : State :=
  let n := cdiv d.lBytes 240
  let iv := s.sendIv o k
  let (ct, tag) := gcmSeal k.key iv (linkAad d.stream s.fnNat d.lBytes) (padTo (240 * n) data)
  let flits := (List.range n).map fun q => mkFlit 1 (b2n (q = 0)) d.stream q s.fnNat (slice ct (240 * q) 240)
  let tagFlit := mkFlit 5 2 d.stream n s.fnNat (leBytes 1 0x10 ++ leBytes 1 k.gen.toNat ++ iv ++ tag)
  { s.sendFlits d.portOut (flits ++ [tagFlit]) with reel := { (s.sendFlits d.portOut (flits ++ [tagFlit])).reel with sends := s.reel.sends + 1 } }

/-- SEND (R259, R421, R426, R428, R434, R438, R461). -/
def execSend (owner idx : Nat) (s : State) : Out :=
  .next (s.playL owner idx 1 fun s c d =>
    let place := s.resolve (s.cueBinding owner c) d.lRef
    -- shared banks are read by A and V accesses and by the insert lane only (R259)
    if !s.accessOk owner true place d.lBytes then s.fenceSheet owner 4
    else
      let s := s.shotRead owner c (place.run d.lBytes)
      match s.sec.gk with
      | some k => s.transmit owner d k (s.readAt place d.lBytes)
      | none => s)

/-- A RECV or PASS opens its transfer (R428, R432). -/
def State.openXfer (s : State) (o i : Nat) (c : Cue) (d : Shot) (writes : Bool) (out : Option Nat) : State :=
  let place := s.resolve (s.cueBinding o c) d.lRef
  if writes && !s.accessOk o true place d.lBytes && (s.ctx o).state ≠ .void then s.fenceSheet o 4
  else
    let dest := if writes then (match place with | .at_ a | .inSlot a _ => some a | .unbound => none) else none
    let dest := if (s.ctx o).state = .void then none else dest
    let t : Transfer := { owner := o, cue := i, stream := BitVec.ofNat 16 d.stream, bytes := d.lBytes, dest := dest, out := out, bay := d.lBay,
                          got := [], crcs := 0, bad := false, void := false, sealed := true, held := [], tag := none }
    s.modPort d.portIn fun p => { p with xfers := p.xfers ++ [t] }

/-- RECV (R426, R428). -/
def execRecv (owner idx : Nat) (s : State) : Out :=
  .next (s.playL owner idx 2 fun s c d => s.openXfer owner idx c d true none)

/-- PASS (R432): with local set it writes the data too. -/
def execPass (owner idx : Nat) (s : State) : Out :=
  .next (s.playL owner idx 3 fun s c d => s.openXfer owner idx c d d.lLocal (some d.portOut))

/-! ### Group verdicts (R438-R440) -/

/-- A tint is trained by a group: the group has several members, and a loaded sheet of its owner carries its verdict (R438). -/
def State.groupTrained (s : State) (t : Nat) : Bool :=
  decide (1 < s.regFld Reg.reelGroup 4 5) && s.player.store.any fun e => e.1 / 64 = (s.tintOf t).owner && match e.2 with
    | some x => x.descs.any fun (d : Shot) => d.f 0 1 = 3 && d.lOp = 4 && d.lTint = t
    | none => false

/-- The verdict of a tint's present step. -/
def State.verdictOf (s : State) (t : Nat) : Verdict :=
  let k := s.stepK t
  match s.reel.verdicts.find? fun v => v.tint = t && v.k = k with
  | some v => v
  | none => { tint := t, k := k, t := 0, ok := false, recorded := false, fails := 0, cues := 0, seen := false, own := false, lost := false }

/-- Changes the verdict of a tint. -/
def State.setVerdict (s : State) (v : Verdict) : State :=
  { s with reel := { s.reel with verdicts := (s.reel.verdicts.filter fun w => w.tint ≠ v.tint) ++ [v] } }

/-- The VERDICT flit (R439). -/
def verdictFlit (stream fn : Nat) (v : Verdict) : Blob :=
  mkFlit 1 3 stream 0 fn (leBytes 2 v.tint ++ leBytes 4 v.k.toNat ++ leBytes 4 v.t.toNat ++ leBytes 1 (b2n v.ok))

/-- VERDICT (R434, R439): the origin starts a pass, the first with its own T and ok, the second with the totals; every other device
waits for the flit. -/
def execVerdict (owner idx : Nat) (s : State) : Out :=
  .next (s.playL owner idx 4 fun s _ d =>
    let t := d.lTint
    let v := s.verdictOf t
    let v := { v with cues := v.cues + 1, seen := false }
    let first := v.cues % 2 = 1
    let v := if first then { v with own := !s.reel.badTints.contains t, recorded := false, lost := false } else v
    if !d.lOrigin then s.setVerdict v
    else
      let v := if first then { v with t := BitVec.ofNat 32 (s.tintOf t).train.cur.targets, ok := v.own }
        else { v with ok := v.ok && v.recorded, recorded := true }
      (s.setVerdict v).sendFlits d.portOut [verdictFlit d.stream s.fnNat v])

/-- Open L cues of an op whose port_in is a port and whose stream matches. -/
def State.openL (s : State) (op n stream : Nat) : List Shot :=
  (List.range 33).flatMap fun o => match s.playing o with
    | none => []
    | some x => ((s.ctx o).started.filter fun e => e.1 = .l && !(s.ctx o).ended.contains (.l, e.2.1)).filterMap fun e =>
        match x.cue? .l e.2.1 with
        | some c => let d := x.shot c; if d.lOp = op && d.portIn = n && d.stream = stream then some d else none
        | none => none

/-- A VERDICT flit reaches a device (R439): in the first pass it adds its T and ANDs its ok, in the second it records the totals. -/
def State.takeVerdict (s : State) (d : Shot) (f : Blob) : State :=
  let pl := flitPayload f
  let t := d.lTint
  let v := s.verdictOf t
  let total := BitVec.ofNat 32 (leAt pl 6 4)
  let ok := leAt pl 10 1 = 1
  if leAt pl 0 2 ≠ t || leAt pl 2 4 ≠ v.k.toNat || v.seen then s
  else if d.lOrigin then
    -- the pass has come round
    if v.cues % 2 = 1 then s.setVerdict { v with t := total, ok := ok, recorded := true, seen := true } else s.setVerdict { v with seen := true }
  else if v.cues % 2 = 1 then
    let w := { v with t := total + BitVec.ofNat 32 (s.tintOf t).train.cur.targets, ok := ok && v.own, seen := true }
    (s.setVerdict w).sendFlits d.portOut [verdictFlit d.stream s.fnNat w]
  else
    let w := { v with t := total, ok := ok, recorded := true, seen := true }
    (s.setVerdict w).sendFlits d.portOut [verdictFlit d.stream s.fnNat w]

/-- TINT_DIVERGED (R440): no second-pass verdict came although this device's own ok was 1. -/
def execTintDiverged (t : Nat) (s : State) : Out :=
  let v := s.verdictOf t
  let x := s.tintOf t
  if !v.lost || !v.own || x.state = .free || x.diverged || s.saf.safe then .next s
  else
    let s := s.setTint t { x with diverged := true, train.paused := true }
    let s := ((s.trainLog t 8 0).event x.owner 5 0 t 0 x.gen.toNat 0).raise Reg.reelStatus 6
    let pend := s.openItems fun k i => k.set = x.owner && i.op = 3 && i.tTint = t && i.phase = .waiting
    .next (s.finishAll pend St.notPermitted)

/-! ### DATA, VOID and TAG of scheduled transfers (R428, R432, R433, R461) -/

/-- A DATA flit that matches nothing open is discarded. -/
def State.stray (s : State) (n : Nat) : State :=
  (s.modPort n fun p => { p with stray := satAdd 32 p.stray 1 }).raise Reg.reelStatus 3

/-- A DATA flit of an open RECV or PASS. -/
def State.takeData (s : State) (n : Nat) (t : Transfer) (f : Blob) : State :=
  let s := match t.out with | some o => s.sendFlits o [f] | none => s
  let q := flitSeq f
  if flitFn f ≠ s.fnNat then s.modXfer n (flitStream f) fun t => { t with bad := true }
  else s.modXfer n (flitStream f) fun t =>
    { t with got := if t.got.contains q then t.got else t.got ++ [q], held := (t.held.filter fun h => h.1 ≠ q) ++ [(q, flitPayload f)] }

/-! ### Distribution (R441-R443, R445) -/

/-- The ranges of a stream that a receiver lacks at the end of a pass go back in a NACK (R442, R445). -/
def State.askMissing (s : State) (n stream total : Nat) : State :=
  match (s.port n).dist with
  | none => s
  | some d =>
    let rs := missingRanges total (d.seqs stream)
    if rs.isEmpty then s
    else (s.setPort n { s.port n with dist := some { d with since := some s.now } }).sendFlits n [nackFlit stream s.fnNat rs]

/-- The manifest has come whole: the checks of R283 after PRESENT. -/
def State.manifestArrived (s : State) (n : Nat) (last : Nat) : State :=
  match (s.port n).dist, s.plate.asking with
  | some d, some _ =>
    let total := last + 1
    if !(missingRanges total (d.seqs strManifest)).isEmpty then s
    else
      let m := d.assemble strManifest (240 * total)
      let m := m.take (sigOffset m + 512)
      let s := { s with plate := { s.plate with asking := none } }
      let s := s.setPort n { s.port n with dist := some { d with got := d.got.filter fun g => g.1 ≠ strManifest } }
      s.takeManifest m (some n)
  | _, _ => s

/-- A DATA flit on a port that receives a plate: it is relayed, kept, and at the last flit of a pass what is missing is asked for. -/
def State.takeDist (s : State) (n : Nat) (d : Dist) (f : Blob) : State :=
  let s := match d.relay with
    | some r => if (s.port r).use = PortUse.dist then s.sendFlits r [f] else s
    | none => s
  let st := flitStream f
  let q := flitSeq f
  let got := if d.got.any fun g => g.1 = st && g.2.1 = q then d.got else d.got ++ [(st, q, flitPayload f)]
  let s := s.setPort n { s.port n with dist := some { d with got := got, since := none } }
  if flitFlags f / 2 % 2 = 0 then s
  else if st = strManifest then (s.askMissing n st (q + 1)).manifestArrived n q
  else match s.plate.load with
    | some l => s.askMissing n st (cdiv (l.plate.streamBytes st) 240)
    | none => s

/-! ### Bulk transfers (R444, R445) -/

/-- The receiver of a bulk transfer has every flit: it says so, and both ends end with OK. -/
def State.bulkReceived (s : State) (n bytes : Nat) : State :=
  let s := s.sendFlits n [controlFlit strBulk s.fnNat (leBytes 1 7 ++ leBytes 1 0 ++ [0, 0] ++ leBytes 8 bytes)]
  let s := { s with reel := { s.reel with bulkDone := BitVec.ofNat 32 (bytes / 64) } }
  s.endBulk n St.ok

/-- A bulk DATA flit is written to the host buffer; at the last flit of a pass the receiver asks for what is missing, or is done. -/
def State.takeBulk (s : State) (n : Nat) (b : Bulk) (f : Blob) : State :=
  match b.offered with
  | none => s
  | some len =>
    let q := flitSeq f
    let total := cdiv len 240
    if b.tx || !b.accepted || total ≤ q then s
    else
      let s := s.hostWrite (b.addr.toNat + 240 * q) ((flitPayload f).take (len - 240 * q))
      let b := { b with got := if b.got.contains q then b.got else b.got ++ [q], since := none }
      let s := { s with reel := { s.reel with bulkDone := BitVec.ofNat 32 (min (b.got.length * 240) len / 64) } }
      let s := s.setPort n { s.port n with bulk := some b }
      if flitFlags f / 2 % 2 = 0 then s
      else
        let rs := missingRanges total b.got
        if rs.isEmpty then s.bulkReceived n len
        else (s.setPort n { s.port n with bulk := some { b with since := some s.now } }).sendFlits n [nackFlit strBulk s.fnNat rs]

/-- DATA_FLIT (R421, R422, R428, R432, R442-R445, R460): the flit goes to the transfer that is open for it, or is stray. -/
def execDataFlit (port : Nat) (flit : Blob) (s : State) : Out :=
  .next (s.arrive port 1 flit fun s =>
    match s.xfer port (flitStream flit) with
    | some t => if cdiv t.bytes 240 ≤ flitSeq flit then s.stray port else s.takeData port t flit
    | none =>
      match s.openL 4 port (flitStream flit) with
      | d :: _ => s.takeVerdict d flit
      | [] =>
        match (s.port port).dist, (s.port port).bulk with
        | some d, _ => if d.receiver then s.takeDist port d flit else s.stray port
        | none, some b => if flitStream flit = strBulk then s.takeBulk port b flit else s.stray port
        | none, none => s.stray port)

/-- VOID_FLIT (R433): the stream's transfer fails, and nothing of it counts against the port. -/
def execVoidFlit (port : Nat) (flit : Blob) (s : State) : Out :=
  .next (s.arrive port 2 flit fun s =>
    match s.xfer port (flitStream flit) with
    | some _ => s.modXfer port (flitStream flit) fun t => { t with void := true }
    | none => s)

/-- A CONTROL flit of a subtype arrives: other than TAG it has flags 0b11 and seq 0, and its unlisted bytes are zero (R445). -/
def State.control (s : State) (n sub used : Nat) (f : Blob) (act : State → Blob → State) : State :=
  s.arrive n 5 f fun s =>
    let pl := flitPayload f
    if leAt pl 0 1 ≠ sub || flitFlags f ≠ 3 || flitSeq f ≠ 0 || !allZero (pl.drop used) then s else act s pl

/-- TAG (R432, R461, R462): it is relayed like a DATA flit, and kept until the transfer is judged. -/
def execTag (port : Nat) (flit : Blob) (s : State) : Out :=
  .next (s.arrive port 5 flit fun s =>
    let pl := flitPayload flit
    if leAt pl 0 1 ≠ 0x10 || !allZero (pl.drop 30) then s
    else match s.xfer port (flitStream flit) with
      | none => s
      | some t =>
        let s := match t.out with | some o => s.sendFlits o [flit] | none => s
        if flitFn flit ≠ s.fnNat then s.modXfer port (flitStream flit) fun t => { t with bad := true }
        else s.modXfer port (flitStream flit) fun t => { t with tag := some (slice pl 1 29) })

/-! ### Answers of the two ends (R441-R445) -/

/-- The plate that this device can pass on: the loaded one, or while it relays the one that its plate key serves. -/
def State.passOn (s : State) (n : Nat) : Option (Digest × Nat) :=
  match s.plate.plate, s.sec.plateKey with
  | some p, some (_, d) => if p.digest = d then some (d, p.layers.length) else none
  | none, some (_, d) =>
    if (List.range 8).any fun m => match (s.port m).dist with | some x => x.receiver && x.relay = some n | none => false then
      some (d, match s.plate.load with | some l => l.plate.layers.length | none => 0) else none
  | _, none => none

/-- PLATE_REQ (R425, R441, R442, R445, R460). -/
def execPlateReq (port : Nat) (flit : Blob) (s : State) : Out :=
  .next (s.control port 1 68 flit fun s pl =>
    let free := s.regBit Reg.reelDist 0 && s.regFld Reg.reelDist 1 3 = port && (s.port port).use = .free && !s.scheduled port
    match s.passOn port with
    | none => s
    | some (d, l) =>
      if !free || leAt pl 1 1 ≠ 1 || leAt pl 2 2 ≠ 0 || digestOf (slice pl 4 64) ≠ d || (s.port port).state ≠ .up then s
      else
        let x : Dist := { receiver := false, since := none, relay := none, stream := BitVec.ofNat 16 strManifest, got := [], resend := [] }
        let s := s.modPort port fun p => { p with use := .dist, dist := some x }
        let s := s.sendFlits port [controlFlit 0 s.fnNat (leBytes 1 2 ++ [0, 0, 0] ++ digestBytes d ++ leBytes 2 l)]
        match s.plate.plate with
        | none => s
        | some p =>
          let s := s.each [strManifest, strHead, strEmbed] fun s n => s.sendStream port p n
          s.each ((List.range p.layers.length).filter fun n => s.streamReady p n) fun s n =>
            let s := s.sendStream port p n
            s.modPort port fun q => { q with dist := q.dist.map fun (x : Dist) => { x with got := x.got ++ [(n, 0, [])] } })

/-- PLATE_ACK (R441, R445). -/
def execPlateAck (port : Nat) (flit : Blob) (s : State) : Out :=
  .next (s.control port 2 70 flit fun s pl =>
    match (s.port port).dist, s.sec.plateKey with
    | some d, some (_, k) =>
      if d.receiver && s.plate.asking = some port && leAt pl 1 3 = 0 && digestOf (slice pl 4 64) = k then
        s.modPort port fun p => { p with dist := some { d with since := none } }
      else s
    | _, _ => s)

/-- Ranges that a NACK names. -/
def nackRanges (pl : Blob) : List (Nat × Nat) := (List.range (leAt pl 1 1)).map fun i => (leAt pl (4 + 8 * i) 4, leAt pl (8 + 8 * i) 4)

/-- NACK (R442, R443, R445): the sender resends at the part's next availability; a device that relays passes it upstream. -/
def execNack (port : Nat) (flit : Blob) (s : State) : Out :=
  let r := leAt (flitPayload flit) 1 1
  .next (s.control port 3 (4 + 8 * r) flit fun s pl =>
    let st := leAt pl 2 2
    let rs := nackRanges pl
    if r = 0 || 29 < r then s
    else match (s.port port).dist, (s.port port).bulk with
      | some d, _ =>
        if d.receiver then s
        else match s.plate.plate with
          | some p =>
            if s.streamReady p st then
              s.sendFlits port (markLast (rs.flatMap fun e => streamFlits st s.fnNat (s.distBytes p st) e.1 e.2))
            else s.modPort port fun q => { q with dist := some { d with resend := d.resend ++ rs.map fun e => (st, e.1, e.2) } }
          | none =>
            let up := (List.range 8).filter fun m => match (s.port m).dist with | some x => x.receiver && x.relay = some port | none => false
            s.each up fun s m => s.sendFlits m [flit]
      | none, some b =>
        match b.data with
        | some bs => if b.tx && b.accepted then s.sendFlits port (markLast (rs.flatMap fun e => streamFlits strBulk s.fnNat bs e.1 e.2)) else s
        | none => s
      | none, none => s)

/-- DONE (R442, R445): the sender's port is FREE again. -/
def execDone (port : Nat) (flit : Blob) (s : State) : Out :=
  .next (s.control port 4 68 flit fun s pl =>
    match (s.port port).dist with
    | some d => if d.receiver || leAt pl 2 2 ≠ 0 then s else s.endDist port
    | none => s)

/-- ABORT (R444, R445): both ends end with ABORTED. -/
def execAbort (port : Nat) (flit : Blob) (s : State) : Out :=
  .next (s.control port 8 2 flit fun s pl =>
    if leAt pl 1 1 = 0 || 3 < leAt pl 1 1 then s
    else match (s.port port).dist, (s.port port).bulk with
      | some d, _ => if d.receiver then s.endPlateLoad 10 else s.endDist port
      | none, some _ => s.endBulk port St.aborted
      | none, none => s)

/-- The port may begin a bulk transfer: FREE, UP, and no other transfer runs (R425, R444). -/
def State.bulkFree (s : State) (n : Nat) : Bool := (s.port n).state = .up && (s.port n).use = .free && !s.scheduled n

/-- A bulk transfer runs. -/
def State.bulkBusy (s : State) : Bool := s.reel.port.any fun (p : Port) => p.bulk.isSome

/-- REEL_BULK_CTRL takes go for a port and a direction: the transfer begins, or ends with NOT_PERMITTED. -/
def State.beginBulk (s : State) (n : Nat) (tx : Bool) (data : Option Blob) : State :=
  if s.bulkBusy then s
  else
    let s := s.setFld Reg.reelBulkCtrl 0 4 (n % 8 + 8 * b2n (!tx))
    if !s.bulkFree n || 7 < n then { s with reel := { s.reel with bulkCode := BitVec.ofNat 8 St.notPermitted } }
    else
      let len := 64 * (s.reg Reg.reelBulkLen).toNat
      let addr := BitVec.ofNat 64 ((s.reg64 Reg.reelBulkAddrLo Reg.reelBulkAddrHi).toNat / 64 * 64)
      let b : Bulk := { tx := tx, addr := addr, len := len, offered := if tx then some len else none, accepted := false,
                        since := if tx then some s.now else none, got := [], resend := [], data := data.map fun bs => slice bs 0 len }
      let s := s.setFld Reg.reelBulkCtrl 31 1 1
      let s := { s with reel := { s.reel with bulkDone := 0 } }
      s.modPort n fun p => { p with use := .bulk, bulk := some b }

/-- BULK_TX (R425, R444, R445): the buffer comes with the command, none where the host read fails. -/
def execBulkTx (port : Nat) (data : Option Blob) (s : State) : Out :=
  let was := s.bulkBusy
  let s := s.beginBulk port true data
  match (s.port port).bulk with
  | some b =>
    if was then .next s
    else .next (s.sendFlits port [controlFlit strBulk s.fnNat (leBytes 1 5 ++ [0, 0, 0] ++ leBytes 8 b.len)])
  | none => .next s

/-- BULK_RX (R425, R444, R445). -/
def execBulkRx (port : Nat) (s : State) : Out := .next (s.beginBulk port false none)

/-- BULK_OFFER (R445): accepted where it fits the capacity. -/
def execBulkOffer (port : Nat) (flit : Blob) (s : State) : Out :=
  .next (s.control port 5 12 flit fun s pl =>
    match (s.port port).bulk with
    | some b =>
      let len := leAt pl 4 8
      let ans := fun code => controlFlit strBulk s.fnNat (leBytes 1 6 ++ leBytes 1 code ++ [0, 0] ++ leBytes 8 b.len)
      if b.tx || b.offered.isSome || leAt pl 1 3 ≠ 0 then s
      else if b.len < len then (s.sendFlits port [ans 1]).endBulk port St.notPermitted
      else
        let s := (s.modPort port fun p => { p with bulk := some { b with offered := some len, accepted := true } }).sendFlits port [ans 0]
        if len = 0 then s.bulkReceived port 0 else s
    | none => s)

/-- BULK_ACCEPT (R445): the sender sends its data once, or ends where the offer is refused. -/
def execBulkAccept (port : Nat) (flit : Blob) (s : State) : Out :=
  .next (s.control port 6 12 flit fun s pl =>
    match (s.port port).bulk with
    | some b =>
      if !b.tx || b.accepted || leAt pl 2 2 ≠ 0 || 1 < leAt pl 1 1 then s
      else if leAt pl 1 1 = 1 then s.endBulk port St.notPermitted
      else match b.data with
        | none => (s.sendFlits port [controlFlit strBulk s.fnNat (leBytes 1 8 ++ leBytes 1 3)]).endBulk port St.uncorrectable
        | some bs =>
          let s := s.modPort port fun p => { p with bulk := some { b with accepted := true, since := none } }
          let s := { s with reel := { s.reel with bulkDone := BitVec.ofNat 32 (b.len / 64) } }
          s.sendFlits port (streamFlits strBulk s.fnNat bs 0 (cdiv b.len 240))
    | none => s)

/-- BULK_DONE (R444, R445): the sender ends with the code that it gives. -/
def execBulkDone (port : Nat) (flit : Blob) (s : State) : Out :=
  .next (s.control port 7 12 flit fun s pl =>
    match (s.port port).bulk with
    | some b =>
      if !b.tx || leAt pl 2 2 ≠ 0 || 1 < leAt pl 1 1 then s
      else
        let s := { s with reel := { s.reel with bulkDone := BitVec.ofNat 32 (leAt pl 4 8 / 64) } }
        s.endBulk port (if leAt pl 1 1 = 0 then St.ok else St.uncorrectable)
    | none => s)

/-- BULK_ABORT_WRITE (R444, R445): the running transfer ends with ABORTED at both ends. -/
def execBulkAbortWrite (s : State) : Out :=
  .next (s.each ((List.range 8).filter fun n => (s.port n).bulk.isSome) fun s n =>
    (s.sendFlits n [controlFlit strBulk s.fnNat (leBytes 1 8 ++ leBytes 1 1)]).endBulk n St.aborted)

end Sys2Proof.Machine
end

