-- ==== Sys2Proof/Machine/Stacks.lean ====
section
/-! DEFINITION. The LPDDR5X stacks and their NMDs (chapters 8 and 9): maintenance, patrol, retraining, fences and the loss of a
stack; and the end of a layer's fetch. -/

namespace Sys2Proof.Machine

/-- Changes NMD `n`. -/
def State.modNmd (s : State) (n : Nat) (f : Nmd → Nmd) : State := s.setNmd n (f (s.nmdOf n))

/-- Granules of 64 bytes that a stack's usable 96 GiB hold (R267, R269). -/
abbrev stackGranules : Nat := 1610612736

/-! ### The fence of an NMD and the loss of its stack (R244-R246, R274) -/

/-- An NMD is fenced: the stack counts as lost from this moment, and the plate is read in rebuild mode. `cause`: 1 uncorrectable
limit, 2 retrain, 3 request, 4 controller hang, 5 training at boot. -/
def State.fenceNmd (s : State) (n cause : Nat) : State :=
  if (s.nmdOf n).state = .grey then s
  else
    let second := s.tiers.anyLost
    let s := s.modNmd n fun (x : Nmd) => { x with state := .grey, retrainWait := none, rewrites := [] }
    let s := (s.raise Reg.nmdStatus 5).raise Reg.tierStatus 1
    let r := s.tiers
    let live := r.live &&& ~~~(BitVec.ofNat 12 (2 ^ n))
    let s := { s with tiers := { r with live := live, rebuild := true, firstLost := if second then r.firstLost else n, anyLost := true } }
    let s := (s.logUnit 0x0503 0xFF 3 n [cause]).countFence 3 n 0xFF (cause = 3)
    if second then s.detect 0x04 true 3 n else (s.detect 0x04 false 3 n).restartFetches

/-- Objects that are mirrored in tier S (R243). -/
def ObjKind.mirrored : ObjKind → Bool
  | .tintComponent | .optimiser | .snapshot => true
  | _ => false

/-- A live stack other than one: the director's free choice for a new copy (R245). -/
def State.otherStack (s : State) (n : Nat) : Nat × State :=
  let (w, s) := s.draw32
  let ok := s.liveStacks.filter fun m => m ≠ n
  (ok.getD (w.toNat % max 1 ok.length) n, s)

/-- One object at the loss of a stack (R245): its mirror takes over, its moves with that stack are abandoned, and a mirrored object
left with one copy is queued to be copied again; what has no other copy is gone. -/
def State.loseCopy (s : State) (n h : Nat) (o : Obj) : State :=
  if o.home ≠ .s then
    match o.move with
    | some m => if m.target = .s && m.stack = n then s.setObj h (some { o with move := none }) else s
    | none => s
  else
    let hit := o.stack = n || o.mirror = some n
    let moved := match o.move with | some m => o.stack = n || (m.target = .s && m.stack = n) | none => false
    if !hit && !moved then s
    else if o.stack = n && o.mirror.isNone && !(o.kind = .snapshot && o.move.isSome) then s.setObj h none
    else
      let stack := if o.stack = n then o.mirror.getD ((n + 6) % 12) else o.stack
      let mirror := if o.stack = n || o.mirror = some n then none else o.mirror
      match o.move with
      | some m =>
        -- a snapshot on its way is queued again from the copy that lives
        let (k, s) := s.otherStack stack
        if o.kind = .snapshot && !m.mirror then s.setObj h (some { o with stack := stack, move := some { m with copied := 0, stack := k } })
        else
          let v : Move := { target := .s, stack := k, copied := 0, mirror := true }
          s.setObj h (some { o with stack := stack, mirror := mirror, move := if o.kind.mirrored && mirror.isNone then some v else none })
      | none =>
        let (k, s) := s.otherStack stack
        let v : Move := { target := .s, stack := k, copied := 0, mirror := true }
        s.setObj h (some { o with stack := stack, mirror := mirror, move := if o.kind.mirrored && mirror.isNone then some v else none })

/-- An object has a copy, or a copy on its way, on a stack. -/
def Obj.touches (o : Obj) (n : Nat) : Bool :=
  (o.home = .s && (o.stack = n || o.mirror = some n)) || (match o.move with | some m => m.target = .s && m.stack = n | none => false)

/-- A transfer that will not end: tiles that it has not moved by an instant stay where they are. -/
def Mover.stall (m : Mover) (t : Nat) : Mover :=
  let done := (m.movedBy t).length
  { m with rate := 0, tiles := m.tiles.zipIdx.map fun e => if e.2 < done then (e.1.1, e.1.2.1, e.1.2.2.1, 0) else (e.1.1, e.1.2.1, e.1.2.2.1, 1) }

/-- Transfers at the loss of a stack (R236, R245, R250): a move of an object there moves no more tiles, and a GATHER or TINT transfer with it
does not end, so that its bay is not played. -/
def State.dropTransfers (s : State) (n : Nat) : State :=
  let gone := fun h : Nat => match s.obj h with | some o => o.touches n | none => false
  { s with tiers := { s.tiers with running := s.tiers.running.map fun (m : Mover) =>
      if m.op = MOp.migrate then { m with tiles := m.tiles.filter fun e => !gone e.1 }
      else if (m.op = MOp.gather || m.op = MOp.tint) && m.onStacks.contains n then m.stall s.now
      else m } }

/-- A tint at the loss of its primary stack: its mirror becomes primary, and a step or batch whose slices lay there starts again
(R245, Table 12.6). -/
def State.loseTintStack (s : State) (n t : Nat) : State :=
  let x := s.tintOf t
  if x.state = .free || x.stack ≠ n then s
  else
    let s := (s.abandonCmds t).stopTint t
    let s := if x.train.cur.inFlight then s.returnBatch t else s
    s.setTint t { s.tintOf t with stack := (n + 6) % 12 }

/-- A session whose home stack is lost ends (R245, R488): its context closes, and its grey mark is set at the next tick. -/
def State.loseSession (s : State) (n c : Nat) : State :=
  let x := s.sesOf c
  match x.state with
  | .opened | .withdrawn =>
    if x.home ≠ n then s
    else
      let s := s.endSession c St.uncorrectable
      (s.event x.owner 10 St.uncorrectable x.tint 0 0 c).fenceSession c
  | _ => s

/-- STACK_LOST (R244, R245, R250, R411, R272): a fenced NMD's stack is given up; a stack that fails its training at boot is fenced
first. -/
def execStackLost (n : Nat) (s : State) : Out :=
  if 11 < n then .next s
  else
    let s := if s.boot.stage = .train && (s.nmdOf n).state = .training then s.fenceNmd n 5 else s
    if (s.nmdOf n).state ≠ .grey then .next s
    else
      let s := s.dropTransfers n
      let s := (s.tints.map fun e => e.1).foldl (fun (s : State) t => s.loseTintStack n t) s
      let s := s.tiers.objs.foldl (fun (s : State) e => match e.2 with
        | some o => s.loseCopy n e.1 o
        | none => s) s
      let s := (s.ses.map fun e => e.1).foldl (fun (s : State) c => s.loseSession n c) s
      let s := s.setUpd n { s.updOf n with queue := [], running := false, paused := false, slotTb := none, result := none }
      .next (s.replan.receiverReset (0x10 + n))

/-- NMD_FENCE_REQ (R274): a write with go; a number above 11 is ignored and sets cfg_err. -/
def execNmdFenceReq (n : Nat) (s : State) : Out :=
  if 11 < n then .next (s.raise Reg.nmdStatus 6) else .next (s.fenceNmd n 3)

/-! ### Reads under error correction (R269, R270, R275, R487) -/

/-- What a granule of a stack holds. -/
inductive Held
  /-- A tile of a stripe of a plate part: layers by number, then the embedding table, then the output head. -/
  | plate (part stripe : Nat)
  /-- A tile of an object. -/
  | tile (handle index : Nat)
  | nothing
  deriving DecidableEq, Repr

/-- Tile `i` of a session's or another object lies in tier S. -/
def State.tileInS (s : State) (o : Obj) (i : Nat) : Bool := o.home = .s && !(o.kind = .kvExtent && s.kvInH (s.sesOf o.of) i)

/-- The tile of an object that lies at a granule of a stack, on its primary stack or its mirror. -/
def State.tileAt (s : State) (n addr h : Nat) (o : Obj) : Option Held :=
  let z := cdiv o.tileBytes 64
  let lies := fun (copy i : Nat) => decide (Config.tileGranule h i copy ≤ addr) && decide (addr < Config.tileGranule h i copy + z)
  ((List.range o.tiles.length).find? fun i =>
    s.tileInS o i && ((o.stack = n && lies 0 i) || (o.mirror = some n && lies 1 i))).map fun i => .tile h i

/-- What a granule of a stack holds: where the device keeps each tile in a stack the spec leaves open (log entry 3). -/
def State.heldAt (s : State) (n addr : Nat) : Held :=
  match s.tiers.objs.findSome? fun e => match e.2 with | some o => s.tileAt n addr e.1 o | none => none with
  | some x => x
  | none => match s.plate.plate with
    | none => .nothing
    | some p => (p.parts.zipIdx.findSome? fun e =>
        ((List.range e.1.stripes).find? fun k =>
          decide (Config.stripeAt e.2 k ≤ addr) && decide (addr < Config.stripeAt e.2 k + cdiv (packedSize e.1.fmt e.1.blk) 64)).map fun k =>
            Held.plate e.2 k).getD .nothing

/-- A granule is queued to be rewritten in a maintenance gap. -/
def Nmd.queueRewrite (x : Nmd) (addr : Nat) : Nmd := { x with rewrites := if x.rewrites.contains addr then x.rewrites else x.rewrites ++ [addr] }

/-- A granule of a span of a stack is uncorrectable. -/
def State.spanBad (s : State) (n g len : Nat) : Bool := (s.nmdOf n).errs.any fun e => e.2 = .uncorrectable && decide (g ≤ e.1) && decide (e.1 < g + len)

/-- The tint that a parameter or statistics object belongs to is fenced (R487). -/
def State.fenceTintOf (s : State) (o : Obj) : State :=
  match s.tints.find? fun e => (e.2.componentOf o.of).isSome with
  | some e => s.fenceTint e.1
  | none => s

/-- A tile of a mirrored object is uncorrectable on a stack: it is read from the other copy and rewritten; a tint without a good copy of it
is fenced (R269, R487). -/
def State.mirrorRead (s : State) (n addr h i : Nat) (o : Obj) : State :=
  let other := if o.stack = n then o.mirror.map fun m => (m, 1) else some (o.stack, 0)
  match other with
  | some (m, c) =>
    if s.spanBad m (Config.tileGranule h i c) (cdiv o.tileBytes 64) then s.fenceTintOf o else s.modNmd n fun (x : Nmd) => x.queueRewrite addr
  | none => s.fenceTintOf o

/-- What follows from an uncorrectable granule (Table 9.7, R275). -/
def State.granuleLost (s : State) (n addr : Nat) (held : Held) : State :=
  match held with
  | .nothing => s
  | .plate _ _ =>
    if s.tiers.rebuild then s.detect 0x04 true 3 n
    else { s.modNmd n fun (x : Nmd) => x.queueRewrite addr with tiers := { s.tiers with rebuiltCnt := satAdd 32 s.tiers.rebuiltCnt 1 } }
  | .tile h i => match s.obj h with
    | none => s
    | some o =>
      match o.kind with
      | .kvExtent | .carried => s.loseSession n o.of
      | .tintComponent | .optimiser | .snapshot => s.mirrorRead n addr h i o
      | .other => s

/-- A read of a granule by an NMD has found something (R269, R274). -/
def State.granuleRead (s : State) (n addr : Nat) (found : EccResult) (held : Held) : State :=
  match found with
  | .clean => s
  | .corrected =>
    (s.modNmd n fun (x : Nmd) => { x with ceCnt := satAdd 32 x.ceCnt 1, errAddr := BitVec.ofNat 32 addr }.queueRewrite addr).raise Reg.nmdStatus 0
  | .uncorrectable =>
    let s := (s.modNmd n fun (x : Nmd) => { x with ueCnt := satAdd 32 x.ueCnt 1, errAddr := BitVec.ofNat 32 addr, ueSpan := x.ueSpan + 1 }).raise
      Reg.nmdStatus 1
    let s := s.granuleLost n addr held
    if max 1 (s.regFld Reg.nmdCtrl 0 8) ≤ (s.nmdOf n).ueSpan then s.fenceNmd n 1 else s.detect 0x04 false 3 n

/-- A transfer on a stack meets the link error that waits for it, if one does (R270): a single bit is corrected; a read that fails is read
once more, and is uncorrectable where that fails too; a write that the DRAM reports is rewritten. -/
def State.linkUse (s : State) (n addr : Nat) (held : Held) : State :=
  let k := (s.nmdOf n).linkErr
  if k = 0 then s
  else
    let s := s.modNmd n fun (x : Nmd) => { x with linkErr := 0 }
    let again := fun (s : State) => (s.modNmd n fun (x : Nmd) => { x with rereads := satAdd 16 x.rereads 1 }).raise Reg.nmdStatus 2
    match k with
    | 1 => s.modNmd n fun (x : Nmd) => { x with linkCorrected := satAdd 16 x.linkCorrected 1 }
    | 2 => again s
    | 3 => (again s).granuleRead n addr .uncorrectable held
    | _ => s.modNmd n fun (x : Nmd) => x.queueRewrite addr

/-- A transfer reads `len` granules of a stack (R269, R270). -/
def State.spanRead (s : State) (n g len : Nat) (held : Held) : State :=
  let s := s.linkUse n g held
  ((s.nmdOf n).errs.filter fun e => decide (g ≤ e.1) && decide (e.1 < g + len)).foldl (fun (s : State) e => s.granuleRead n e.1 e.2 held) s

/-- A transfer reads a tile of tier S: one of an object on its primary stack, or, with handle 0, one of the embedding table (R243, R269). -/
def State.tileRead (s : State) (h i : Nat) : State :=
  if h = 0 then
    match s.plate.plate with
    | none => s
    | some p =>
      let l := p.layers.length
      let n := dataStack l (i / 11) (i % 11)
      if s.stackLive n then s.spanRead n (Config.stripeAt l (i / 11)) (cdiv (packedSize p.embed.fmt p.embed.blk) 64) (.plate l (i / 11)) else s
  else match s.obj h with
    | none => s
    | some o => if s.tileInS o i then s.spanRead o.stack (Config.tileGranule h i 0) (cdiv o.tileBytes 64) (.tile h i) else s

/-! ### Maintenance gaps (R270, R271) -/

/-- An M cue uses a stack. -/
def State.cueUses (s : State) (o n : Nat) (c : Cue) (d : Shot) : Bool :=
  let tints := fun (t : Nat) => (s.tintOf t).stack = n || (s.tintOf t).stack = (n + 6) % 12
  match d.op with
  | 1 => !s.isResident
  | 2 => (!s.isResident && s.player.reelPos = 0) || (match s.moveBinding o c d with | some b => (s.boundSes b).any fun x => (s.sesOf x).home = n | none => false)
  | 3 => match s.moveBinding o c d with | some b => (s.boundSes b).any fun x => (s.sesOf x).home = n | none => false
  | 4 | 6 => bitOf (BitVec.ofNat 12 d.mStacks) n
  | 7 => s.tints.any fun e => e.2.owner = o && tints e.1
  | _ => false

/-- TB of the compiled starts, at F0, of the cues of the present frame that are still to start and use a stack. -/
def State.nextUses (s : State) (n : Nat) : List Nat :=
  s.segOrder.flatMap fun o =>
    match s.playing o with
    | none => []
    | some x => (x.track .m).zipIdx.filterMap fun e =>
        let p := s.ctx o
        if p.begun && p.gone .m e.2 then none
        else if p.selected e.1 && s.cueUses o n e.1 (x.shot e.1) then some (s.tbm.tLast.toNat + s.segOffset o + e.1.offset * 4 / 7)
        else none

/-- A maintenance gap of `len` ns (R271): the stack is live, no transfer or pass holds it, and the access ends before the compiled start of
the next cue that uses it. -/
def State.gap (s : State) (n len : Nat) : Bool :=
  decide (n < 12) && (s.nmdOf n).state = .live && s.stackLive n && decide (s.stackFree n ≤ s.now) && !s.saf.safe &&
    (s.nextUses n).all fun t => decide (s.now + len < t)

/-- What a read of a granule finds: the errors that its codeword holds, or those of the read itself. -/
def State.granuleFound (s : State) (n addr : Nat) (found : EccResult) : EccResult :=
  let stored := Sparse.get (fun _ => EccResult.clean) (s.nmdOf n).errs addr
  if stored = .clean then found else stored

/-- MAINTENANCE_ACCESS (R269-R271): a rewrite of a corrected granule or of a failed write, a reread after a link error, or a patrol
read. How long an access takes is not stated: it ends before a cue that starts later. -/
def execMaintenanceAccess (n : Nat) (kind : Maint) (addr : Nat) (found : EccResult) (s : State) : Out :=
  if !s.gap n 0 then .next s
  else match kind with
  | .rewrite => .next (s.modNmd n fun (x : Nmd) => { x with rewrites := x.rewrites.erase addr, errs := Sparse.drop x.errs fun a => a = addr })
  | .reread =>
    let s := (s.modNmd n fun (x : Nmd) => { x with rereads := satAdd 16 x.rereads 1 }).raise Reg.nmdStatus 2
    .next (s.granuleRead n addr (s.granuleFound n addr found) (s.heldAt n addr))
  | .patrol => .next (s.granuleRead n addr (s.granuleFound n addr found) (s.heldAt n addr))

/-! ### The end of a layer's fetch (R239, R240, R244, R269) -/

/-- The stacks from which a stripe of a part cannot be read: lost, or with an uncorrectable granule in its tile. -/
def State.stripeBad (s : State) (l k z : Nat) : Nat :=
  ((List.range 12).filter fun n => !s.stackLive n || s.spanBad n (Config.stripeAt l k) z).length

/-- The stripes of a layer are read from every live stack, or the tiles of the mirrored object that holds it (R344). Two tiles of one stripe
that cannot be read are a dangerous fault (R246, R275). -/
def State.readStripes (s : State) (l : Nat) (p : PlatePart) : State :=
  let z := cdiv (packedSize p.fmt p.blk) 64
  match s.layerObject l with
  | some h => s.each (List.range p.tiles) fun s i => s.tileRead h i
  | none =>
  let bad := !s.tiers.rebuild && (List.range p.stripes).any fun k => decide (1 < s.stripeBad l k z)
  let s := s.each s.liveStacks fun s n => s.each (List.range p.stripes) fun s k => s.spanRead n (Config.stripeAt l k) z (.plate l k)
  let s := { s with tiers := { s.tiers with rebuiltCnt := satAdd 32 s.tiers.rebuiltCnt (s.lostTiles l p (List.range p.stripes)) } }
  if bad then s.detect 0x04 true 3 0 else s

/-- The packed data tiles that a fetch of a layer reads, in ascending tile index (R240). -/
def State.fetchedData (s : State) (l : Nat) (p : PlatePart) : Blob := (List.range p.tiles).flatMap fun i => s.fetchTile l p (i / 11) (i % 11)

/-- LAYER_FETCH_DONE (R240): the layer's last tile is written and its digest checked; `bad` says that what was read is not what the stacks
hold. A first mismatch is logged and refetched at once, a second is dangerous. -/
def execLayerFetchDone (rev bad : Bool) (s : State) : Out :=
  match s.plate.plate, s.arrived rev with
  | some p, some i =>
    let b := s.buf i
    let l := b.layer.getD 0
    let part := p.layers.getD l p.embed
    let s := ((s.advance b.endTb).readStripes l part).writeLayer i l part
    if s.saf.safe then .next s
    else if !bad && sha512 (s.fetchedData l part) = part.digest then
      let ns := BitVec.ofNat 32 (b.endTb - b.startTb)
      let s := s.setBuf i { b with ready := true }
      .next (if rev then { s with tiers := { s.tiers with fetchRev := ns } }
        else ({ s with tiers := { s.tiers with fetchFwd := ns } }).sendLayer l)
    else
      let s := s.logUnit 0x0505 32 0xFF 0 [l, min b.misses 1]
      if b.misses = 0 then
        let s := (s.raise Reg.tierStatus 5).setBuf i { b with stripes := [], misses := 1 }
        .next ((s.fetchStripes i part (List.range part.stripes) true).detect 0x0E false 0xFF 0)
      else .next (s.detect 0x0E true 0xFF 0)
  | _, _ => .next s

/-! ### Patrol and rows (R273, R274) -/

/-- The patrol has read its last granule: the pass's duration, and the rows that gave errors in one pass more. -/
def Nmd.endPass (x : Nmd) (now : Nat) : Nmd :=
  { x with
    patrol := 0, progress := 0, passTb := now, lastMin := BitVec.ofNat 16 (min ((now - x.passTb) / 60000000000) 0xFFFF), patrolLate := false,
    rowRuns := x.rowSeen.map fun r => (r, 1 + ((x.rowRuns.find? fun e => e.1 = r).map fun e => e.2).getD 0), rowSeen := [] }

/-- TIER_S_PATROL (R269, R273, R274): the next granule, in ascending order, in a gap. -/
def execTierSPatrol (n addr : Nat) (found : EccResult) (s : State) : Out :=
  if !s.gap n 0 || addr ≠ (s.nmdOf n).patrol then .next s
  else
    let found := s.granuleFound n addr found
    let s := s.granuleRead n addr found (s.heldAt n addr)
    let row := Config.dramRow addr
    let s := s.modNmd n fun (x : Nmd) =>
      { x with
        patrol := addr + 1, progress := BitVec.ofNat 10 ((addr + 1) * 1000 / stackGranules),
        rowSeen := if found = .corrected && !x.rowSeen.contains row then x.rowSeen ++ [row] else x.rowSeen }
    .next (if stackGranules ≤ addr + 1 then s.modNmd n fun (x : Nmd) => x.endPass s.now else s)

/-- PATROL_LATE (R273): the present pass is past its hours. -/
def execPatrolLate (n : Nat) (s : State) : Out :=
  let x := s.nmdOf n
  if x.state ≠ .live || x.patrolLate || s.now ≤ x.passTb + 3600000000000 * s.regFld Reg.nmdCtrl 8 5 then .next s
  else .next (((s.setNmd n { x with patrolLate := true }).raise Reg.nmdStatus 3).logUnit 0x0504 0xFF 3 n [2])

/-- ROW_RETIRE (R274): a row with corrected errors in 4 patrol passes in a row. -/
def execRowRetire (n row : Nat) (s : State) : Out :=
  let x := s.nmdOf n
  let runs := ((x.rowRuns.find? fun e => e.1 = row).map fun e => e.2).getD 0 + (if x.rowSeen.contains row then 1 else 0)
  if x.state ≠ .live || runs < 4 then .next s
  else
    let x := { x with spprRows := satAdd 16 x.spprRows 1, rowRuns := x.rowRuns.filter fun e => e.1 ≠ row, rowSeen := x.rowSeen.erase row }
    .next ((s.setNmd n x).logUnit 0x0504 0xFF 3 n [1, row])

/-! ### Retraining (R272) -/

/-- DQ_OSC_CHECK (R272): every 1,024 frames; a drift beyond the training margin asks for a retrain. -/
def execDqOscCheck (n : Nat) (drift : Bool) (s : State) : Out :=
  let x := s.nmdOf n
  if x.state ≠ .live || !s.tbm.running || s.fnNat % 1024 ≠ 0 then .next s
  else if drift && x.retrainWait.isNone then .next (s.setNmd n { x with retrainWait := some 0 })
  else .next s

/-- DQ_RETRAIN (R272, R274): in a gap of at least 50 µs; a retrain that fails fences the NMD. -/
def execDqRetrain (n gapNs : Nat) (ok : Bool) (s : State) : Out :=
  let x := s.nmdOf n
  if !s.gap n gapNs || x.retrainWait.isNone || gapNs < 50000 then .next s
  else
    let s := s.setNmd n { x with retrain := satAdd 32 x.retrain 1, retrainWait := none, retrainLate := false }
    .next (if ok then s else s.fenceNmd n 2)

/-- RETRAIN_LATE (R272): a retrain has waited more than 1,024 frames for a gap. -/
def execRetrainLate (n : Nat) (s : State) : Out :=
  let x := s.nmdOf n
  match x.retrainWait with
  | some w =>
    if w ≤ 1024 || x.retrainLate then .next s
    else .next (((s.setNmd n { x with retrainLate := true }).raise Reg.nmdStatus 4).logUnit 0x0504 0xFF 3 n [3])
  | none => .next s

end Sys2Proof.Machine
end

