-- ==== Sys2Proof/Machine/SafetyOps.lean ====
section
/-! DEFINITION. The safety block's requests and fences of kinds 5-8, its watchdogs, and the continuity log's commits and readout
(chapter 17). -/

namespace Sys2Proof.Machine

/-! ### Requests (R477, R489) -/

/-- SAFE_REQ (R477): SAF_SAFE_REQ.go forces the safe state with class FORCED. -/
def execSafeReq (s : State) : Out := .next (s.enterSafe 0x11 0xFF 0)

/-- SAF_STATUS.cfg_err: the request is ignored (R489). -/
def State.safErr (s : State) : State := s.raise Reg.safStatus 4

/-- A fence of the unit waits already. -/
def State.fenceWaits (s : State) (kind unit : Nat) : Bool := s.saf.reqs.any fun r => r.kind = kind && r.unit = unit

/-- A fence request is taken; it is armed at once where it takes effect at the next tick (R366, R487, R488), and after the next commit
point where R486 asks for one. A request of the director's own for the unit stands. -/
def State.takeFenceReq (s : State) (kind unit : Nat) (armed : Bool) : State :=
  if s.fenceWaits kind unit then s
  else { s with saf := { s.saf with reqs := s.saf.reqs ++ [{ kind := kind, unit := unit, since := s.now, armed := armed, due := false, requested := true }] } }

/-- UCL_PORT_FENCE_REQ (R366, R489). -/
def execUclPortFenceReq (n : Nat) (s : State) : Out :=
  if 1 < n || (s.uclPort n).grey then .next s.safErr else .next (s.takeFenceReq 5 n true)

/-- PARTITION_FENCE_REQ (R486, R489): accepted in CREATING, READY, ACTIVE and FROZEN. -/
def execPartitionFenceReq (p : Nat) (s : State) : Out :=
  if 31 < p || s.saf.greyParts.contains p then .next s.safErr
  else match (s.part p).state with
    | .creating | .ready | .active | .frozen => .next (s.takeFenceReq 6 p false)
    | _ => .next s.safErr

/-- TINT_FENCE_REQ (R487, R489): refused while the entry is FREE, REGISTERING or WITHDRAWING. -/
def execTintFenceReq (t : Nat) (s : State) : Out :=
  if 65535 < t || s.saf.greyTints.contains t then .next s.safErr
  else match (s.tintOf t).state with
    | .free | .registering | .withdrawing => .next s.safErr
    | _ => .next (s.takeFenceReq 7 t true)

/-- SESSION_FENCE_REQ (R488, R489): accepted only while the context is OPEN or WITHDRAWN. -/
def execSessionFenceReq (ctx : Nat) (s : State) : Out :=
  if 65535 < ctx || s.saf.greySessions.contains ctx then .next s.safErr
  else match (s.sesOf ctx).state with
    | .opened | .withdrawn => .next (s.takeFenceReq 8 ctx true)
    | _ => .next s.safErr

/-! ### Fences at their tick (R486-R488) -/

/-- The fence of a unit that is due at the present tick. -/
def State.dueFence? (s : State) (kind unit : Nat) : Option FenceReq :=
  s.saf.reqs.find? fun r => r.kind = kind && r.unit = unit && r.due

/-- The request is done. -/
def State.endFenceReq (s : State) (kind unit : Nat) : State :=
  { s with saf := { s.saf with reqs := s.saf.reqs.filter fun r => !(r.kind = kind && r.unit = unit) } }

/-- A number joins a list of grey units. -/
def addGrey (xs : List Nat) (n : Nat) : List Nat := if xs.contains n then xs else xs ++ [n]

/-- PARTITION_FENCE (R407, R486): the partition is torn down with FENCED_UNIT in place of ABORTED. One that is torn down already has
nothing left to fence. -/
def execPartitionFence (p : Nat) (s : State) : Out :=
  match s.dueFence? 6 p with
  | none => .next s
  | some r =>
    let s := s.endFenceReq 6 p
    if s.saf.safe then .next s
    else match (s.part p).state with
      | .creating | .ready | .active | .frozen =>
        let s := { s with saf := { s.saf with greyParts := addGrey s.saf.greyParts p } }
        let s := s.countFence 6 p p r.requested
        let s := s.startTeardown p St.fencedUnit
        .next (s.modPart p fun x => { x with fenced := true })
      | _ => .next s

/-- TINT_FENCE (R312, R487): the tint is withdrawn with FENCED_UNIT in place of TINT_WITHDRAWN. -/
def execTintFence (t : Nat) (s : State) : Out :=
  match s.dueFence? 7 t with
  | none => .next s
  | some r =>
    let s := s.endFenceReq 7 t
    if s.saf.safe then .next s
    else match (s.tintOf t).state with
      | .free | .registering | .withdrawing => .next s
      | _ =>
        let s := { s with saf := { s.saf with greyTints := addGrey s.saf.greyTints t } }
        let s := s.countFence 7 t (s.tintOf t).owner r.requested
        .next (s.startWithdrawal t St.fencedUnit)

/-- SESSION_FENCE (R310, R488): the session ends, its items with FENCED_UNIT; one that a stack loss has ended already is marked. -/
def execSessionFence (ctx : Nat) (s : State) : Out :=
  match s.dueFence? 8 ctx with
  | none => .next s
  | some r =>
    let s := s.endFenceReq 8 ctx
    if s.saf.safe then .next s
    else
      let s := { s with saf := { s.saf with greySessions := addGrey s.saf.greySessions ctx } }
      let s := s.countFence 8 ctx (s.sesOf ctx).owner r.requested
      match (s.sesOf ctx).state with
      | .opened | .withdrawn => .next (s.endSession ctx St.fencedUnit)
      | _ => .next s

/-! ### SAF_CTRL and SAF_PROMOTE (R478, R497) -/

/-- SAFETY_CFG with the values in force (Table 17.6). -/
def State.logSafetyCfg (s : State) : State := s.log 0x0906 [(s.reg Reg.safCtrl).toNat, (s.reg Reg.safPromote).toNat]

/-- SAF_CTRL_WRITE (R497): min_spares and skip_limit, unless locked. -/
def execSafCtrlWrite (v : Word) (s : State) : Out :=
  if s.locked .saf then .next s else .next ((s.setReg Reg.safCtrl (v &&& 0xF7F)).logSafetyCfg)

/-- SAF_PROMOTE_WRITE (R478): bits 6, 7, 8, 16 and 17 stay 1, bits 0 and 18-31 stay 0. -/
def execSafPromoteWrite (v : Word) (s : State) : Out :=
  if s.locked .saf then .next s else .next ((s.setReg Reg.safPromote ((v &&& 0x3FFFE) ||| 0x301C0)).logSafetyCfg)

/-! ### The watchdogs (R477) -/

/-- DIRECTOR_HANG (R22, R477): the third consecutive commit point without a commit is dangerous. -/
def execDirectorHang (s : State) : Out :=
  if 3 ≤ s.saf.missedCommits then
    .next ({ s with saf := { s.saf with missedCommits := 0 } }.enterSafe 0x08 0xFF 0)
  else .next s

/-- NMD_HANG (R274, R477): three frames without a change of the alive count fence the NMD. -/
def execNmdHang (n : Nat) (s : State) : Out :=
  if 11 < n || (s.saf.nmdAlive.getD n (0, 0)).2 < 3 || (s.nmdOf n).state = .grey then .next s
  else
    let s := s.fenceNmd n 4
    .next (s.detect 0x09 false 3 n)

/-! ### The continuity log (R490-R495) -/

/-- Slot of record N (R490). -/
def logSlot (n : Nat) : Nat := if n < 16384 then n else 16384 + (n - 16384) % 245760

/-- The bytes of a record with its number (Table 17.5). -/
def LogRec.bytes (r : LogRec) (n : BitVec 48) (flags : Nat) : Blob :=
  let body := leBytes 4 (fld n 0 32) ++ leBytes 2 r.epoch.toNat ++ leBytes 2 r.code.toNat ++ leBytes 8 r.tb.toNat ++ leBytes 4 r.fn.toNat ++
    leBytes 2 r.boot.toNat ++ leBytes 1 r.owner.toNat ++ leBytes 1 r.kind.toNat ++ leBytes 4 r.unit.toNat ++ leBytes 2 r.lost.toNat ++
    leBytes 2 flags ++ (r.args.flatMap fun a => leBytes 4 a.toNat)
  body ++ leBytes 4 (crc32 body).toNat

/-- The next commit moment (R491): the next multiple of 2,000 ns of TB, or the SRD's own moments before TB runs. -/
def State.toCommitMoment (s : State) : State :=
  if s.tbm.counting then s.advance ((s.now / 2000 + 1) * 2000)
  else { s with clog := { s.clog with standbyMoments := s.clog.standbyMoments + 1 } }

/-- LOG_COMMIT (R490, R491, R494): at a commit moment the oldest staged record takes its slot. -/
def execLogCommit (s : State) : Out :=
  let s := s.toCommitMoment
  match s.clog.staged with
  | [] => .next s
  | r :: rest =>
    let flags := (r.flags ||| (if s.clog.holdup then 2 else 0)).toNat
    let w := BitVec.ofNat 512 (leNat (r.bytes s.clog.n flags))
    .next { s with clog := { s.clog with
      staged := rest, n := s.clog.n + 1, mram := Sparse.set (fun _ => none) s.clog.mram (logSlot s.clog.n.toNat) (some w) } }

/-- The CRC of a slot's 64 bytes is right. -/
def slotCrcOk (w : BitVec 512) : Bool := (crc32 (leBytes 60 w.toNat)).toNat = fld w 480 32

/-- CLG_SLOT_READOUT (R495): a slot is selected and read; a bad CRC sets CLG_STATUS.crc_err. -/
def execClgSlotReadout (slot : Nat) (s : State) : Out :=
  if !s.pins.vaux then .next s
  else
    let k := slot % 262144
    let s := s.setFld Reg.clgSel 0 18 k
    match Sparse.get (fun _ => none) s.clog.mram k with
    | some w => .next (if slotCrcOk w then s else s.raise Reg.clgStatus 1)
    | none => .next s

/-- POWER_FAIL is staged even on hold-up; where the buffer is full it takes the place of the newest record, whose drop is counted
(R494, Table 17.7). -/
def State.stagePowerFail (s : State) (a0 : Nat) : State :=
  let r := s.mkRec 0x0904 0xFF 0xFF 0 [a0] 0
  let c := s.clog
  match (if 32 ≤ c.staged.length then c.staged.getLast? else none) with
  | some x =>
    let n := c.dropped + 1 + x.lost.toNat
    { s with clog := { c with staged := c.staged.dropLast ++ [{ r with lost := BitVec.ofNat 16 (min n 0xFFFF) }], dropped := 0,
                              lostTotal := satAdd 32 c.lostTotal 1 } }.raise Reg.clgStatus 0
  | none => { s with clog := { c with staged := c.staged ++ [{ r with lost := BitVec.ofNat 16 (min c.dropped 0xFFFF) }], dropped := 0 } }

/-- VAUX_FAIL (R494, R544): the SRD runs on the hold-up capacitor and stages nothing but POWER_FAIL; the heartbeat pins fall low. -/
def execVauxFail (s : State) : Out :=
  if s.clog.holdup || !s.pins.vaux then .next s
  else
    let s := s.stagePowerFail 1
    .next { s with clog := { s.clog with holdup := true }, pins := { s.pins with vaux := false },
                    saf := { s.saf with hbA := false, hbB := false } }

end Sys2Proof.Machine
end

