-- ==== Sys2Proof/Machine/Boot.lean ====
section
/-! DEFINITION. Resets, the boot sequence, updates of the boot flash and recovery (chapter 19). -/

namespace Sys2Proof.Machine

/-! ### The boot flash (R516) -/

/-- Bytes of the boot flash; an erased byte is 0xFF. -/
def State.readFlash (s : State) (off len : Nat) : Blob := Sparse.getRun (fun _ => 0xFF) s.boot.flash off len

/-- Writes bytes of the boot flash. -/
def State.writeFlash (s : State) (off : Nat) (bs : Blob) : State :=
  { s with boot := { s.boot with flash := Sparse.setRun (fun _ => 0xFF) s.boot.flash off bs } }

/-- Offset of a component's area in a slot (Table 19.2). -/
def fwOffset : Nat → Nat
  | 1 => 0
  | 2 => 0x100000
  | 3 => 0x300000
  | 4 => 0x1300000
  | _ => 0x1900000

/-- Size of a component's area (Table 19.2). -/
def fwArea : Nat → Nat
  | 1 => 0x100000
  | 2 => 0x200000
  | 3 => 0x1000000
  | _ => 0x600000

/-- Flash offset of a component's area in slot 0 (A) or 1 (B). -/
def areaBase (slot c : Nat) : Nat := (if slot = 0 then 0x100000 else 0x2000000) + fwOffset c

/-- The components. -/
def components : List Nat := [1, 2, 3, 4, 5]

/-- The slot from which a set takes a component. -/
def slotIn (set : BitVec 5) (c : Nat) : Nat := b2n (bitOf set (c - 1))

/-- The header of an image (Table 19.3). -/
def State.fwHeader (s : State) (slot c : Nat) : Blob := s.readFlash (areaBase slot c) 0x300

/-- The body of an image. -/
def State.fwBody (s : State) (slot c : Nat) : Blob := s.readFlash (areaBase slot c + 0x300) (leAt (s.fwHeader slot c) 0x0C 4)

/-! ### The checks of R518 -/

/-- HEADER: magic, format, own code, zero reserved fields, the pair for the own component among them, and the body within the area. -/
def State.headerOk (s : State) (slot c : Nat) : Bool :=
  let h := s.fwHeader slot c
  leAt h (0x10 + 8 * (c - 1)) 8 = 0 && leAt h 0 4 = 0x574D5246 && leAt h 4 2 = 1 && leAt h 6 1 = c && leAt h 0x38 8 = 0 && leAt h 0x80 128 = 0 &&
    decide (0x300 + leAt h 0x0C 4 ≤ fwArea c)

/-- COMPAT: the versions of the other components lie within this image's ranges. -/
def State.compatOk (s : State) (set : BitVec 5) (c : Nat) : Bool :=
  let h := s.fwHeader (slotIn set c) c
  components.all fun j => j = c ||
    (let v := leAt (s.fwHeader (slotIn set j) j) 8 4
     decide (leAt h (0x10 + 8 * (j - 1)) 4 ≤ v) && decide (v ≤ leAt h (0x14 + 8 * (j - 1)) 4))

/-- ROLLBACK: the image's level is at least the fused count. -/
def State.levelOk (s : State) (slot c : Nat) : Bool := decide (s.boot.fused.getD (c - 1) 0 ≤ leAt (s.fwHeader slot c) 7 1)

/-- SIGNATURE: under the vendor firmware key whose digest is fused. -/
def State.signedOk (s : State) (slot c : Nat) : Bool :=
  let h := s.fwHeader slot c
  keyDigest Config.vendorKey = Config.vendorKeyDigest && pssVerify Config.vendorKey (h.take 0x100) (slice h 0x100 512)

/-- DIGEST: the body's SHA-512 is the header's. -/
def State.bodyOk (s : State) (slot c : Nat) : Bool := sha512 (s.fwBody slot c) = digestOf (slice (s.fwHeader slot c) 0x40 64)

/-- Whether component `c` of a set passes the check with a reason code of Table 19.7. -/
def State.fwCheck (s : State) (set : BitVec 5) (reason c : Nat) : Bool :=
  let k := slotIn set c
  match reason with
  | 1 => s.headerOk k c
  | 2 => s.compatOk set c
  | 3 => s.levelOk k c
  | 4 => s.signedOk k c
  | _ => s.bodyOk k c

/-- The first failure of a slot set, as (component, reason): every header before compatibility, and that before any body (R518). -/
def State.setFailure (s : State) (set : BitVec 5) : Option (Nat × Nat) :=
  ([1, 2, 3, 4, 5].flatMap fun r => components.map fun c => (c, r)).find? fun e => !s.fwCheck set e.2 e.1

/-! ### What a reset leaves (R515) -/

/-- Staged records that are lost count in the lost field of the next one (R494). -/
def Clog.lose (c : Clog) : Clog := { c with staged := [], dropped := c.dropped + c.staged.length }

/-- The log after a reset: what is in MRAM stays; an SRD that restarts loses its staging buffer. -/
def Clog.afterReset (c : Clog) (restart : Bool) : Clog :=
  let c := if restart then c.lose else c
  { c with countHi := 0, holdup := false, standbyMoments := 0 }

/-- The key store after a reset (Table 16.5): custody, its domain key and the group keys stay. -/
def Security.afterReset (x : Security) : Security :=
  { Security.init with custody := x.custody, custodyKey := x.custodyKey, count := x.count, pubs := x.pubs, cdk := x.cdk, gk := x.gk,
                       gkPending := x.gkPending, gkSpent := x.gkSpent, wipe := x.wipe, life := x.life, vendorKeys := x.vendorKeys }

/-- The boot path after a reset: MRAM, fuses and flash stay. -/
def Boot.afterReset (x : Boot) : Boot :=
  { Boot.init with fails := x.fails, lastGood := x.lastGood, trialMask := x.trialMask, tried := x.tried, fused := x.fused, boots := x.boots,
                   flash := x.flash }

/-- A flash operation that a reset cuts short leaves its range undefined (R524). -/
def State.cutFlash (s : State) : State :=
  match s.boot.flashOp with
  | none => s
  | some f =>
    let (bs, s) := s.freeBytes f.len
    s.writeFlash f.off bs

/-- Every domain is reset but the key store, the fuses, the MRAM and the boot flash. -/
def State.afterReset (s : State) (restart : Bool) : State :=
  let s := s.cutFlash
  { State.reset with
    tbm := { Timebase.init with epoch := s.tbm.heldEpoch, heldEpoch := s.tbm.heldEpoch },
    clog := s.clog.afterReset restart, sec := s.sec.afterReset, boot := s.boot.afterReset,
    pins := { Pins.init with smbAddr := s.pins.smbAddr, jtagIr := s.pins.jtagIr, jtagDr := s.pins.jtagDr, boundary := s.pins.boundary },
    host := s.host, pending := s.pending, free := s.free }

/-- STANDBY_POWER_ON (R494, R515, R530, R539): VAUX rises; the SRD's standby domain starts and samples the SMBus address straps. -/
def execStandbyPowerOn (straps : BitVec 2) (s : State) : Out :=
  if s.pins.vaux then .next s
  else
    let s := s.afterReset true
    .next { s with tbm := { s.tbm with counting := false },
                   pins := { s.pins with mainOn := false, perst := false, smbAddr := straps, jtagIr := .idcode, jtagDr := (32, 0x02560A7B),
                                         boundary := false } }

/-- MAIN_POWER_FAIL (R494): POWER_FAIL is logged, the SRD goes on with VAUX and keeps the last measurements (R466); the other domains lose
what they held. -/
def execMainPowerFail (s : State) : Out :=
  if !s.pins.mainOn then .next s
  else
    let meas := [1, 2, 3, 4, 5, 6, 7].map fun i => s.measValue i
    let s := s.stagePowerFail 0
    let t := { State.reset with
      tbm := { s.tbm with running := false, startDue := false, stopPending := false, restartQueued := false, waitSync := false, cpPassed := false },
      regs := s.regs.filter fun e => decide (0xE0000 ≤ e.1) && decide (e.1 < 0x130000),
      clog := s.clog, sec := { s.sec with lastMeas := meas, part := Security.init.part }, saf := { s.saf with reqs := [] }, pwr := s.pwr, boot := s.boot,
      pins := { s.pins with mainOn := false }, host := s.host, pending := s.pending, free := s.free }
    .next t

/-! ### The boot sequence (R517) -/

/-- The boot count of a held group key rises at a cold reset; at 0xFFFF the key is spent (R461). -/
def State.countGroupKey (s : State) : State :=
  match s.sec.gk with
  | none => s
  | some k =>
    if k.boots = 0xFFFF then s
    else
      let k := { k with boots := k.boots + 1 }
      let s := { s with sec := { s.sec with gk := some k } }
      if k.boots = 0xFFFF then { s with sec := { s.sec with gkSpent := true } }.log 0x0702 [3] else s

/-- The binding of a recovery channel (Table 19.5). -/
def State.bindRecovery (s : State) (c sender receiver : Nat) : State :=
  s.setReg (bindKey c) (BitVec.ofNat 32 (sender + 256 * receiver + 65536 * 16 + 2147483648))

/-- A UCL port comes up; on how many of its 16 lanes is free. -/
def State.raiseUcl (s : State) (n : Nat) : State :=
  let (w, s) := s.draw32
  s.setUcl n { s.uclPort n with up := true, lanes := BitVec.ofNat 5 (w.toNat % 16 + 1) }

/-- Recovery mode begins (R521); `why` 0 strap, 1 failed boots. -/
def State.enterRecovery (s : State) (why : Nat) : State :=
  let s := { s with boot := { s.boot with stage := .recovery } }
  let s := (((s.bindRecovery 60 0x20 0x02).bindRecovery 61 0x02 0x20).bindRecovery 62 0x70 0x02).bindRecovery 63 0x02 0x70
  (s.raiseUcl 0).log 0x0A08 [why, 0xFF]

/-- A component failed its check: the record and BOOT_FAIL (R517, R525). -/
def State.componentFail (s : State) (set : BitVec 5) (e : Nat × Nat) : State :=
  let k := slotIn set e.1
  { s with boot := { s.boot with fail := (e.1, e.2, k) } }.log 0x0A02 [e.1, e.2, k]

/-- The boot has failed: no set is usable (0) or the watchdog ran out (1). -/
def State.failBoot (s : State) (why : Nat) : State :=
  let s := { s with boot := { s.boot with stage := .failed } }
  let s := { s with ucl := s.ucl.map fun (p : UclPort) => { p with up := false } }
  s.log 0x0A05 [why]

/-- A running component, from its image. -/
def State.fwComponent (s : State) (slot c : Nat) : Component5 :=
  let h := s.fwHeader slot c
  { version := BitVec.ofNat 32 (leAt h 8 4), arb := leAt h 7 1, digest := digestOf (slice h 0x40 64) }

/-- A set that passed is loaded and applied; the stacks, UCL and the reel-link ports train (R517 steps 4 and 5). -/
def State.bootSet (s : State) (set : BitVec 5) (trial : Bool) : State :=
  let s := { s with boot := { s.boot with stage := .train, running := set, trial := trial,
                                          comps := components.map fun c => s.fwComponent (slotIn set c) c } }
  let s := (s.raiseUcl 0).raiseUcl 1
  { s with reel := { s.reel with port := s.reel.port.map fun (p : Port) => { p with state := PortState.training } } }

/-- The trial set and the last good set are checked and one of them boots (R517 steps 2 to 5, R519). -/
def State.chooseSet (s : State) (slotHigh : Bool) : State :=
  let s := if s.boot.tried then
      { s with boot := { s.boot with tried := false, trialMask := 0 } }.log 0x0A07 [s.boot.trialMask.toNat]
    else s
  let good := s.boot.lastGood
  let set := if slotHigh then 0b11111 else good ^^^ s.boot.trialMask
  match s.setFailure set with
  | none => s.bootSet set (set ≠ good)
  | some e =>
    let s := s.componentFail set e
    if set = good then s.failBoot 0
    else
      let s := { s with boot := { s.boot with trialMask := 0, fallback := true } }.log 0x0A03 [set.toNat]
      match s.setFailure good with
      | none => s.bootSet good false
      | some e => (s.componentFail good e).failBoot 0

/-- COLD_RESET (R515, R517, R530, R544): PERST_N (or, with `aux`, AUX_RST_N) was low and PERST_N has risen. How the straps are packed in
BOOT_START's a3 is free. -/
def execColdReset (aux recoveryLow slotHigh : Bool) (straps : BitVec 2) (s : State) : Out :=
  if !s.pins.vaux then .next s
  else
    -- rows retired since power-on stay retired while main power stays (R274, R277)
    let rows := s.nmd.map fun (x : Nmd) => if s.pins.mainOn then x.spprRows else 0
    let s := s.afterReset aux
    let s := { s with nmd := (s.nmd.zip rows).map fun (e : Nmd × BitVec 16) => { e.1 with spprRows := e.2 } }
    let s := if aux then { s with pins := { s.pins with smbAddr := straps } } else s
    let fails := min 3 (s.boot.fails + 1)
    let s := { s with boot := { s.boot with boots := s.boot.boots + 1, fails := fails, recoveryStrap := recoveryLow, slotStrap := slotHigh } }
    let s := s.countGroupKey
    let (w, s) := s.draw32
    let s := s.log 0x0A01 [s.boot.trialMask.toNat, s.boot.lastGood.toNat, fails, w.toNat]
    if recoveryLow then .next (s.enterRecovery 0)
    else if 3 ≤ fails then .next (s.enterRecovery 1)
    else .next (s.chooseSet slotHigh)

/-- DIRECTOR_READY (R517 step 6): READY; the failed-boot count returns to 0. -/
def execDirectorReady (s : State) : Out :=
  if s.boot.stage ≠ .train then .next s
  else
    let s := { s with boot := { s.boot with stage := .ready, fails := 0, tried := s.boot.trial } }
    let s := { s with nmd := s.nmd.map fun (x : Nmd) => if x.state = NmdState.training then { x with state := .live } else x }
    .next (s.log 0x0A04 [s.boot.running.toNat, (s.now - s.boot.startTb) / 1000000])

/-- A boot runs that has not reached READY. -/
def State.booting (s : State) : Bool :=
  match s.boot.stage with
  | .rom | .stage2 | .apply | .train => s.tbm.counting
  | _ => false

/-- BOOT_WATCHDOG (R517): 30 s after the rising edge of PERST_N. -/
def execBootWatchdog (s : State) : Out :=
  if !s.booting then .next s
  else
    let s := s.advance (s.boot.startTb + 30000000000)
    .next (s.failBoot 1)

/-! ### Warm and function-level reset (R515) -/

/-- The bits of a register that a warm reset keeps: its RWL fields (R515, R369). -/
def warmKeep (key : Nat) : Word :=
  if key = Reg.tbCtrl then 0x1F
  else if key = Reg.tbTickSrc then 0xFF
  else if key = Reg.tbTickInDly then 0x3FF
  else if Reg.tbProfFrame ≤ key ∧ key < Reg.tbProfFrame + 32 then (if key % 8 = 0 then 0x3FFF else 0x3FFFFF)
  else if Reg.tbBcnTrim ≤ key ∧ key < Reg.tbBcnTrim + 32 then 0xFF
  else if key = Reg.shtCtrl then 0x3
  else if key = Reg.shtStore then 0x3FF
  else if key = Reg.shtStartFn then 0xFFFFFFFF
  else if key = Reg.shtHouseFb then 0xBF3F3F3F
  else if key = Reg.grdCtrl ∨ key = Reg.vecCtrl ∨ key = Reg.tierCtrl then 0x1
  else if key = Reg.bnkCtrl then 0xFF
  else if key = Reg.nmdCtrl then 0x1FFF
  else if Reg.nmdUpdClip ≤ key ∧ key < Reg.nmdUpdClip + 128 then 0xFFFF
  else if Reg.mbxBind ≤ key ∧ key < Reg.mbxBind + 256 then 0x801FFFFF
  else if key = Reg.reelCtrl then 0xFFFF
  else if key = Reg.reelGroup then 0x1FF
  else if key = Reg.safCtrl then 0xF7F
  else if key = Reg.safPromote then 0xFFFFFFFF
  else if key = Reg.pwrCtrl then 0xFFFF
  else if key = Reg.pwrDroop then 0xFFFFFFFF
  else if [LockBlock.tb, .sht, .grd, .vec, .tier, .bnk, .nmd, .tnt, .ses, .mbx, .reel, .sec, .saf, .pwr].any (fun b => lockReg b = key) then 0x1
  else 0

/-- The registers after a warm reset. -/
def warmRegs (m : Sparse Word) : Sparse Word :=
  Sparse.mapListed regReset (fun k v => (v &&& warmKeep k) ||| (regReset k &&& ~~~(warmKeep k))) m

/-- The grid after a warm reset: grey arrays, the map around them, passes and counts stay. -/
def Grid.warm (g : Grid) : Grid :=
  { Grid.cold g.fuses with
    map := g.map, phys := g.phys, pass := g.pass, fences := g.fences, compared := g.compared, mismatches := g.mismatches, chkCnt := g.chkCnt, excCnt := g.excCnt, greyCnt := g.greyCnt }

/-- A bank after a warm reset. -/
def Bank.warm (b : Bank) : Bank :=
  { Bank.init with state := if b.state = .grey then .grey else .off, ce := b.ce, conf := b.conf }

/-- An NMD after a warm reset: a grey one stays so, the counts stay. -/
def Nmd.warm (x : Nmd) : Nmd :=
  { Nmd.init with state := x.state, ceCnt := x.ceCnt, ueCnt := x.ueCnt, retrain := x.retrain, errs := x.errs, spprRows := x.spprRows }

/-- A reel-link port after a warm reset: it trains again unless it is grey. -/
def Port.warm (p : Port) : Port :=
  { Port.init with state := if p.state = .grey then PortState.grey else PortState.training, crc := p.crc, miss := p.miss, void := p.void, stray := p.stray,
                   tx := p.tx, rx := p.rx }

/-- The device with the director, NMD and link firmware restarted. -/
def State.warm (s : State) : State :=
  { State.reset with
    tbm := { s.tbm with presetArmed := false, nowHi := 0, lastHi := 0 },
    regs := warmRegs s.regs,
    player := { Player.init with ovrCnt := s.player.ovrCnt, shedCnt := s.player.shedCnt, fenceCrc := s.player.fenceCrc,
                                 fenceColl := s.player.fenceColl, grey := s.player.grey },
    grid := s.grid.warm, vec := { VecEngine.init with grey := s.vec.grey, greyNext := s.vec.greyNext },
    tiers := { Tiers.init with live := s.tiers.live, firstLost := s.tiers.firstLost, anyLost := s.tiers.anyLost, rebuild := s.tiers.rebuild,
                               rebuiltCnt := s.tiers.rebuiltCnt,
                               moveCnt := s.tiers.moveCnt },
    banks := { s.banks with bank := Sparse.mapListed (fun _ => Bank.init) (fun _ b => b.warm) s.banks.bank, passMs := 0 },
    nmd := s.nmd.map Nmd.warm, slots := Sparse.mapListed (fun _ => HotSlot.init) (fun _ (h : HotSlot) => { HotSlot.init with grey := h.grey }) s.slots,
    upd := s.upd.map fun (u : UpdEngine) => { UpdEngine.init with blocks := u.blocks, nonfin := u.nonfin },
    ucl := s.ucl.map fun (p : UclPort) => { p with frameReplays := 0 },
    reel := { Reel.init with port := s.reel.port.map Port.warm, sends := s.reel.sends },
    sec := { s.sec with part := Security.init.part },
    saf := { s.saf with reqs := [] }, lanes := s.lanes, clog := s.clog, pwr := s.pwr, boot := s.boot, pins := s.pins, host := s.host, pending := s.pending,
    free := s.free }

/-- The director and the NMDs, whose firmware restarts, are receivers that were reset (R411). -/
def State.resetReceivers (s : State) : State := s.each (0x01 :: (List.range 12).map fun n => 0x10 + n) State.receiverReset

/-- WARM_RESET (R411, R515): only with no partition active and outside the safe state. -/
def execWarmReset (s : State) : Out :=
  if s.anyActive || s.saf.safe then .next (s.raise Reg.bootStatus 5)
  else .next (s.warm.resetReceivers.log 0x0A0A [])

/-- FUNCTION_LEVEL_RESET (R411, R515): the function's ring set is disabled, its dailies ring too, and the channels that it receives on are
cleared. -/
def execFunctionLevelReset (fn : Nat) (s : State) : Out :=
  if !s.fnPresent fn then .next s
  else
    let set := if fn = 0 then 32 else fn - 1
    let s := s.each (List.range 16) fun s n => ((s.setFld (sqCfgKey set n) 0 1 0).setFld (cqCfgKey set n) 0 1 0)
    let r := s.ringSet set
    let busy := (List.range 16).map fun n => s.sqItems set n
    let s := s.setRingSet set { r with
      sq := r.sq.zipIdx.map fun (e : SubRing × Nat) =>
        { e.1 with mode := if e.1.mode ≠ .off && busy.getD e.2 false then .draining else .off, seen := [] },
      cq := r.cq.map fun (q : CompRing) => { q with mode := .off },
      dailies := { r.dailies with armed := false, pending := none } }
    .next (s.receiverReset (if fn = 0 then 0x20 else 0x40 + (fn - 1)))

/-! ### Commit and trial (R519, R520) -/

/-- BOOT_COMMIT (R519): the running trial set becomes last good and the fused counts rise to its levels, up to 64. -/
def execBootCommit (s : State) : Out :=
  let b := s.boot
  if !b.trial || b.stage ≠ .ready then .next (s.raise Reg.bootStatus 5)
  else
    let fused := (b.fused.zip b.comps).map fun (e : Nat × Component5) => max e.1 (min 64 e.2.arb)
    let s := { s with boot := { b with fused := fused, lastGood := b.running, trialMask := 0, trial := false, tried := false } }
    .next (s.log 0x0A06 (b.running.toNat :: fused))

/-- TRIAL_MASK_WRITE (R520): the new mask replaces the old one. -/
def execTrialMaskWrite (mask : BitVec 5) (s : State) : Out :=
  .next { s with boot := { s.boot with trialMask := mask, tried := false } }

/-! ### Flash operations (R520) -/

/-- The range touches the board's part of the flash or an area of the last good set. -/
def State.flashDenied (s : State) (off len : Nat) : Bool :=
  decide (0 < len) && (decide (off < 0x100000) || components.any fun c =>
    let a := areaBase (slotIn s.boot.lastGood c) c
    decide (off < a + fwArea c) && decide (a < off + len))

/-- A flash operation ends with a code: its status, its record, and go clears. -/
def State.endFlash (s : State) (op off len code : Nat) : State :=
  let s := s.setFld Reg.bootFlCtrl 31 1 0
  { s with boot := { s.boot with flashOp := none, flashCode := code } }.log 0x0A09 [op, off, len, code]

/-- A flash operation of the BOOT_FL registers starts, or is refused: ALIGN, then DENIED. -/
def State.startFlash (s : State) (op unit : Nat) (data : Option Blob) : State :=
  if s.boot.flashOp.isSome then s
  else
    let off := (s.reg Reg.bootFlOff).toNat
    let len := (s.reg Reg.bootFlLen).toNat
    let s := s.setReg Reg.bootFlCtrl (BitVec.ofNat 32 (op + 2147483648))
    if off % unit ≠ 0 || len % unit ≠ 0 then s.endFlash op off len 2
    else if s.flashDenied off len then s.endFlash op off len 1
    else { s with boot := { s.boot with flashOp := some { op := op, off := off, len := len, data := data } } }

/-- FLASH_ERASE (R520): op ERASE with go, in sectors of 64 KiB. -/
def execFlashErase (s : State) : Out := .next (s.startFlash 1 65536 none)

/-- FLASH_PROGRAM (R520): op PROGRAM with go, in pages of 256 bytes; `data` is what the host read gave. -/
def execFlashProgram (data : Option Blob) (s : State) : Out := .next (s.startFlash 2 256 data)

/-- FLASH_OP_DONE (R520, R523): the operation ends; a device error leaves its range undefined. -/
def execFlashOpDone (ok : Bool) (s : State) : Out :=
  match s.boot.flashOp with
  | none => .next s
  | some f =>
    if !ok then .next (s.cutFlash.endFlash f.op f.off f.len 3)
    else if f.op = 1 then .next ((s.writeFlash f.off (List.replicate f.len 0xFF)).endFlash 1 f.off f.len 0)
    else match f.data with
      | none => .next (s.endFlash f.op f.off f.len 4)
      | some bs => .next ((s.writeFlash f.off ((padTo f.len bs).take f.len)).endFlash f.op f.off f.len 0)

/-! ### Recovery (R521, R522) -/

/-- The channel on which the ROM answers. -/
def replyChannel (bmc : Bool) : Nat := if bmc then 63 else 61

/-- A request can be taken: recovery mode, and the reply channel is free. -/
def State.recoveryOpen (s : State) (bmc : Bool) : Bool :=
  s.boot.stage = .recovery && (s.chan (replyChannel bmc)).state = .empty

/-- The reply of a request: its op, a status and the next expected offset. -/
def State.recoveryReply (s : State) (bmc : Bool) (op status : Nat) : State :=
  let next := match s.boot.recovery with
    | some r => r.offset
    | none => 0
  let ws := ([op, status, next] ++ List.replicate 13 0).map (BitVec.ofNat 32)
  let s := { s with boot := { s.boot with reply := some ws } }
  s.setChan (replyChannel bmc) { s.chan (replyChannel bmc) with state := .full, data := ws, abort := false }

/-- Erases a component area. -/
def State.eraseArea (s : State) (slot c : Nat) : State := s.writeFlash (areaBase slot c) (List.replicate (fwArea c) 0xFF)

/-- RECOVERY_BEGIN (R522): the area is erased and offset 0 is expected. A slot or component that does not exist is DENIED. -/
def execRecoveryBegin (bmc : Bool) (slot comp : Nat) (s : State) : Out :=
  if !s.recoveryOpen bmc then .next s
  else if 1 < slot || comp < 1 || 5 < comp then .next (s.recoveryReply bmc 1 1)
  else
    let s := s.eraseArea slot comp
    let s := { s with boot := { s.boot with recovery := some { slot := slot, comp := comp, offset := 0 } } }
    .next (s.recoveryReply bmc 1 0)

/-- RECOVERY_DATA (R522): 56 bytes at the expected offset, as far as they lie in the area. -/
def execRecoveryData (bmc : Bool) (off : Nat) (data : Blob) (s : State) : Out :=
  if !s.recoveryOpen bmc then .next s
  else match s.boot.recovery with
  | none => .next (s.recoveryReply bmc 2 5)
  | some r =>
    if off ≠ r.offset then .next (s.recoveryReply bmc 2 5)
    else
      let bs := ((padTo 56 data).take 56).take (fwArea r.comp - off)
      let s := s.writeFlash (areaBase r.slot r.comp + off) bs
      let s := { s with boot := { s.boot with recovery := some { r with offset := off + 56 } } }
      .next (s.recoveryReply bmc 2 0)

/-- RECOVERY_END (R518, R522, R524): the image is checked but for compatibility; it enters the trial mask, where the first download of a
recovery replaces what was pending (DEDUCED, log entry 54), or its area is erased. -/
def execRecoveryEnd (bmc : Bool) (total : Nat) (s : State) : Out :=
  let _ := total
  if !s.recoveryOpen bmc then .next s
  else match s.boot.recovery with
  | none => .next (s.recoveryReply bmc 3 5)
  | some r =>
    if s.headerOk r.slot r.comp && s.levelOk r.slot r.comp && s.signedOk r.slot r.comp && s.bodyOk r.slot r.comp then
      let got := s.boot.received ||| BitVec.ofNat 5 (2 ^ (r.comp - 1))
      let s := { s with boot := { s.boot with trialMask := got, received := got, tried := false, recovery := none } }
      let s := s.log 0x0A08 [b2n !s.boot.recoveryStrap, r.comp]
      .next (s.recoveryReply bmc 3 0)
    else
      let s := s.eraseArea r.slot r.comp
      let s := { s with boot := { s.boot with recovery := none } }
      .next (s.recoveryReply bmc 3 6)

/-- RECOVERY_EXIT (R522): the failed-boot count is cleared; the next cold reset boots normally. -/
def execRecoveryExit (bmc : Bool) (s : State) : Out :=
  if !s.recoveryOpen bmc then .next s
  else .next ({ s with boot := { s.boot with fails := 0 } }.recoveryReply bmc 4 0)

end Sys2Proof.Machine
end

