-- ==== Sys2Proof/Machine/Vector.lean ====
section
/-! DEFINITION. The V track: RUN, KAT and METER cues, the vector instructions, the program store and its checks (chapter 7). -/

namespace Sys2Proof.Machine

/-! ### Conversions, generators and tier F access -/

/-- CVTN (R201). -/
def semCvtn (u : Nat) (f : VFields) : VSem := fun s x =>
  let fmt := f.i 0 4
  let blk := f.i 4 3
  let n := f.i 17 7 + 1
  let ls := List.range n
  let ws := ls.map fun l => x.wLane f.a.toNat l
  let put := fun (cs : List Nat) => (List.range 128).map fun l => some (BitVec.ofNat 16 (cs.getD l 0))
  if fmt = 11 then
    let ps := ws.map pair16
    let s := if f.i 15 1 = 1 then
        s.setUnit u ((s.unit u).meterIn (ws.zip (ps.map fun p => toF32 ((fpBF16.value p.1).add (fpBF16.value p.2)).1)) 0)
      else s
    some (s, [.v f.d.toNat (put (ps.map (·.1))), .v (f.d.toNat + 1) (put (ps.map (·.2)))], 0)
  else
    let zp := fld (x.sReg f.c.toNat) 0 8
    let (rnds, s) := s.vrnds u f ls
    let vs := (ws.zip rnds).map fun e => (f32v e.1, e.2)
    let g := if blk = 0 then 128 else blkLen blk
    let bs := (chunks g (cdiv n g) vs).map fun b => convertBlock fmt (blk ≠ 0) (f.i 7 1 = 1) b zp (f.i 13 1 = 1) (f.i 14 1 = 1)
    let codes := bs.flatMap fun b => b.1.map (·.1)
    let scales := bs.flatMap fun b => b.1.map fun _ => b.2
    let nib := bs.foldl (fun a b => b.1.foldl (fun a c => a ||| c.2) a) (0 : BitVec 4)
    let qs := (codes.zip scales).map fun e => toF32 (expand fmt zp (fun _ => 0) e.1 (if blk = 0 then none else some e.2))
    let s := if f.i 15 1 = 1 then s.setUnit u ((s.unit u).meterIn (ws.zip qs) blk) else s
    some (s, .v f.d.toNat (put codes) :: (if blk = 0 then [] else [.v f.b.toNat (put scales)]), nib)

/-- CVTW (R200). No table is named for LUT4 codes: their values are free. -/
def semCvtw (f : VFields) : VSem := fun s x =>
  let fmt := f.i 0 4
  let blk := f.i 4 3
  let n := f.i 17 7 + 1
  let zp := fld (x.sReg f.c.toNat) 0 8
  if fmt = 3 then
    some ({ s with free := s.free + n }, wResult f.d.toNat ((List.range 128).map fun l => some (if l < n then Config.free32 (s.free + l) else 0)), 0)
  else
    let rs := (List.range 128).map fun l =>
      if l < n then
        let code := (x.vLane f.a.toNat l).toNat % 2 ^ fmtBits fmt
        let v := expand fmt zp (fun _ => 0) code (if blk = 0 then none else some (fld (x.vLane f.b.toNat l) 0 8))
        let (w, o) := toF32o v
        (w, ovf o ||| (if v = .nan then Nib.nanIn else 0))
      else (0, 0)
    some (s, wResult f.d.toNat (rs.map fun r => some r.1), rs.foldl (fun a r => a ||| r.2) 0)

/-- FTOI (R167, R201). -/
def semFtoi (u : Nat) (f : VFields) : VSem := fun s x =>
  let ls := (List.range 128).filter (x.guard f)
  let (rnds, s) := s.vrnds u f ls
  let rs := (ls.zip rnds).map fun e => (e.1, convertInt (f32v (x.wLane f.a.toNat e.1)) false 32 0 e.2 (f.i 14 1 = 1))
  let lanes := (List.range 128).map fun l => ((rs.find? fun e => e.1 = l).map fun e => BitVec.ofNat 32 e.2.1)
  some (s, wResult f.d.toNat lanes, rs.foldl (fun a e => a ||| e.2.2) 0)

/-- SLD (R195, R205). -/
def semSld (f : VFields) : VSem := fun s x =>
  let p := (s.unitPlace x (x.sReg f.a.toNat).toNat).plus (f.i 0 29)
  if s.accessOk x.owner false p 4 then some (s.unitRead x (p.run 4), [.s f.d.toNat (BitVec.ofNat 32 (leNat (s.unitBytes x p 4)))], 0)
  else none

/-- SST (R195, R205). -/
def semSst (f : VFields) : VSem := fun s x =>
  let p := (s.unitPlace x (x.sReg f.a.toNat).toNat).plus (f.i 0 29)
  if s.accessOk x.owner true p 4 then some (s, memResult p (leBytes 4 (x.sReg f.d.toNat).toNat), 0) else none

/-- Bytes of a stored row: a PAIR16 plane has BF16 rows. -/
def tRowBytes (fmt : Nat) : Nat := if fmt = 11 then 128 else rowBytes fmt

/-- TLD (R203). -/
def semTld (f : VFields) : VSem := fun s x =>
  let t := s.unitPlace x (x.sReg f.a.toNat).toNat
  let p := rowPlace t f.tFmt f.tBlk f.plane f.row
  let q := scalePlace t f.tBlk f.row
  let k := scalesPerRow f.tBlk
  if s.accessOk x.owner false p (tRowBytes f.tFmt) && (f.tBlk = 0 || s.accessOk x.owner false q k) then
    let row := s.unitBytes x p (tRowBytes f.tFmt)
    let sc := s.unitBytes x q k
    let s := s.unitRead x (p.run (tRowBytes f.tFmt) ++ (if f.tBlk = 0 then [] else q.run k))
    let lanes := fun (g : Nat → Nat) => (List.range 128).map fun l =>
      if l / 64 = f.half then some (BitVec.ofNat 16 (g (l % 64))) else none
    some (s, .v f.d.toNat (lanes (rowCode f.tFmt row)) ::
      (if f.tBlk = 0 then [] else [.v f.b.toNat (lanes fun c => leAt sc (c / min 64 (blkLen f.tBlk)) 1)]), 0)
  else none

/-- TST (R203, R204): the row and its scales are written; the tile's tag line becomes undefined: free bytes. -/
def semTst (f : VFields) : VSem := fun s x =>
  let t := s.unitPlace x (x.sReg f.a.toNat).toNat
  let p := rowPlace t f.tFmt f.tBlk f.plane f.row
  let q := scalePlace t f.tBlk f.row
  let k := scalesPerRow f.tBlk
  if s.accessOk x.owner true p (tRowBytes f.tFmt) && (f.tBlk = 0 || s.accessOk x.owner true q k) && s.accessOk x.owner true t 64 then
    let codes := (List.range 64).map fun c => (x.vLane f.d.toNat (64 * f.half + c)).toNat
    let scales := (List.range k).map fun j => fld (x.vLane f.b.toNat (64 * f.half + j * min 64 (blkLen f.tBlk))) 0 8
    let tag := (List.range 16).flatMap fun i => leBytes 4 (Config.free32 (s.free + i)).toNat
    some ({ s with free := s.free + 16 },
      memResult t tag ++ memResult p (packRow f.tFmt codes) ++ (if f.tBlk = 0 then [] else memResult q (scales.flatMap fun c => leBytes 1 c)), 0)
  else none

/-- TFIN (R204): the tag line with the cue nibble and the meter values, which it then clears. The instruction names no valid
region: the rows and cols bytes are free. -/
def semTfin (u : Nat) (f : VFields) : VSem := fun s x =>
  let t := s.unitPlace x (x.sReg f.a.toNat).toNat
  if s.accessOk x.owner true t 64 then
    let (r, s) := s.draw32
    some (s.setUnit u { x with meterMax := 0, meterNf := 0 }, memResult t (tagLine (f.i 0 4) (f.i 4 3) (1 + fld r 0 6) (1 + fld r 6 6) 1 0 0 s.fnNat x.nibble.toNat (bf16Of x.meterMax) x.meterNf), 0)
  else none

/-- RNG (R170, R202). -/
def semRng (u : Nat) (f : VFields) : VSem := fun s _ =>
  let (rs, s) := s.vdraws u (f.i 0 4 + 1) (f.i 4 1 = 1) (List.range 128)
  some (s, [.v f.d.toNat (rs.map fun r => some (BitVec.ofNat 16 r))], 0)

/-- KSEED (R169, R175, R202). -/
def semKseed (f : VFields) : VSem := fun s x =>
  let key : BitVec 64 := x.sReg (f.a.toNat + 1) ++ x.sReg f.a.toNat
  some (s, [.k ((List.range 128).map fun l => seedLane key (x.sReg f.b.toNat + BitVec.ofNat 32 l).toNat)], 0)

/-! ### Control of a program -/

/-- END (R192): the last instruction of the program; the results already issued still become visible. -/
def execVEnd (u : Nat) (f : VFields) (s : State) : Out :=
  if !s.mayIssue u 0x01 f || s.saf.safe then .next s
  else
    let x := s.unit u
    let s := (s.advance (s.cycleTb x.owner x.cycle)).flushUnits x.cycle
    .next (s.setUnit u { s.unit u with prog := none, loops := [] })

/-- LOOP (R192): opens a loop over the next instructions; it takes one issue cycle. -/
def execVLoop (u : Nat) (f : VFields) (s : State) : Out :=
  if !s.mayIssue u 0x02 f || s.saf.safe then .next s
  else
    let x := s.unit u
    let s := (s.advance (s.cycleTb x.owner x.cycle)).flushUnits x.cycle
    let x := s.unit u
    -- an empty body leaves nothing to repeat
    if x.prog.isNone then .next s
    else if f.i 16 12 = 0 then .next (s.setUnit u x.next)
    else .next (s.setUnit u { x with pc := x.pc + 1, cycle := x.cycle + 1,
                                     loops := (x.pc + 1, x.pc + 1 + f.i 16 12, f.i 0 16 - 1) :: x.loops })

/-! ### The instructions -/

/-- NOP (R195): no operation. Latency 1 (Table 7.2). -/
def execVNop (u : Nat) (f : VFields) (s : State) : Out :=
  .next (s.issue u 0x00 1 f (fun s _ => some (s, [], 0)))

/-- SLI (R195): S[d] := imm, sign-extended. Latency 1 (Table 7.2). -/
def execVSli (u : Nat) (f : VFields) (s : State) : Out :=
  .next (s.issue u 0x08 1 f (semS f fun _ => f.imm.signExtend 32))

/-- SLH (R195): S[d][31:16] := imm[15:0]. Latency 1 (Table 7.2). -/
def execVSlh (u : Nat) (f : VFields) (s : State) : Out :=
  .next (s.issue u 0x09 1 f (semS f fun x => putFld (x.sReg f.d.toNat) 16 16 (f.i 0 16)))

/-- SADD (R195): S[d] := S[a] op S[b], modulo 2^32. Latency 1 (Table 7.2). -/
def execVSadd (u : Nat) (f : VFields) (s : State) : Out :=
  .next (s.issue u 0x0A 1 f (semS f fun x => x.sReg f.a.toNat + x.sReg f.b.toNat))

/-- SSUB (R195): S[d] := S[a] op S[b], modulo 2^32. Latency 1 (Table 7.2). -/
def execVSsub (u : Nat) (f : VFields) (s : State) : Out :=
  .next (s.issue u 0x0B 1 f (semS f fun x => x.sReg f.a.toNat - x.sReg f.b.toNat))

/-- SMUL (R195): S[d] := S[a] op S[b], modulo 2^32. Latency 1 (Table 7.2). -/
def execVSmul (u : Nat) (f : VFields) (s : State) : Out :=
  .next (s.issue u 0x0C 1 f (semS f fun x => x.sReg f.a.toNat * x.sReg f.b.toNat))

/-- SAND (R195): S[d] := S[a] op S[b], modulo 2^32. Latency 1 (Table 7.2). -/
def execVSand (u : Nat) (f : VFields) (s : State) : Out :=
  .next (s.issue u 0x0D 1 f (semS f fun x => x.sReg f.a.toNat &&& x.sReg f.b.toNat))

/-- SOR (R195): S[d] := S[a] op S[b], modulo 2^32. Latency 1 (Table 7.2). -/
def execVSor (u : Nat) (f : VFields) (s : State) : Out :=
  .next (s.issue u 0x0E 1 f (semS f fun x => x.sReg f.a.toNat ||| x.sReg f.b.toNat))

/-- SXOR (R195): S[d] := S[a] op S[b], modulo 2^32. Latency 1 (Table 7.2). -/
def execVSxor (u : Nat) (f : VFields) (s : State) : Out :=
  .next (s.issue u 0x0F 1 f (semS f fun x => x.sReg f.a.toNat ^^^ x.sReg f.b.toNat))

/-- SSHL (R195): S[d] := S[a] shifted left by imm[4:0]. Latency 1 (Table 7.2). -/
def execVSshl (u : Nat) (f : VFields) (s : State) : Out :=
  .next (s.issue u 0x10 1 f (semS f fun x => x.sReg f.a.toNat <<< f.i 0 5))

/-- SSHR (R195): S[d] := S[a] shifted right by imm[4:0], logically. Latency 1 (Table 7.2). -/
def execVSshr (u : Nat) (f : VFields) (s : State) : Out :=
  .next (s.issue u 0x11 1 f (semS f fun x => x.sReg f.a.toNat >>> f.i 0 5))

/-- SADDI (R195): S[d] := S[a] + imm, modulo 2^32. Latency 1 (Table 7.2). -/
def execVSaddi (u : Nat) (f : VFields) (s : State) : Out :=
  .next (s.issue u 0x12 1 f (semS f fun x => x.sReg f.a.toNat + f.imm.signExtend 32))

/-- IADD (R195): W[d] := W[a] op W[b] per lane, int32. Latency 2 (Table 7.2). -/
def execVIadd (u : Nat) (f : VFields) (s : State) : Out :=
  .next (s.issue u 0x18 2 f (semW2 f fun a b => plain (a + b)))

/-- ISUB (R195): W[d] := W[a] op W[b] per lane, int32. Latency 2 (Table 7.2). -/
def execVIsub (u : Nat) (f : VFields) (s : State) : Out :=
  .next (s.issue u 0x19 2 f (semW2 f fun a b => plain (a - b)))

/-- IMUL (R199): W[d] := W[a] op W[b] per lane, int32. Latency 2 (Table 7.2). -/
def execVImul (u : Nat) (f : VFields) (s : State) : Out :=
  .next (s.issue u 0x1A 2 f (semW2 f fun a b => plain (a * b)))

/-- IMAX (R181): W[d] := W[a] op W[b] per lane, int32. Latency 2 (Table 7.2). -/
def execVImax (u : Nat) (f : VFields) (s : State) : Out :=
  .next (s.issue u 0x1B 2 f (semW2 f fun a b => plain (if a.slt b then b else a)))

/-- IMIN (R181): W[d] := W[a] op W[b] per lane, int32. Latency 2 (Table 7.2). -/
def execVImin (u : Nat) (f : VFields) (s : State) : Out :=
  .next (s.issue u 0x1C 2 f (semW2 f fun a b => plain (if b.slt a then b else a)))

/-- IAND (R195): W[d] := W[a] op W[b] per lane, int32. Latency 2 (Table 7.2). -/
def execVIand (u : Nat) (f : VFields) (s : State) : Out :=
  .next (s.issue u 0x1D 2 f (semW2 f fun a b => plain (a &&& b)))

/-- IOR (R195): W[d] := W[a] op W[b] per lane, int32. Latency 2 (Table 7.2). -/
def execVIor (u : Nat) (f : VFields) (s : State) : Out :=
  .next (s.issue u 0x1E 2 f (semW2 f fun a b => plain (a ||| b)))

/-- IXOR (R195): W[d] := W[a] op W[b] per lane, int32. Latency 2 (Table 7.2). -/
def execVIxor (u : Nat) (f : VFields) (s : State) : Out :=
  .next (s.issue u 0x1F 2 f (semW2 f fun a b => plain (a ^^^ b)))

/-- ISHL (R195): W[d] := W[a] shifted left by imm[4:0]. Latency 2 (Table 7.2). -/
def execVIshl (u : Nat) (f : VFields) (s : State) : Out :=
  .next (s.issue u 0x20 2 f (semW1 f fun a => plain (a <<< f.i 0 5)))

/-- ISRA (R199): W[d] := W[a] shifted right arithmetically. Latency 2 (Table 7.2). -/
def execVIsra (u : Nat) (f : VFields) (s : State) : Out :=
  .next (s.issue u 0x21 2 f (semW1 f fun a => plain (a.sshiftRight (f.i 0 5))))

/-- ISHR (R199): W[d] := W[a] shifted right logically. Latency 2 (Table 7.2). -/
def execVIshr (u : Nat) (f : VFields) (s : State) : Out :=
  .next (s.issue u 0x22 2 f (semW1 f fun a => plain (a >>> f.i 0 5)))

/-- ICMP (R197): P[d] := cond(W[a], W[b]), int32. Latency 2 (Table 7.2). -/
def execVIcmp (u : Nat) (f : VFields) (s : State) : Out :=
  .next (s.issue u 0x23 2 f (semP f fun x l => (icond (f.i 0 3) (x.wLane f.a.toNat l) (x.wLane f.b.toNat l), 0)))

/-- FADD (R196): W[d] := W[a] op W[b], binary32. Latency 4 (Table 7.2). -/
def execVFadd (u : Nat) (f : VFields) (s : State) : Out :=
  .next (s.issue u 0x28 4 f (semW2 f fadd))

/-- FSUB (R196): W[d] := W[a] op W[b], binary32. Latency 4 (Table 7.2). -/
def execVFsub (u : Nat) (f : VFields) (s : State) : Out :=
  .next (s.issue u 0x29 4 f (semW2 f fsub))

/-- FMUL (R196): W[d] := W[a] op W[b], binary32. Latency 4 (Table 7.2). -/
def execVFmul (u : Nat) (f : VFields) (s : State) : Out :=
  .next (s.issue u 0x2A 4 f (semW2 f fmul))

/-- FFMA (R196): W[d] := W[a] * W[b] + W[c], one rounding. Latency 4 (Table 7.2). -/
def execVFfma (u : Nat) (f : VFields) (s : State) : Out :=
  .next (s.issue u 0x2B 4 f (semW f fun x l => ffma (x.wLane f.a.toNat l) (x.wLane f.b.toNat l) (x.wLane f.c.toNat l)))

/-- FMAX (R181): maximum of IEEE 754-2019. Latency 2 (Table 7.2). -/
def execVFmax (u : Nat) (f : VFields) (s : State) : Out :=
  .next (s.issue u 0x2C 2 f (semW2 f fmaxR))

/-- FMIN (R181): minimum of IEEE 754-2019. Latency 2 (Table 7.2). -/
def execVFmin (u : Nat) (f : VFields) (s : State) : Out :=
  .next (s.issue u 0x2D 2 f (semW2 f fminR))

/-- FABS (R195): sign bit cleared, NaN codes included. Latency 2 (Table 7.2). -/
def execVFabs (u : Nat) (f : VFields) (s : State) : Out :=
  .next (s.issue u 0x2E 2 f (semW1 f fun a => plain (a &&& 0x7FFFFFFF)))

/-- FNEG (R195): sign bit inverted, NaN codes included. Latency 2 (Table 7.2). -/
def execVFneg (u : Nat) (f : VFields) (s : State) : Out :=
  .next (s.issue u 0x2F 2 f (semW1 f fun a => plain (a ^^^ 0x80000000)))

/-- FTSUM (R199): W[d] := sum, W[d+1] := error. Latency 4 (Table 7.2). -/
def execVFtsum (u : Nat) (f : VFields) (s : State) : Out :=
  .next (s.issue u 0x30 4 f (fun s x =>
    let rs := (List.range 128).map fun l => if x.guard f l then some (ftsum (x.wLane f.a.toNat l) (x.wLane f.b.toNat l)) else none
    some (s, wResult f.d.toNat (rs.map fun o => o.map (·.1)) ++ wResult (f.d.toNat + 1) (rs.map fun o => o.map (·.2.1)),
      rs.foldl (fun n o => match o with | some r => n ||| r.2.2 | none => n) 0)))

/-- FCMP (R197): P[d] := cond(W[a], W[b]), binary32. Latency 2 (Table 7.2). -/
def execVFcmp (u : Nat) (f : VFields) (s : State) : Out :=
  .next (s.issue u 0x31 2 f (semP f fun x l => fcond (f.i 0 3) (x.wLane f.a.toNat l) (x.wLane f.b.toNat l)))

/-- FEXP2 (R196): W[d] := f(W[a]), correctly rounded (Table 7.6). Latency 12 (Table 7.2). -/
def execVFexp2 (u : Nat) (f : VFields) (s : State) : Out :=
  .next (s.issue u 0x32 12 f (semW1 f fexp2))

/-- FLOG2 (R196): W[d] := f(W[a]), correctly rounded (Table 7.6). Latency 12 (Table 7.2). -/
def execVFlog2 (u : Nat) (f : VFields) (s : State) : Out :=
  .next (s.issue u 0x33 12 f (semW1 f flog2))

/-- FRCP (R196): W[d] := f(W[a]), correctly rounded (Table 7.6). Latency 12 (Table 7.2). -/
def execVFrcp (u : Nat) (f : VFields) (s : State) : Out :=
  .next (s.issue u 0x34 12 f (semW1 f frcp))

/-- FSQRT (R196): W[d] := f(W[a]), correctly rounded (Table 7.6). Latency 12 (Table 7.2). -/
def execVFsqrt (u : Nat) (f : VFields) (s : State) : Out :=
  .next (s.issue u 0x35 12 f (semW1 f fsqrtR))

/-- FRSQ (R196): W[d] := f(W[a]), correctly rounded (Table 7.6). Latency 12 (Table 7.2). -/
def execVFrsq (u : Nat) (f : VFields) (s : State) : Out :=
  .next (s.issue u 0x36 12 f (semW1 f frsq))

/-- SEL (R195): W[d] := P[c] ? W[a] : W[b] per lane. Latency 2 (Table 7.2). -/
def execVSel (u : Nat) (f : VFields) (s : State) : Out :=
  .next (s.issue u 0x38 2 f (semW f fun x l => plain (if bitOf (x.pReg f.c.toNat) l then x.wLane f.a.toNat l else x.wLane f.b.toNat l)))

/-- BCAST (R195): every lane of W[d] := S[a]. Latency 2 (Table 7.2). -/
def execVBcast (u : Nat) (f : VFields) (s : State) : Out :=
  .next (s.issue u 0x39 2 f (semW f fun x _ => plain (x.sReg f.a.toNat)))

/-- LIDX (R195): lane l of W[d] := l. Latency 2 (Table 7.2). -/
def execVLidx (u : Nat) (f : VFields) (s : State) : Out :=
  .next (s.issue u 0x3A 2 f (semW f fun _ l => plain (BitVec.ofNat 32 l)))

/-- ROT (R195): lane l of W[d] := lane (l + imm) mod 128 of W[a]. Latency 2 (Table 7.2). -/
def execVRot (u : Nat) (f : VFields) (s : State) : Out :=
  .next (s.issue u 0x3B 2 f (semW f fun x l => plain (x.wLane f.a.toNat ((l + f.i 0 7) % 128))))

/-- VMOV (R195): V[d] := V[a]. Latency 2 (Table 7.2). -/
def execVVmov (u : Nat) (f : VFields) (s : State) : Out :=
  .next (s.issue u 0x3C 2 f (fun s x => some (s, [.v f.d.toNat ((List.range 128).map fun l => if x.guard f l then some (x.vLane f.a.toNat l) else none)], 0)))

/-- WEXT (R195): S[d] := lane imm of W[a]. Latency 2 (Table 7.2). -/
def execVWext (u : Nat) (f : VFields) (s : State) : Out :=
  .next (s.issue u 0x3D 2 f (semS f fun x => x.wLane f.a.toNat (f.i 0 7)))

/-- PAND (R195): P[d] := P[a] and P[b]. Latency 2 (Table 7.2). -/
def execVPand (u : Nat) (f : VFields) (s : State) : Out :=
  .next (s.issue u 0x40 2 f (semP f fun x l => (bitOf (x.pReg f.a.toNat) l && bitOf (x.pReg f.b.toNat) l, 0)))

/-- POR (R195): P[d] := P[a] or P[b]. Latency 2 (Table 7.2). -/
def execVPor (u : Nat) (f : VFields) (s : State) : Out :=
  .next (s.issue u 0x41 2 f (semP f fun x l => (bitOf (x.pReg f.a.toNat) l || bitOf (x.pReg f.b.toNat) l, 0)))

/-- PNOT (R195): P[d] := not P[a]. Latency 2 (Table 7.2). -/
def execVPnot (u : Nat) (f : VFields) (s : State) : Out :=
  .next (s.issue u 0x42 2 f (semP f fun x l => (!bitOf (x.pReg f.a.toNat) l, 0)))

/-- PFIRST (R195): P[d] := lanes 0 to imm - 1 set. Latency 2 (Table 7.2). -/
def execVPfirst (u : Nat) (f : VFields) (s : State) : Out :=
  .next (s.issue u 0x43 2 f (semP f fun _ l => (decide (l < f.i 0 8), 0)))

/-- REDADD (R198): binary32 sum of the masked lanes, to every lane of W[d]. Latency 16 (Table 7.2). -/
def execVRedadd (u : Nat) (f : VFields) (s : State) : Out :=
  .next (s.issue u 0x48 16 f (semRed f true 0x80000000 fadd))

/-- REDMAX (R198): binary32 maximum of the masked lanes. Latency 16 (Table 7.2). -/
def execVRedmax (u : Nat) (f : VFields) (s : State) : Out :=
  .next (s.issue u 0x49 16 f (semRed f true 0xFF800000 fmaxR))

/-- REDMIN (R198): binary32 minimum of the masked lanes. Latency 16 (Table 7.2). -/
def execVRedmin (u : Nat) (f : VFields) (s : State) : Out :=
  .next (s.issue u 0x4A 16 f (semRed f true 0x7F800000 fminR))

/-- IREDADD (R198): int32 sum of the masked lanes, modulo 2^32. Latency 16 (Table 7.2). -/
def execVIredadd (u : Nat) (f : VFields) (s : State) : Out :=
  .next (s.issue u 0x4B 16 f (semRed f false 0 fun a b => plain (a + b)))

/-- CVTN (R201): narrows W[a] to codes in V[d] and scales in V[b]. Latency 8 (Table 7.2). -/
def execVCvtn (u : Nat) (f : VFields) (s : State) : Out :=
  .next (s.issue u 0x50 8 f (semCvtn u f))

/-- CVTW (R200): widens V[a] with the scales of V[b] to W[d]. Latency 6 (Table 7.2). -/
def execVCvtw (u : Nat) (f : VFields) (s : State) : Out :=
  .next (s.issue u 0x51 6 f (semCvtw f))

/-- ITOF (R201): int32 to binary32, RNE. Latency 6 (Table 7.2). -/
def execVItof (u : Nat) (f : VFields) (s : State) : Out :=
  .next (s.issue u 0x52 6 f (semW1 f fun a => plain (toF32 (.ofInt a.toInt))))

/-- FTOI (R201): binary32 to int32 under R167. Latency 6 (Table 7.2). -/
def execVFtoi (u : Nat) (f : VFields) (s : State) : Out :=
  .next (s.issue u 0x53 6 f (semFtoi u f))

/-- SLD (R195): S[d] := the word at S[a] x 64 + imm in tier F. Latency 32 (Table 7.2). -/
def execVSld (u : Nat) (f : VFields) (s : State) : Out :=
  .next (s.issue u 0x13 32 f (semSld f))

/-- SST (R195): the word at S[a] x 64 + imm in tier F := S[d]. Latency 32 (Table 7.2). -/
def execVSst (u : Nat) (f : VFields) (s : State) : Out :=
  .next (s.issue u 0x14 32 f (semSst f))

/-- TLD (R203): loads one tile row. Latency 32 (Table 7.2). -/
def execVTld (u : Nat) (f : VFields) (s : State) : Out :=
  .next (s.issue u 0x58 32 f (semTld f))

/-- TST (R203): stores one tile row; the header and trailer are undefined until a TFIN. Latency 32 (Table 7.2). -/
def execVTst (u : Nat) (f : VFields) (s : State) : Out :=
  .next (s.issue u 0x59 32 f (semTst f))

/-- TFIN (R204): writes a tile's header and trailer and clears the two meter values. Latency 32 (Table 7.2). -/
def execVTfin (u : Nat) (f : VFields) (s : State) : Out :=
  .next (s.issue u 0x5A 32 f (semTfin u f))

/-- RNG (R202): lane l of V[d] := draw(n). Latency 2 (Table 7.2). -/
def execVRng (u : Nat) (f : VFields) (s : State) : Out :=
  .next (s.issue u 0x60 2 f (semRng u f))

/-- KSEED (R202): seeds the keyed streams. Latency 8 (Table 7.2). -/
def execVKseed (u : Nat) (f : VFields) (s : State) : Out :=
  .next (s.issue u 0x61 8 f (semKseed f))

/-! ### Cues of the V track -/

/-- The registers that a program finds at the start of a cue (Table 7.10). -/
def State.startScalars (s : State) (o : Nat) (c : Cue) (d : Shot) (u : Nat) : List Word :=
  let w := fun n : Nat => BitVec.ofNat 32 n
  let bound := match s.cueBinding o c with
    | none => [0, 0, 0, 0, 0]
    | some b => [w b.count, b.tokenRef, w b.tint, w (s.tintOf b.tint).gen.toNat,
        match (s.tintOf b.tint).state, s.slotRun b.tint with
        | .hot, some r => w (r.1 / 64)
        | _, _ => 0]
  (List.range 8).map (fun i => w (d.arg i)) ++ bound ++
    [w ((d.unitList.filter fun v => decide (v < u)).length), s.tbm.fn, w (if s.isResident then 0 else s.player.reelPos), 0]

/-- A unit starts a program, or a part of the built-in test (R211, R216). -/
def State.startUnit (s : State) (o i u prog : Nat) (x : Sheet) (c : Cue) : State :=
  let cyc := ((s.ctx o).startOf .v i).getD 0
  let v := s.unit u
  s.setUnit u { v with
    s := Sparse.setRun (fun _ => 0) v.s 0 ((s.startScalars o c (x.shot c) u).take 16), nibble := 0, cueS := 0, cuePairs := 0, cueMax := 0,
    cycle := cyc, prog := some prog, owner := o, lanesOf := s.workOwner o c, pc := 0, loops := [], cue := some (o, i) }

/-- Unit `u` is grey. -/
def State.unitGrey (s : State) (u : Nat) : Bool := bitOf s.vec.grey u

/-- RUN (R211, R219): each named unit that is not grey starts the program. -/
def execRun (owner idx : Nat) (s : State) : Out :=
  .next (s.startCue owner .v idx (fun d => d.f 0 1 = 1 && d.op = 1) fun s x c =>
    let d := x.shot c
    s.each (d.unitList.filter fun u => !s.unitGrey u) fun s u => s.startUnit owner idx u d.prog x c)

/-- The target unit of the known-answer test in the present frame (R216). -/
def State.katTarget (s : State) : Nat := s.fnNat % 32

/-- KAT (R216, R217, R221): a part of the built-in test starts on the frame's target unit, while kat_en is 1 and the unit is not
grey. -/
def execKat (owner idx : Nat) (s : State) : Out :=
  .next (s.startCue owner .v idx (fun d => d.f 0 1 = 1 && d.op = 2) fun s x c =>
    if !s.regBit Reg.vecCtrl 0 || s.unitGrey s.katTarget then s
    else
      let s := { s with vec := { s.vec with katParts := s.vec.katParts + 1 } }
      s.startUnit owner idx s.katTarget (64 + (x.shot c).katPart) x c)

/-- KAT_VERDICT (R217): at the end of part 11 the signature is compared; or a fault was detected in an earlier part. -/
def execKatVerdict (sig : Digest) (part : Nat) (s : State) : Out :=
  let u := s.katTarget
  if s.vec.katResult ≠ 2 || s.vec.katParts ≤ part || 11 < part || (s.ctx 32).state = .void || s.saf.safe then .next s
  else if part = 11 && sig = Config.katSignature then
    .next { s with vec := { s.vec with katResult := 0, katPass := s.vec.katPass.set u (some s.tbm.fn) } }
  else
    .next (s.failKat u part)

/-! ### Fences and the switch of the known-answer tests -/

/-- VECTOR_FENCE_REQ (R218): the unit turns grey at the next tick; ignored for a grey unit. -/
def execVectorFenceReq (u : Nat) (s : State) : Out :=
  let u := u % 32
  if s.unitGrey u || s.vec.greyNext.contains u then .next s
  else .next { s with vec := { s.vec with greyNext := s.vec.greyNext ++ [u] } }

/-- KAT_DISABLE (R221): kat_en written 0; accepted only while no partition is active, and logged. -/
def execKatDisable (s : State) : Out :=
  if s.locked .vec then .next s
  else if s.anyActive then .next (s.raise Reg.vecStatus 4)
  else if s.regBit Reg.vecCtrl 0 then .next ((s.setFld Reg.vecCtrl 0 1 0).log 0x0304 [1])
  else .next s

/-! ### The program store (R191-R194, R201, R207, R208) -/

/-- An instruction's own checks (R193-R195, R199, R201, R202). -/
def instrOk (w : VWord) : Bool :=
  let f := vfields w
  match opShape (vop w) f with
  | none => false
  | some k => k.d.ok f.d.toNat && k.a.ok f.a.toNat && k.b.ok f.b.toNat && k.c.ok f.c.toNat && (k.pg || f.pg = 0) && k.imm f

/-- Loops nest at most four deep, each body wholly inside its outer body and before END (R192). -/
def loopsOk (end_ : Nat) : Nat → List Nat → List VWord → Bool
  | _, _, [] => true
  | i, open_, w :: ws =>
    let open_ := open_.filter fun e => decide (i < e)
    if vop w = 0x02 ∧ i < end_ then
      let e := i + 1 + (vfields w).i 16 12
      decide (e ≤ open_.headD end_) && decide (open_.length < 4) && loopsOk end_ (i + 1) (e :: open_) ws
    else loopsOk end_ (i + 1) open_ ws

/-- The instructions in order of issue with their cycles, up to END; none without one within 1,024 cycles (R192, R207). -/
def schedule (code : List VWord) : Nat → Nat → Nat → List (Nat × Nat × Nat) → List (Nat × VWord) → Option (List (Nat × VWord))
  | 0, _, _, _, _ => none
  | k + 1, pc, cyc, loops, acc =>
    match code[pc]? with
    | none => none
    | some w =>
      if vop w = 0x01 then some ((cyc, w) :: acc).reverse
      else if vop w = 0x02 ∧ (vfields w).i 16 12 ≠ 0 then
        schedule code k (pc + 1) (cyc + 1) ((pc + 1, pc + 1 + (vfields w).i 16 12, (vfields w).i 0 16 - 1) :: loops) ((cyc, w) :: acc)
      else
        let (pc', loops') := loopBack (pc + 1) loops
        schedule code k pc' (cyc + 1) loops' ((cyc, w) :: acc)

/-- Writes of a schedule: (cycle of the write, register). -/
def writeTimes (sch : List (Nat × VWord)) : List (Nat × Nat) :=
  sch.flatMap fun e => (writesOf e.2).map fun r => (e.1 + latOf e.2 - 1, r)

/-- No two results reach one register in one cycle (R191). -/
def noCollision : List (Nat × Nat) → Bool
  | [] => true
  | x :: xs => !xs.contains x && noCollision xs

/-- The program's cycle count (R192). -/
def cycleCount (sch : List (Nat × VWord)) : Nat := sch.foldl (fun m e => max m (e.1 + latOf e.2)) 0

/-- The instructions of an image. -/
def parseProgram (img : Blob) (n : Nat) : List VWord := (List.range n).map fun i => BitVec.ofNat 64 (leAt img (8 * i) 8)

/-- A loaded sheet names the program slot (R208). -/
def State.progInUse (s : State) (slot : Nat) : Bool :=
  s.player.store.any fun e => match e.2 with
    | some x => x.descs.any fun d => Shot.f d 0 1 = 1 && Shot.op d = 1 && Shot.prog d = slot
    | none => false

/-- The lowest free run of the program store of a length, leaving out what slot `slot` holds. -/
def State.freeStore (s : State) (slot n : Nat) : Option Nat :=
  let used := s.vec.slots.filterMap fun e => if e.1 = slot then none else e.2.map fun (p : Program) => (p.start, p.start + p.code.length)
  let starts := 0 :: used.map (·.2)
  (sortBy id (starts.filter fun a => decide (a + n ≤ 4096) && used.all fun u => decide (a + n ≤ u.1) || decide (u.2 ≤ a))).head?

/-- The checks of Table 7.8: a code, with the program where it is 0. -/
def State.checkProgram (s : State) (slot : Nat) (bytes : Blob) (n : Nat) : Nat × Option Program :=
  let code := parseProgram bytes n
  let end_ := (code.findIdx? fun w => vop w = 0x01).getD n
  if !code.all instrOk || !loopsOk end_ 0 [] code then (0x02, none)
  else match schedule code 1025 0 0 [] [] with
    | none => (0x03, none)
    | some sch =>
      if 1024 < cycleCount sch then (0x03, none)
      else if !noCollision (writeTimes sch) then (0x02, none)
      else if s.progInUse slot then (0x0B, none)
      else match s.freeStore slot n with
        | none => (0x0C, none)
        | some a => (0, some { start := a, code := code, cycles := cycleCount sch, digest := sha512 bytes })

/-- PROGRAM_LOAD (R207, R221): VEC_PLOAD_CTRL written with go = 1; ignored while a load runs. -/
def execProgramLoad (slot : Nat) (s : State) : Out :=
  if s.vec.load.isSome then .next s
  else
    let s := s.setFld Reg.vecPloadCtrl 0 6 slot
    .next { s with vec := { s.vec with load := some (slot % 64, s.reg64 Reg.vecPloadAddrLo Reg.vecPloadAddrHi, s.regFld Reg.vecPloadLen 0 13) } }

/-- PROGRAM_LOAD_DONE (R207): the load ends with the bytes that were read, or none where the host read failed. -/
def execProgramLoadDone (img : Option Blob) (s : State) : Out :=
  match s.vec.load with
  | none => .next s
  | some (slot, _, n) =>
    if !s.hostBulk then .next s
    else match img with
      | none => .next { s with vec := { s.vec with load := none, loadCode := 0x0E } }
      | some b =>
        let (code, p) := s.checkProgram slot (slice b 0 (8 * n)) n
        let s := { s with vec := { s.vec with load := none, loadCode := code } }
        match p with
        | some p => .next { s with vec := { s.vec with slots := Sparse.set (fun _ => none) s.vec.slots slot (some p) } }
        | none => .next s

/-- PROGRAM_SLOT_CLEAR (R208): empties a slot that no loaded sheet names. -/
def execProgramSlotClear (slot : Nat) (s : State) : Out :=
  let slot := slot % 64
  if s.progInUse slot then .next (s.raise Reg.vecStatus 4)
  else .next { s with vec := { s.vec with slots := Sparse.set (fun _ => none) s.vec.slots slot none } }

end Sys2Proof.Machine
end

