-- ==== Sys2Proof/Machine/Meter.lean ====
section
/-! DEFINITION. The divergence meter: METER descriptors and METER cues (R184-R186, R213, R219). -/

namespace Sys2Proof.Machine

/-! ### Tensors in tier F -/

/-- The tint in whose hot slot an object stands, with the component that the object belongs to. -/
def State.hotHome (s : State) (h : Nat) : Option (Nat × Component) :=
  s.tints.findSome? fun e =>
    if e.2.state = .hot && e.2.slot.isSome then
      match e.2.componentOf h with
      | some c => if c.kind = 4 then none else some (e.1, c)
      | none => none
    else none

/-- An object can be read in tier F: that is its home, or a copy of it stands in a hot slot (Table 8.4, R213). -/
def State.inF (s : State) (h : Nat) (o : Obj) : Bool := o.home = .f || (s.hotHome h).isSome

/-- Tier F address of a tile of an object in its hot slot. -/
def State.hotTile (s : State) (h i : Nat) : Option Nat :=
  match s.hotHome h with
  | some (t, c) => s.hotTileAt t c (componentTile c.handle (s.compShapes c) h i)
  | none => none

/-- A tile of an object as tier F holds it, in packed form. -/
def State.tensorTile (s : State) (h : Nat) (o : Obj) (i : Nat) : Blob :=
  match s.hotTile h i with
  | some a => s.readF (a + 64) o.tileBytes
  | none => o.tiles.getD i []

/-- Rows and columns of an object, where its tint gives them (R348). -/
def State.objShape (s : State) (h : Nat) : Option (Nat × Nat) :=
  s.tints.findSome? fun e =>
    match e.2.componentOf h with
    | some c => (s.compShapes c)[h - c.handle]?
    | none => none

/-- The value of an element of a packed tile, PAIR16 included: the exact sum of its two parts, NaN or infinite with its high part, and NaN
where a finite high part has a residual that is not finite (R151, R163). -/
def tensorElem (fmt blk zp : Nat) (lut : Nat → Nat) (tile : Blob) (r c : Nat) : Val :=
  if fmt = 11 then
    let part := fun (off : Nat) => fpBF16.value (leAt tile (off + 128 * r + 2 * c) 2)
    let hi := part 0
    let lo := part 8192
    if !hi.isFin then hi else if lo.isFin then (hi.add lo).1 else .nan
  else
    let sc := 64 * scalesPerRow blk
    expand fmt zp lut (codeAt (tile.drop sc) fmt r c) (scaleAt (tile.take sc) blk r c)

/-- Element (r, c) of a tensor of `cols` columns, as binary32 (R184). A METER descriptor names no table: the values of LUT4 codes are
free (log entry 3). -/
def State.tensorAt (s : State) (h : Nat) (o : Obj) (cols zp f r c : Nat) : Word :=
  let tile := s.tensorTile h o (r / 64 * cdiv cols 64 + c / 64)
  toF32 (tensorElem o.fmt o.blk zp (fun i => (Config.free32 (f + i)).toNat % 65536) tile (r % 64) (c % 64))

/-! ### The compare -/

/-- Fields of a METER descriptor (Table 13.5). -/
def Item.meterRows (i : Item) : Nat := i.field 0x18 2 + 1
def Item.meterCols (i : Item) : Nat := i.field 0x1A 2 + 1
def Item.meterG (i : Item) : Nat := blkLen (i.field 0x1C 1)

/-- Blocks of a row, and of the whole compare. -/
def Item.rowBlocks (i : Item) : Nat := cdiv i.meterCols i.meterG
def Item.meterBlocks (i : Item) : Nat := i.meterRows * i.rowBlocks

/-- Block `n` of a compare, in row-major order: its pairs, from the first free value `f`. -/
def State.meterPairs (s : State) (i : Item) (x y : Obj) (f n : Nat) : List (Word × Word) :=
  let r := n / i.rowBlocks
  let c0 := n % i.rowBlocks * i.meterG
  (List.range (min i.meterG (i.meterCols - c0))).map fun j =>
    (s.tensorAt (i.field 0x10 4) x i.meterCols (i.field 0x28 1) f r (c0 + j),
     s.tensorAt (i.field 0x14 4) y i.meterCols (i.field 0x29 1) (f + 16) r (c0 + j))

/-- A block is flagged (R185). -/
def Item.flags (i : Item) (m : Word × Word × Nat × Word) : Bool :=
  let tau := widenBf16 (i.field 0x1E 2)
  let gt := fun a b : Word => f32v a ≠ .nan && f32v b ≠ .nan && decide (0 < (f32v a).cmp (f32v b))
  m.2.2.1 ≠ 0 || (if i.field 0x1D 1 = 0 then gt m.2.2.2 tau else gt m.1 (fmul tau m.2.1).1)

/-- Progress of a compare: blocks finished, sum of s, sum of c - nf, blocks flagged, sum of nf. -/
abbrev MeterRun := Nat × Word × Word × Nat × Nat

/-- One block: its mse and flag are written to the result area, and the sums advance. -/
def State.meterOne (s : State) (i : Item) (x y : Obj) (f : Nat) (run : MeterRun) : State × MeterRun :=
  let n := run.1
  let ps := s.meterPairs i x y f n
  let m := meterBlock ps
  let flag := i.flags m
  let res := i.field 0x20 8
  let s := s.hostWrite (res + 0x40 + 2 * n) (leBytes 2 (bf16Of m.2.2.2))
  let map := res + 0x40 + cdiv (2 * i.meterBlocks) 64 * 64
  let old := if n % 8 = 0 then 0 else ((s.hostByte (map + n / 8)).getD 0).toNat
  let s := s.hostWrite (map + n / 8) (leBytes 1 (old + b2n flag * 2 ^ (n % 8)))
  (s, n + 1, (fadd run.2.1 m.1).1, (fadd run.2.2.1 (f32OfNat (ps.length - m.2.2.1))).1, run.2.2.2.1 + b2n flag, run.2.2.2.2 + m.2.2.1)

/-- Whole blocks of one descriptor within a capacity of pairs: the state, the progress and the capacity left. -/
def State.meterSome (s : State) (i : Item) (x y : Obj) (f cap : Nat) (run : MeterRun) : Nat → State × MeterRun × Nat
  | 0 => (s, run, cap)
  | k + 1 =>
    let len := min i.meterG (i.meterCols - run.1 % i.rowBlocks * i.meterG)
    if i.meterBlocks ≤ run.1 || cap < len then (s, run, cap)
    else
      let (s, run) := s.meterOne i x y f run
      s.meterSome i x y f (cap - len) run k

/-- Runs of tier F that hold the rows of a tensor from block `n0` to before block `n1` of a compare. -/
def State.meterRuns (s : State) (i : Item) (h : Nat) (o : Obj) (n0 n1 : Nat) : List (Nat × Nat) :=
  let tc := cdiv i.meterCols 64
  let r0 := n0 / i.rowBlocks / 64
  let r1 := (n1 - 1) / i.rowBlocks / 64
  if n1 ≤ n0 then []
  else ((List.range ((r1 + 1 - r0) * tc)).filterMap fun j => s.hotTile h (r0 * tc + j)).map fun a => (a, 64 + o.tileBytes)

/-- Bytes of the result area of a compare (Table 6.6). -/
def Item.meterArea (i : Item) : Nat := 0x40 + cdiv (2 * i.meterBlocks) 64 * 64 + cdiv i.meterBlocks 8

/-- A read error in X or Y (R186, R266): the descriptor ends with UNCORRECTABLE, and its result area is undefined: free bytes. -/
def State.failMeter (s : State) (k : ItemKey) (i : Item) : State :=
  let n := cdiv i.meterArea 4
  let bs := ((List.range n).flatMap fun j => leBytes 4 (Config.free32 (s.free + j)).toNat).take i.meterArea
  let s := { s with free := s.free + n, vec := { s.vec with meters := s.vec.meters.filter fun m => m.1 ≠ k } }
  (s.hostWrite (i.field 0x20 8) bs).finish k St.uncorrectable

/-- The item may be bound or act in a frame: it is eligible (R23), and its due frame has come (R50). -/
def Item.ready (i : Item) (fn : BitVec 32) : Bool :=
  (match i.eligible with | some e => fnLe e fn | none => false) &&
    (!bitOf i.raw 9 || decide (sdiff fn (BitVec.ofNat 32 (i.field 8 4)) ≤ 0))

/-- Order of observation, ties by ring number and ring index (R213). -/
def itemRank (e : ItemKey × Item) : Nat := e.2.obs.toNat * 2 ^ 32 + e.1.sq * 2 ^ 16 + e.1.idx

/-- Runs the compares of a partition within a cue's capacity, oldest first (R213). `t0` and `t1` are the cue's first and last instant. -/
def State.meterItems (s : State) (t0 t1 cap : Nat) : List (ItemKey × Item) → State
  | [] => s
  | (k, i) :: rest =>
    match s.obj (i.field 0x10 4), s.obj (i.field 0x14 4) with
    | some x, some y =>
      if !s.inF (i.field 0x10 4) x || !s.inF (i.field 0x14 4) y then (s.finish k St.badDescriptor).meterItems t0 t1 cap rest
      else
        let run : MeterRun := ((s.vec.meters.find? fun m => m.1 = k).map (·.2)).getD (0, 0, 0, 0, 0)
        let f := s.free
        let s := if x.fmt = 3 || y.fmt = 3 then { s with free := f + 32 } else s
        let n0 := run.1
        let (s, run, left) := s.meterSome i x y f cap run (cap + 1)
        let runs := s.meterRuns i (i.field 0x10 4) x n0 run.1 ++ s.meterRuns i (i.field 0x14 4) y n0 run.1
        let s := s.usePort (mkUse Rq.vec k.set false runs t0 t1)
        let (s, bad) := s.eccRead runs
        if bad then (s.failMeter k i).meterItems t0 t1 left rest
        else
          let s := { s with vec := { s.vec with meters := s.vec.meters.filter (fun m => m.1 ≠ k) ++ [(k, run)] } }
          if run.1 < i.meterBlocks then s else s.meterItems t0 t1 left rest
    | _, _ => (s.finish k St.badDescriptor).meterItems t0 t1 cap rest

/-- Pairs that a METER cue takes: those of its descriptor, cut down by its units that are grey (R213, R219; DESIGN CHOICE, log entry 50). -/
def State.meterCap (s : State) (d : Shot) : Nat :=
  let us := d.unitList
  d.pairs * (us.filter fun u => !s.unitGrey u).length / max 1 us.length

/-- METER_SHOT (R213, R219): the partition's pending METER descriptors that are eligible run within the cue's capacity, on the named units
that are not grey. A descriptor whose blocks are all finished completes after the cue. -/
def execMeterShot (owner idx : Nat) (s : State) : Out :=
  .next (s.startCue owner .v idx (fun d => d.f 0 1 = 1 && d.op = 3) fun s x c =>
    let es := s.items.filter fun e => e.1.set = owner && e.2.op = 0x21 && e.2.phase = .waiting && e.2.done.isNone && e.2.ready s.tbm.fn &&
      decide (((s.vec.meters.find? fun m => m.1 = e.1).map fun m => m.2.1).getD 0 < e.2.meterBlocks)
    let cyc := ((s.ctx owner).startOf .v idx).getD 0
    let cap := s.meterCap (x.shot c)
    if cap = 0 then s else s.meterItems (s.cycleT owner cyc) (s.cycleT owner (cyc + c.dur)) cap (sortBy itemRank es))

/-- The result of a compare whose last block is finished: its header and its completion (R186). -/
def State.meterDone (s : State) (k : ItemKey) (i : Item) (run : MeterRun) : State :=
  let pairs := run.2.2.1
  let mse := if f32v pairs = .fin false 0 0 || (f32v pairs).cmp (.fin false 0 0) = 0 then 0x7FC0 else bf16Of (fdiv run.2.1 pairs)
  let s := { s with vec := { s.vec with meters := s.vec.meters.filter fun m => m.1 ≠ k } }
  let head := leBytes 4 i.meterBlocks ++ leBytes 4 run.2.2.2.1 ++ leBytes 4 run.2.2.2.2
  (s.hostWrite (i.field 0x20 8) (head ++ leBytes 2 mse ++ List.replicate 50 0)).finish k St.ok (result128 head)

/-- A METER cue of a partition ends: the compares whose last block it finished are complete (R213). -/
def State.endMeters (s : State) (o : Nat) : State :=
  s.each (s.vec.meters.filter fun m => m.1.set = o) fun s m =>
    match s.item? m.1 with
    | some i => if i.meterBlocks ≤ m.2.1 then s.meterDone m.1 i m.2 else s
    | none => { s with vec := { s.vec with meters := s.vec.meters.filter fun x => x.1 ≠ m.1 } }

/-- METER (R184, R213): two tensors of the partition in tier F, of the rows and columns that the descriptor names; they wait for METER
cues. -/
def execMeter (k : ItemKey) (s : State) : Out :=
  match s.fresh k 0x21 with
  | none => .next s
  | some i =>
    let tiles := cdiv i.meterRows 64 * cdiv i.meterCols 64
    let okObj := fun off zp => match s.obj (i.field off 4) with
      | some o => i.field off 4 / 67108864 = k.set && s.inF (i.field off 4) o && o.tiles.length = tiles && zpOk o.fmt (i.field zp 1) &&
          (match s.objShape (i.field off 4) with | some d => d = (i.meterRows, i.meterCols) | none => true)
      | none => false
    let tau := fpBF16.value (i.field 0x1E 2)
    if okObj 0x10 0x28 && okObj 0x14 0x29 && decide (1 ≤ i.field 0x1C 1) && decide (i.field 0x1C 1 ≤ 4) && decide (i.field 0x1D 1 ≤ 1) && tau.isFin &&
        decide (0 < tau.cmp (.fin false 0 0)) then .next (s.setPhase k .waiting)
    else .next (s.finish k St.badDescriptor)

end Sys2Proof.Machine
end

