-- ==== Sys2Proof/Machine/CueEnd.lean ====
section
/-! DEFINITION. The end of a cue: transfers that are late, programs and their nibbles, reel-link arrivals, and the end of a segment's
cues (R206, R236, R428-R435). -/

namespace Sys2Proof.Machine

/-! ### Track M (R236, R362) -/

/-- A transfer that has not ended by its cue's end (R236): a GATHER and a TINT are counted and logged, and a GATHER, or a TINT that names a
bay, breaks the bay. -/
def State.lateMover (s : State) (o : Nat) (c : Cue) (m : Mover) : State :=
  let s := { s with tiers := { s.tiers with moveLate := satAdd 32 s.tiers.moveLate 1 } }
  let s := (s.raise Reg.tierStatus 2).logUnit 0x0506 o 0xFF 0 [m.at_ s.now, if m.op = MOp.tint then m.tint else 0]
  if m.op = MOp.gather || c.retake || c.bay ≠ 63 then s.breakBay o c else s

/-- A mover has not ended. -/
def Mover.late (m : Mover) (t : Nat) : Bool := match m.endTb with | some e => decide (t < e) | none => true

/-- A sealed tile of a session failed its tag (R229, R250): the session ends with UNCORRECTABLE. -/
def State.failSealed (s : State) (c : Nat) : State := s.loseSession (s.sesOf c).home c

/-- A tile that a GATHER has moved arrives in the stage area. It is read under error correction; where its seal fails, its session ends and
the bay's other items return to pending (R229, R250, R269). -/
def State.arriveTile (s : State) (o : Nat) (c : Cue) (p : Place) (len : Nat) (order : List (Nat × Nat)) (e : Nat × Nat) : State :=
  let s := s.tileRead e.1 e.2
  match s.obj e.1 with
  | some ob =>
    if (s.gathered e).isNone && ob.kind = .kvExtent then (s.failSealed ob.of).breakBay o c else s.landTile p len order e
  | none => s.landTile p len order e

/-- A GATHER cue ends (R228, R236, R249): the tiles that every part of its transfer has moved are in the stage area. -/
def State.settleGather (s : State) (o : Nat) (c : Cue) (d : Shot) (ms : List Mover) : State :=
  let (p, len) := s.mArea o c d
  let all := (ms.flatMap fun m => m.tiles.map fun e => (e.1, e.2.1)).eraseDups
  let order := stageOrder all
  let here := all.filter fun e => ms.all fun m => (m.movedBy s.now).contains e || !(m.tiles.any fun f => (f.1, f.2.1) = e)
  let s := s.each here fun s e => s.arriveTile o c p len order e
  match ms.find? fun m => m.late s.now with
  | some m => s.lateMover o c m
  | none => s

/-- A mover of another op stops at its cue's end: tiles that have arrived stand. -/
def State.settleMover (s : State) (o : Nat) (c : Cue) (m : Mover) : State :=
  let s := s.each (m.movedBy s.now) fun s e => if m.op = MOp.tint || m.op = MOp.migrate then s.tileRead e.1 e.2 else s
  if m.op = MOp.tint then
    let s := s.landTint m s.now
    if m.late s.now then s.lateMover o c m else s
  else if m.op = MOp.migrate then
    let (s, bad) := s.landMoves m s.now
    s.each (dedup bad) fun s c => s.failSealed c
  else s

/-- Every mover of a cue stops, and leaves its stacks to what waits for them (R235, R236). -/
def State.settleCue (s : State) (o i : Nat) (c : Cue) (d : Shot) : State :=
  let mine := s.tiers.running.filter fun m => m.owner = o && m.cue = i
  let s := { s with tiers := { s.tiers with running := s.tiers.running.filter fun m => !(m.owner = o && m.cue = i) } }
  let s := if d.op = MOp.gather then s.settleGather o c d mine else s.each mine fun s m => s.settleMover o c m
  if mine.isEmpty then s else s.replan

/-- Passes whose stacks no UPDATE cue in progress holds any longer are paused (R362). -/
def State.pausePasses (s : State) : State :=
  s.each (List.range 12) fun s n =>
    let u := s.updOf n
    match u.queue, u.slotTb with
    | k :: _, some t0 =>
      if u.running && !s.updOpen (updStacks n k) then
        s.setUpd n { u with paused := true, slotTb := none, doneNs := u.doneNs + (s.now - t0) }
      else s
    | _, _ => s

/-! ### Track V (R183, R206) -/

/-- A RUN cue ends: its units' nibbles and meter totals are reported, and its bay is flagged where it is watched. -/
def State.endRun (s : State) (o i cyc : Nat) (c : Cue) (d : Shot) : State :=
  let s := s.flushUnits cyc
  let us := (List.range 32).filter fun u => (s.unit u).cue = some (o, i)
  let nib := us.foldl (fun (a : BitVec 4) u => a ||| (s.unit u).nibble) 0
  let w := s.workOwner o c
  let s := s.setReg Reg.vecExcStatus (s.reg Reg.vecExcStatus ||| nib.setWidth 32)
  let s := s.setTally w { s.tallyOf w with vecNibble := (s.tallyOf w).vecNibble ||| nib }
  let s := s.each us fun s u =>
    let x := s.unit u
    let t := s.tallyOf w
    s.setTally w { t with meterS := (fadd t.meterS x.cueS).1, meterPairs := (fadd t.meterPairs x.cuePairs).1, meterMax := mseMax t.meterMax x.cueMax }
  let s := s.each us fun s u => s.setUnit u { s.unit u with prog := none, loops := [], cue := none }
  if bitOf d 16 && (nib &&& (Nib.invalid ||| Nib.overflow)) ≠ 0 then s.flagBay o (s.cueBay o c) else s

/-- A part of the built-in test ends. -/
def State.endKat (s : State) (o i cyc : Nat) : State :=
  let s := s.flushUnits cyc
  s.each ((List.range 32).filter fun u => (s.unit u).cue = some (o, i)) fun s u => s.setUnit u { s.unit u with prog := none, loops := [], cue := none }

/-! ### Track L (R428, R429, R432, R433, R435, R439, R461, R462) -/

/-- The key of the generation that a TAG names: the current one, or the previous for as long as it is kept. -/
def State.linkKey (s : State) (gen : Nat) : Option GroupKey :=
  let prev := (s.sec.gkPrev.filter fun e => decide (e.1.gen.toNat = gen) && decide (0 < e.2)).map (·.1)
  match s.sec.gk with
  | some k => if k.gen.toNat = gen then some k else prev
  | none => prev

/-- The data of a transfer, opened by its TAG; none where the tag fails. -/
def State.openTransfer (s : State) (t : Transfer) (tag : Blob) : Option Blob :=
  let ct := (sortBy (fun (h : Nat × Blob) => h.1) t.held).flatMap fun h => h.2
  match s.linkKey (leAt tag 0 1) with
  | none => none
  | some k => (gcmOpen k.key (slice tag 1 12) (linkAad t.stream.toNat s.fnNat t.bytes) ct (slice tag 13 16)).map fun p => p.take t.bytes

/-- The exchange of a step was received badly: by the tint bound in the bay, or with bay 63 by every tint of the owner that trains. -/
def State.badExchange (s : State) (o bay : Nat) : State :=
  let ts := if bay = 63 then (s.tints.filter fun e => e.2.owner = o && e.2.train.cur.inFlight).map (·.1)
    else ((s.ctx o).bindings.filter fun b => b.bay = bay).map fun b => b.tint
  { s with reel := { s.reel with badTints := dedup (s.reel.badTints ++ ts) } }

/-- A transfer failed (R432, R435): a PASS tells the next device, and a bay is not played to its end. -/
def State.failTransfer (s : State) (o : Nat) (d : Shot) (t : Transfer) : State :=
  let s := match t.out with | some p => s.sendFlits p [s.voidFlit d.stream 2] | none => s
  let s := if d.lOp = 2 || d.lLocal then s.badExchange o d.lBay else s
  if d.lBay = 63 then
    let (w, s) := s.draw32
    (s.raise Reg.reelStatus 2).logUnit 0x0702 o 4 d.portIn [w.toNat]
  else
    let x := s.ctx o
    s.setCtx o { x with broken := if x.broken.contains d.lBay then x.broken else x.broken ++ [d.lBay] }

/-- A missing arrival counts against its port (R429). -/
def State.countMiss (s : State) (n : Nat) : State :=
  let s := s.modPort n fun p => { p with miss := satAdd 32 p.miss 1, winMiss := satAdd 16 p.winMiss 1 }
  (s.raise Reg.reelStatus 1).detect 0x0C false 4 n

/-- A transfer is judged at its cue's end: good, or failed with what counts against the port. -/
def State.judgeTransfer (s : State) (o : Nat) (d : Shot) (t : Transfer) : State :=
  let n := d.portIn
  let all := (List.range (cdiv t.bytes 240)).all t.got.contains
  if t.void then (s.modPort n fun p => { p with void := satAdd 32 p.void 1 }).failTransfer o d t
  else
    let s := s.countCrc n t.crcs
    let s := if all then s else s.countMiss n
    if !all || t.bad then s.failTransfer o d t
    else match t.tag with
    | none => s.failTransfer o d t
    | some tag => match s.openTransfer t tag with
      | none => ((s.raise Reg.secStatus 2).logUnit 0x0702 o 4 n [2]).failTransfer o d t
      | some bs => match t.dest with
        | some a => if (s.ctx o).state = .void then s else s.writeF a bs
        | none => s

/-- A RECV or PASS cue ends. -/
def State.endXfer (s : State) (o i : Nat) (d : Shot) : State :=
  match (s.port d.portIn).xfers.find? fun t => t.owner = o && t.cue = i with
  | none => s
  | some t => (s.modPort d.portIn fun p => { p with xfers := p.xfers.filter fun t => !(t.owner = o && t.cue = i) }).judgeTransfer o d t

/-- A VERDICT cue ends: a second pass that never came, although this device's own ok was 1, is what R440 judges. -/
def State.endVerdict (s : State) (d : Shot) : State :=
  let v := s.verdictOf d.lTint
  if v.cues % 2 = 0 && 0 < v.cues && !v.recorded && v.own then s.setVerdict { v with lost := true } else s

/-! ### The command -/

/-- The segment's last non-anchored cue has ended: DONE (Table 3.6). -/
def State.endOfCues (s : State) (o : Nat) (x : Sheet) : State :=
  let p := s.ctx o
  let all := slipTracks.all fun t => ((x.track t).zipIdx).all fun e =>
    e.1.anchor || !p.selected e.1 || p.ended.contains (t, e.2) || p.skipped.contains (t, e.2)
  if p.state = .run && all then s.setCtx o { p with state := .done } else s

/-- What ends with a cue of a track. -/
def State.endOn (s : State) (o : Nat) (t : Track) (i cyc : Nat) (c : Cue) (d : Shot) : State :=
  match t with
  | .a => s
  | .v => if d.op = 1 then s.endRun o i cyc c d else if d.op = 2 then s.endKat o i cyc else if d.op = 3 then s.endMeters o else s
  | .m => (s.settleCue o i c d).pausePasses
  | .l => if d.lOp = 2 || d.lOp = 3 then s.endXfer o i d else if d.lOp = 4 then s.endVerdict d else s

/-- The end of a cue that has started, at its cycle (R206, R236, R362, R428-R435, R439). -/
def State.endCue (s : State) (owner : Nat) (track : Track) (idx : Nat) : State :=
  match s.playing owner with
  | none => s
  | some x =>
    match x.cue? track idx, (s.ctx owner).startOf track idx with
    | some c, some start =>
      if (s.ctx owner).ended.contains (track, idx) || s.saf.safe then s
      else
        let cyc := start + c.dur
        let due := if track = .l then s.lTb owner cyc else s.cycleTb owner cyc
        -- a cue ends with its frame at the latest
        let s := s.advance (if s.tbm.running then min due s.tbm.tNext.toNat else due)
        let s := s.setCtx owner { s.ctx owner with ended := (s.ctx owner).ended ++ [(track, idx)] }
        (s.endOn owner track idx cyc c (x.shot c)).endOfCues owner x
    | _, _ => s

/-- CUE_END (R206, R236, R362, R428-R435, R439): the end of a cue that has started, at its cycle. -/
def execCueEnd (owner : Nat) (track : Track) (idx : Nat) (s : State) : Out := .next (s.endCue owner track idx)

end Sys2Proof.Machine
end

