-- ==== Sys2Proof/Machine/Power.lean ====
section
/-! DEFINITION. Fade, temperature, reference clock and supply (chapter 18). -/

namespace Sys2Proof.Machine

/-! ### The step in force (R500-R502) -/

/-- Time at the step in force is accounted up to the present (R505). -/
def State.countStep (s : State) : State :=
  let p := s.pwr
  let ns := if p.step = 0 then p.stepNs else p.stepNs.modify (p.step - 1) fun n => n + (s.now - p.countedTb)
  { s with pwr := { p with stepNs := ns, countedTb := s.now } }

/-- The runs at F1, F2 and F3 or slower when the step in force becomes `k` (R503). -/
def State.moveRuns (s : State) (k : Nat) : State :=
  { s with pwr := { s.pwr with runs := s.pwr.runs.zipIdx.map fun (e : FadeRun × Nat) =>
      let r := e.1
      if e.2 + 1 ≤ k then { r with since := some (r.since.getD s.now) }
      else match r.since with
        | some t => { r with since := none, present := max r.present (s.now - t) }
        | none => r } }

/-- A segment's clock changes at its first edge at or after the present (R501, R502). -/
def State.rebase (s : State) (o : Nat) : State :=
  let x := s.ctx o
  if x.begun then
    let n := s.cycleAt o s.now
    s.setCtx o { x with refCyc := n, refT := s.cycleTime o n }
  else s

/-- The insert lane's counts of cycles go on from the clock's change, at the first edge at or after the present (R126, R501). -/
def State.rebaseLane (s : State) : State :=
  let f := fun e : Nat × Nat =>
    let n := cdiv (s.now * 105 - e.2) (stepPeriod s.pwr.step)
    (e.1 + n, e.2 + n * stepPeriod s.pwr.step)
  { s with ins := { s.ins with last := s.ins.last.map f, lastOpen := s.ins.lastOpen.map f } }

/-- The step in force becomes `k`. -/
def State.setStep (s : State) (k : Nat) : State :=
  let s := (((s.countStep).moveRuns k).each (List.range 34) State.rebase).rebaseLane
  { s with pwr := { s.pwr with step := k, countFrom := s.now } }

/-- Fade engages a slower step: it counts once (R501, R505, R514). -/
def State.engage (s : State) (k : Nat) : State :=
  let s := (s.setStep k).raise Reg.pwrStatus 4
  { s with pwr := { s.pwr with fadeCnt := satAdd 32 s.pwr.fadeCnt 1, engaged := s.pwr.engaged + 1, slowest := max s.pwr.slowest k } }

/-- DROOP_TRIP (R501, R502, Table 18.8): level `k` trips. A trip never makes the clock faster; one at the step in force restarts the
stable count; under the 115 degree hold levels 1 and 2 do nothing. -/
def execDroopTrip (level : Nat) (s : State) : Out :=
  if level < 1 || 3 < level || s.pwr.gated || !s.pins.mainOn then .next s
  else if s.pwr.step < level then .next (s.engage level)
  else if s.pwr.step = level then .next { s with pwr := { s.pwr with countFrom := s.now } }
  else .next s

/-- FADE_RELEASE (R502): the supply has been stable at the level of the step in force since `stableSince`; 2,000 ns of it release one
step, never past the thermal floor. -/
def execFadeRelease (stableSince : Nat) (s : State) : Out :=
  if s.pwr.step = 0 || s.pwr.hot || s.pwr.gated then .next s
  else
    let due := max stableSince s.pwr.countFrom + 2000
    let s := s.advance due
    if s.now < due then .next s else .next (s.setStep (s.pwr.step - 1))

/-! ### Temperature (R506, R507) -/

/-- Consecutive samples of a sensor at or above 105, 115 and 125 degrees, after one more. -/
def nextRuns (r : Nat × Nat × Nat) (t : Int) : Nat × Nat × Nat :=
  (if 1050 ≤ t then r.1 + 1 else 0, if 1150 ≤ t then r.2.1 + 1 else 0, if 1250 ≤ t then r.2.2 + 1 else 0)

/-- A threshold was reached or left: its record and PWR_STATUS.therm. -/
def State.logThermal (s : State) (threshold : Nat) : State :=
  (s.raise Reg.pwrStatus 5).log 0x0903 [threshold, (intWord s.pwr.tj).toNat]

/-- Tj, its sensor and its peak from the samples of sensors 2-8. -/
def State.takeTj (s : State) (temps : List Int) : State :=
  let tj := temps.foldl max (temps.getD 0 0)
  let i := (temps.findIdx fun t => t = tj) + 2
  { s with pwr := { s.pwr with tj := tj, tjSensor := i, tjPeak := max s.pwr.tjPeak tj } }

/-- The 105 degree threshold. -/
def State.warmStep (s : State) : State :=
  if !s.pwr.warm && s.pwr.hotRuns.any (fun r => decide (2 ≤ r.1)) then
    { s with pwr := { s.pwr with warm := true } }.logThermal 105
  else if s.pwr.warm && decide (10 ≤ s.pwr.coolRuns.1) then { s with pwr := { s.pwr with warm := false } }.logThermal 105
  else s

/-- The 115 degree threshold: its hold engages as a fade to F3 and releases nothing while it lasts. -/
def State.hotStep (s : State) : State :=
  if !s.pwr.hot && s.pwr.hotRuns.any (fun r => decide (2 ≤ r.2.1)) then
    let s := { s with pwr := { s.pwr with hot := true } }.logThermal 115
    if s.pwr.step < 3 && !s.pwr.gated then s.engage 3 else s
  else if s.pwr.hot && decide (10 ≤ s.pwr.coolRuns.2) then { s with pwr := { s.pwr with hot := false } }.logThermal 115
  else s

/-- THERMAL_SAMPLE (R478, R506, R507): one sample of each of sensors 2-8, in 0.1 degrees. A threshold reached is a detection. -/
def execThermalSample (temps : List Int) (s : State) : Out :=
  if temps.length ≠ 7 || !s.pins.mainOn then .next s
  else
    let was := s.pwr.hotRuns.any fun r => decide (2 ≤ r.2.2)
    let s := s.takeTj temps
    let s := { s with pwr := { s.pwr with
      hotRuns := (s.pwr.hotRuns.zip temps).map fun (e : (Nat × Nat × Nat) × Int) => nextRuns e.1 e.2,
      coolRuns := (if temps.all fun t => decide (t ≤ 1000) then s.pwr.coolRuns.1 + 1 else 0,
                   if temps.all fun t => decide (t ≤ 1100) then s.pwr.coolRuns.2 + 1 else 0) } }
    let (warm, hot) := (s.pwr.warm, s.pwr.hot)
    let s := (s.warmStep).hotStep
    if !was && s.pwr.hotRuns.any (fun r => decide (2 ≤ r.2.2)) then .next ((s.logThermal 125).detect 0x0A true 0xFF 0)
    else if (!warm && s.pwr.warm) || (!hot && s.pwr.hot) then .next (s.detect 0x0A false 0xFF 0)
    else .next s

/-! ### Monitors (R508, R509) -/

/-- REFCLK_LOSS (R508): dangerous; TB goes on from the SRD clock and no tick is started. -/
def execRefclkLoss (s : State) : Out :=
  if s.pwr.refLost || !s.pins.perst then .next s
  else .next ({ s with pwr := { s.pwr with refLost := true } }.detect 0x06 true 0xFF 0)

/-- SUPPLY_FAULT (R509): a main rail (0-8 of PWR_RAILn) is outside its limits while PERST_N is high. -/
def execSupplyFault (rail : Nat) (s : State) : Out :=
  if 8 < rail || !s.pins.perst then .next s else .next (s.detect 0x07 true 0xFF 0)

/-! ### At the tick (R503, R505) -/

/-- Thermal ceiling of Table 18.3. -/
def State.thermalCeiling (s : State) : Nat := if s.pwr.hot then 3 else if s.pwr.warm then 2 else 0

/-- Frames since the last one that a run longer than sustain_us at a step or slower reached, among the last hold_frames. -/
def State.lastLong (s : State) (r : FadeRun) : Option Nat :=
  let sustain := 1000 * s.regFld Reg.pwrCtrl 0 10
  let i := (r.longest.take (s.regFld Reg.pwrCtrl 10 6)).findIdx fun n => decide (sustain < n)
  if i < min (s.regFld Reg.pwrCtrl 10 6) r.longest.length then some i else none

/-- The runs of the frame that ends are kept, 63 frames back; at a tick at which no frame ends, the runs that ended before it reach into
no frame. -/
def State.closeRuns (s : State) (ran : Bool) : State :=
  { s with pwr := { s.pwr with runs := s.pwr.runs.map fun (r : FadeRun) =>
      if !ran then { r with present := 0 } else
      let n := max r.present (match r.since with | some t => s.now - t | none => 0)
      { r with longest := (n :: r.longest).take 63, present := 0 } } }

/-- The fit ceiling for the frame that the tick starts, and the sticky step (R503, R514). -/
def State.fixCeiling (s : State) (ran : Bool) : State :=
  let s := (s.countStep).closeRuns ran
  let long := s.pwr.runs.map s.lastLong
  let sticky := if (long.getD 2 none).isSome then 3 else if (long.getD 1 none).isSome then 2 else if (long.getD 0 none).isSome then 1 else 0
  let left := match (if sticky = 0 then none else long.getD (sticky - 1) none) with
    | some i => s.regFld Reg.pwrCtrl 10 6 - i
    | none => 0
  let c := max s.thermalCeiling (max s.pwr.step sticky)
  { s with pwr := { s.pwr with ceilLast := c, sticky := sticky, stickyLeft := left }, player := { s.player with ceiling := c } }

/-- FADE of a frame in which fade engaged (R505). -/
def State.logFade (s : State) : State :=
  if s.pwr.engaged = 0 then s else s.log 0x0902 [s.pwr.engaged, s.pwr.slowest]

/-- The frame's fade counts start again, at the step in force. -/
def State.clearFade (s : State) : State := { s with pwr := { s.pwr with engaged := 0, slowest := s.pwr.step } }

/-- The fades of the frame that ends in the safe state, if one ends (R505). -/
def State.endFades (s : State) (ran : Bool) : State := (if ran then s.logFade else s).clearFade

end Sys2Proof.Machine
end

