-- ==== Sys2Proof/Machine/FrameEnd.lean ====
section
/-! DEFINITION. The end of a frame: its segments and cues close, its overruns and checks are judged, its items go on or return, and
its dailies records are made (R45, R99-R101, R113, R136, R137, R342, R343, R392, R393, R480). In these functions `e` is the state at
the end of the frame, before TB has reached the tick; `s` is the state at the tick. -/

namespace Sys2Proof.Machine

/-! ### Closing the frame -/

/-- Cues that have started and not ended, with the TB at which each ends. -/
def State.openCues (s : State) : List (Nat × Nat × Track × Nat) :=
  (List.range 33).flatMap fun o => match s.playing o with
    | none => []
    | some x => (s.ctx o).started.filterMap fun c =>
      if (s.ctx o).ended.contains (c.1, c.2.1) then none
      else (x.cue? c.1 c.2.1).map fun q =>
        (if c.1 = .l then s.lTb o (c.2.2 + q.dur) else s.cycleTb o (c.2.2 + q.dur), o, c.1, c.2.1)

/-- Steps that have not ended by the end of their frame are dropped: a PASS2 queued at the commit point has the next frame (R362). -/
def State.dropLate (s : State) : State :=
  let late := (List.range 12).flatMap fun n => s.tintsWith n 1 ++ (s.tintsWith n 2).filter fun t => (s.tintOf t).train.cur.placed
  s.each (dedup late) fun s t => s.dropStep t

/-- Pass 2 on the vector units has run by the end of its frame (R359). -/
def State.endVecPass2 (s : State) : State :=
  let ts := (s.tints.filter fun e => e.2.train.cur.placed && e.2.train.cur.onVector && e.2.train.cur.phase = .pass2).map (·.1)
  s.each ts fun s t => s.vecPass2 t

/-- The frame closes: segments that have begun, then the cues in progress in order of their ends, then the step work of the frame;
TB reaches the end of the frame. -/
def State.closeFrame (s : State) : State :=
  if s.saf.safe then s.advance s.tbm.tNext.toNat
  else
    let s := s.each (s.segOrder.filter fun o => (s.ctx o).begun) fun s o => s.closeSegment o
    let s := (sortBy (fun c => c.1) s.openCues).foldl (fun (s : State) c => s.endCue c.2.1 c.2.2.1 c.2.2.2) s
    let s := (s.advance s.tbm.tNext.toNat).endVecPass2
    s.dropLate

/-! ### Overruns (R99, R102) -/

/-- The sheet of a segment that was held beyond its guard band, or of which a cue was shed. -/
def State.overran (e : State) (o : Nat) : Option Sheet :=
  match e.playing o with
  | some x => if (e.ctx o).begun && (decide (x.guardNs < (e.ctx o).heldNs) || decide (0 < (e.ctx o).shedCues)) then some x else none
  | none => none

/-- An overrun frame: a record for each segment concerned, and the counts. -/
def State.judgeOverrun (s e : State) : State :=
  let s := s.each (List.range 33) fun s o => match e.overran o with
    | some x => s.logUnit 0x0201 o 0xFF 0 [x.sheetId.toNat, (e.ctx o).heldNs, (e.ctx o).shedCues]
    | none => s
  if (List.range 33).any fun o => (e.overran o).isSome then
    { s with player := { s.player with
      ovrCnt := satAdd 32 s.player.ovrCnt 1, ovrReview := s.player.ovrReview + 1, ovrConsec := min 3 (s.player.ovrConsec + 1) } }.raise Reg.shtStatus 1
  else { s with player := { s.player with ovrConsec := 0 } }

/-! ### Items of the frame (R100, R101, R307, R326, R382, R385) -/

/-- The sort key of an output entry: logits in descending order, ties by token ID, NaN last (R382). -/
def entryKey (e : Nat × Nat) : Nat :=
  let m := e.2 % 32768
  let k := if 0x7F80 < m then 0x20000 else if e.2 / 32768 % 2 = 0 then 0x8000 - m else 0x8000 + m
  k * 4294967296 + e.1

/-- `n` distinct token IDs below `vocab`, each with a logit: which they are is open (log entry 3). -/
def State.drawEntries (s : State) (vocab : Nat) : Nat → List (Nat × Nat) → List (Nat × Nat) × State
  | 0, acc => (acc, s)
  | n + 1, acc =>
    let (a, s) := s.draw32
    let (b, s) := s.draw32
    -- the rank of the ID among those not yet taken
    let id := (sortBy id (acc.map (·.1))).foldl (fun (i : Nat) u => if u ≤ i then i + 1 else i) (a.toNat % max 1 (vocab - acc.length))
    s.drawEntries vocab n ((id, b.toNat % 65536) :: acc)

/-- out_k and out_addr of a serve item (Table 13.5). -/
def Item.outK (i : Item) : Nat := if i.op = 1 then i.field 0x1C 4 else i.field 0x30 4
def Item.outAddr (i : Item) : Nat := if i.op = 1 then i.field 0x20 8 else i.field 0x28 8

/-- The output entries of a serve item with a tint, in their order (R304, R382). -/
def State.outEntries (s : State) (t : Nat) (i : Item) : List (Nat × Nat) × State :=
  let vocab := (match s.plate.plate with | some p => p.vocab | none => 0) + (s.tintOf t).addedRows
  let (es, s) := s.drawEntries vocab (min i.outK vocab) []
  (sortBy entryKey es, s)

/-- A serve item has left the last layer: it completes, and its session goes on (R100, R307, R311, R385). -/
def State.endServe (s : State) (k : ItemKey) (i : Item) : State :=
  let y := s.sesOf i.ctxNo
  let (es, s) := s.outEntries y.tint i
  let last := y.positions + i.positions - 1
  let st := if i.late then St.late else if i.reloaded then St.tintReloaded else St.ok
  let s := s.setSes i.ctxNo { y with positions := last + 1, inPassage := false, reloadDue := y.reloadDue && !i.reloaded }
  let bytes := es.flatMap fun e => leBytes 4 e.1 ++ leBytes 2 e.2 ++ [0, 0]
  let res := leBytes 4 last ++ leBytes 4 (es.headD (0, 0)).1 ++ leBytes 4 es.length
  let s := s.deliver k st (resultOf res) 0 (if es.isEmpty then [] else [(i.outAddr, bytes)])
  s.judgeHead k.set i.ctxNo

/-- The pass of an item is at its last layer: every layer in one frame when resident, one layer in each when streamed (R29). -/
def State.lastLayer (e : State) (i : Item) : Bool := e.isResident || decide (e.layerCount ≤ i.layers + 1)

/-- An item whose bay was played to its end: it has one layer more; at the last one a serve item completes, and a sample's pass ends. -/
def State.playedItem (s e : State) (units : BitVec 32) (late : Bool) (k : ItemKey) : State :=
  match s.item? k with
  | none => s
  | some i =>
    let i' : Item := { i with
      layers := i.layers + 1, lastFn := e.tbm.fn, firstFn := if i.layers = 0 && i.stage = 0 then e.tbm.fn else i.firstFn,
      units := i.units ||| units, late := i.late || late }
    let s := s.modItem k fun _ => i'
    if !e.lastLayer i then s
    else if i.serves then s.endServe k i'
    else s.modItem k fun (i : Item) => { i with stage := i.stage + 1, layers := 0, phase := .waiting }

/-- Vector units that the RUN cues of a bay name, or with `retake` those of a retake slot; grey ones do not run. -/
def State.bayUnits (e : State) (o bay : Nat) (retake : Bool) : BitVec 32 :=
  match e.playing o with
  | none => 0
  | some x => ((x.track .v).foldl (fun (m : BitVec 32) c =>
      if c.bay = bay && c.retake = retake && (e.ctx o).selected c && (x.shot c).op = 1 then m ||| BitVec.ofNat 32 (x.shot c).units else m) 0) &&&
      ~~~e.vec.grey

/-- Training work of a tint ran in a frame, on some vector units (R341, R342). -/
def State.markRan (s : State) (t : Nat) (fn : BitVec 32) (units : BitVec 32) : State :=
  let x := s.tintOf t
  s.setTint t { x with train.ran := if x.train.ran.head? = some fn then x.train.ran else fn :: x.train.ran, train.units := x.train.units ||| units }

/-- The item is in passage and undecided. -/
def State.passing (s : State) (k : ItemKey) : Bool :=
  match s.item? k with
  | some i => i.phase = .passage && i.done.isNone
  | none => false

/-- A bay of a segment was played to its end (R101). -/
def State.bayPlayed (e : State) (o bay : Nat) : Bool :=
  let x := e.ctx o
  x.begun && !x.fallback && x.state ≠ .void && x.state ≠ .idle && !x.broken.contains bay

/-- A binding of the frame that ends: its items go on, or return (R100, R101, R325). -/
def State.closeBinding (s e : State) (o : Nat) (b : Binding) : State :=
  let ks := b.items.filter fun k => s.passing k
  if !e.bayPlayed o b.bay then ks.foldl (fun (s : State) k => s.returnItem k) s
  else match e.playing o with
  | none => s
  | some x =>
    let units := e.bayUnits o b.bay false
    let late := decide (x.guardNs < (e.ctx o).heldNs)
    let samples := ks.filterMap fun k => (s.item? k).filter fun i => i.trains
    let s := if samples.isEmpty then s else s.markRan b.tint e.tbm.fn units
    let s := ks.foldl (fun (s : State) k => s.playedItem e units late k) s
    let s := if samples.any fun i => i.backward && e.lastLayer i then s.endBackward b.tint (bayLevel (x.bayClass b.bay)) else s
    if samples.isEmpty then s else s.closePasses b.tint

/-- Every binding of the frame closes; an item in passage whose partition bound it in no bay of the frame returns (R101). -/
def State.closeBindings (s e : State) : State :=
  let s := s.each (List.range 32) fun s o => (e.ctx o).bindings.foldl (fun (s : State) b => s.closeBinding e o b) s
  let bound := (List.range 32).flatMap fun o => (e.ctx o).bindings.flatMap fun b => b.items
  let left := (s.openItems fun _ i => i.phase = .passage && (i.serves || i.trains)).filter fun k => !bound.contains k
  left.foldl (fun (s : State) k => s.returnItem k) s

/-- Retakes and vector-unit updates of the frame count as training work of their tints. -/
def State.markFrame (s e : State) : State :=
  let s := (e.ctx 32).retakes.foldl (fun (s : State) r => s.markRan r.2.2.tint e.tbm.fn (e.bayUnits 32 r.1 true)) s
  let ts := (e.tints.filter fun x => x.2.train.cur.placed && x.2.train.cur.onVector).map (·.1)
  s.each ts fun s t =>
    let o := (e.tintOf t).owner
    let units := ((e.ctx o).bindings.filter fun b => b.tint = t).foldl (fun (m : BitVec 32) b => m ||| e.bayUnits o b.bay false) 0
    s.markRan t e.tbm.fn units

/-! ### The roving check (R113-R115, R136, R137) -/

/-- FN of the last passing check of a logical array. -/
def State.passOf (s : State) (g : Nat) : Option (BitVec 32) := Sparse.get (fun _ => none) s.grid.pass g

/-- A fenced logical array takes its replacement: the lowest free spare of its die, else the lowest free one (R113); with none left
the fence is dangerous (R114). -/
def State.replaceArray (s : State) (g : Nat) : State :=
  let old := s.physOf g
  let free := s.freeSpares
  match (free.filter fun p => p / 672 = old / 672) ++ free with
  | [] => s.enterSafe 0x01 0 old
  | p :: _ =>
    let s := (s.setPhys p 0).raise Reg.grdStatus 1
    let s := { s with grid := { s.grid with map := Sparse.set (fun g => g / 640 * 672 + g % 640) s.grid.map g p } }
    s.logUnit 0x0302 0xFF 0 old [g, old, p]

/-- A mismatch is logged and counted (R136, R139). -/
def State.reportMismatch (s e : State) (m : Nat × Nat) : State :=
  let p := e.physOf m.1
  let s := { s with grid := { s.grid with
    failTarget := m.1, failSpare := m.2, failFn := e.tbm.fn, chkCnt := satAdd 32 s.grid.chkCnt 1 } }.raise Reg.grdStatus 0
  (s.logUnit 0x0301 0xFF 0 p [m.1, p, m.2]).detect 0x01 false 0 p

/-- The verdicts on the arrays at a tick, and the fences that follow: target and reporting spare turn grey, and each fenced array is
replaced, in ascending order (R113-R115, R136, R137). At the first tick after a stop of frames they are those of the last frame played
and of the requests made since. -/
def State.judgeArrays (s e : State) : State :=
  let bad := sortBy (fun (m : Nat × Nat) => m.1) e.grid.mismatches
  let good := e.grid.compared.filter fun g => !(bad.any fun m => m.1 = g)
  let s := { s with grid := { s.grid with
    pass := good.foldl (fun (m : Sparse (Option (BitVec 32))) g => Sparse.set (fun _ => none) m g (some e.tbm.fn)) s.grid.pass } }
  let s := bad.foldl (fun (s : State) m => s.reportMismatch e m) s
  let s := bad.foldl (fun (s : State) m => (s.greyArray (e.physOf m.1) false).greyArray m.2 false) s
  let s := { s with grid := { s.grid with fences := [] } }
  s.each (sortBy id (dedup (bad.map (·.1) ++ e.grid.fences))) fun s g => s.replaceArray g

/-- Skips of the frame (R480): each array shadowed for the whole frame without a compared drain. Where the check did not run from the
frame's tick to its end, no array was shadowed for the whole of it (R139, DEDUCED, log entry 54). -/
def State.countSkips (s e : State) : State :=
  if !e.grid.playedFrame then s
  else
    let shadowed := if e.grid.checkedFrame && e.checking then (List.range e.freeSpares.length).map fun j => (e.grid.base + j) % 2560 else []
    s.each (sortBy id (dedup (shadowed ++ e.grid.compared))) fun s g =>
      let put := fun (s : State) (n : Nat) => { s with saf := { s.saf with skips := Sparse.set (fun _ => 0) s.saf.skips g n } }
      if e.grid.compared.contains g then put s 0
      else
        let n := Sparse.get (fun _ => 0) s.saf.skips g + 1
        ((put s n).raise Reg.safStatus 2).logUnit 0x0303 0xFF 0 (e.physOf g) [g, n]

/-- COVERAGE (R480): a skip count at its limit, or too few free spares. -/
def State.judgeCoverage (s : State) : State :=
  let limit := max 1 (s.regFld Reg.safCtrl 8 4)
  let least := max 1 (s.regFld Reg.safCtrl 0 7)
  if (s.saf.skips.any fun x => decide (limit ≤ x.2)) || decide (s.freeSpares.length < least) then s.enterSafe 0x10 0xFF 0 else s

/-- The check base moves on at a tick at which a frame ended, and the next frame's comparisons start (R135, R137, R480). -/
def State.nextChecks (s e : State) : State :=
  { s with grid := { s.grid with
    base := if e.tbm.running then (e.grid.base + e.freeSpares.length) % 2560 else e.grid.base,
    compared := [], mismatches := [], checkedFrame := s.checking, playedFrame := s.player.playing } }

/-! ### Suspect windows (R342, R343) -/

/-- Windows that open with mismatches of arrays (R342): each runs from the frame after the target's last passing check, or from cold
reset, and covers all work. -/
def State.arrayWindows (s e : State) : List (Option (BitVec 32) × Option Nat) :=
  if s.saf.safe then [] else (dedup (e.grid.mismatches.map (·.1))).map fun g => (e.passOf g, (none : Option Nat))

/-- The window that opens with the frame's failed known-answer test: it covers the work of one vector unit. -/
def State.katWindow (s e : State) : List (Option (BitVec 32) × Option Nat) :=
  let u := e.katTarget
  let kat := if e.vec.katResult = 1 then [(e.vec.katPass.getD u none, some u)] else []
  if s.saf.safe then [] else kat

/-- A frame comes after a window's last passing check. -/
def suspectAt (w : Option (BitVec 32)) (fn : BitVec 32) : Bool :=
  match w with
  | none => true
  | some p => !fnLe fn p

/-- The window concerns work that ran on some units. -/
def windowUnits (u : Option Nat) (units : BitVec 32) : Bool :=
  match u with
  | none => true
  | some n => bitOf units n

/-- An item has computed in some frame of its present passage. -/
def Item.computed (i : Item) : Bool := i.phase = .held || decide (0 < i.layers) || decide (0 < i.stage)

/-- What a window does: affected tints are restored (R342); completions held under checked delivery whose item computed in it end
with CHECK_FAILED, and so do items that are still on their way (R343). -/
def State.openWindow (s : State) (w : Option (BitVec 32) × Option Nat) : State :=
  let hit := fun (_ : Nat) (t : Tint) =>
    if t.state ≠ .free && windowUnits w.2 t.train.units && t.train.ran.any (suspectAt w.1) then { t with train := { t.train with affected := true } } else t
  let s := { s with tints := Sparse.mapListed (fun _ => Tint.init) hit s.tints }
  let ks := (s.items.filter fun x => x.1.set < 32 && (s.part x.1.set).alloc.checked && x.2.computed && windowUnits w.2 x.2.units && suspectAt w.1 x.2.lastFn).map (·.1)
  ks.foldl (fun (s : State) k => s.modItem k fun (i : Item) =>
    if i.phase = .held then { i with phase := .done, done := some { status := BitVec.ofNat 8 St.checkFailed, info := 0, result := 0, outs := [] } }
    else if i.done.isNone && i.serves then { i with suspect := true } else i) s

/-! ### Dailies (R392, R393) -/

/-- A count at the width of its field. -/
def satTo (bytes n : Nat) : Blob := leBytes bytes (min n (256 ^ bytes - 1))

/-- Code of a player state (Table 3.5). -/
def PlayState.code : PlayState → Nat
  | .idle => 0
  | .run => 1
  | .hold => 2
  | .shed => 3
  | .void => 4
  | .done => 5

/-- oldest_pass: the earliest last passing check of the active arrays, 0 while some array has none. -/
def State.oldestPass (s : State) : BitVec 32 :=
  let ps := (List.range 2560).map s.passOf
  if ps.any Option.isNone then 0
  else (ps.filterMap id).foldl (fun a p => if fnLe a p then a else p) ((ps.filterMap id).headD 0)

/-- The record of an owner for the frame that ended (Table 13.11); `sheetId` stands where no sheet played. -/
def State.dailiesRecord (s e : State) (o : Nat) (phase : Bool) (sheetId : Nat) : Blob :=
  let x := e.ctx o
  let t := e.tallyOf o
  let d := (s.ringSet o).dailies
  let evs := d.events.take 20
  let flags := b2n phase + 2 * b2n (e.overran o).isSome + 4 * b2n (x.fallback && x.slot.isSome) + 8 * b2n (decide (e.pwr.engaged ≠ 0)) +
    16 * b2n e.tbm.holdover + 32 * b2n t.rejected + 64 * b2n e.tiers.rebuild
  let id := match e.playing o with | some y => y.sheetId.toNat | none => sheetId
  leBytes 4 e.fnNat ++ leBytes 2 e.tbm.epoch.toNat ++ leBytes 1 e.tbm.active.toNat ++ leBytes 1 flags ++ leBytes 8 e.tbm.tLast.toNat ++
    leBytes 2 id ++ leBytes 1 x.state.code ++ leBytes 1 e.player.ceiling ++ satTo 4 x.heldNs ++ satTo 2 x.shedCues ++ leBytes 2 evs.length ++
    satTo 2 d.eventsLost ++ leBytes 2 e.player.reelPos ++ leBytes 2 e.freeSpares.length ++ leBytes 2 e.grid.base ++ satTo 2 e.grid.mismatches.length ++
    leBytes 1 (e.fnNat % 32) ++ leBytes 1 (if e.unitGrey e.katTarget then 3 else e.vec.katResult) ++ leBytes 4 s.oldestPass.toNat ++ satTo 4 e.pwr.engaged ++
    List.replicate 16 0 ++ ((List.range 4).flatMap fun i => satTo 4 (t.exc.getD i 0)) ++ leBytes 1 t.vecNibble.toNat ++ [0, 0, 0] ++
    leBytes 4 t.meterS.toNat ++ leBytes 4 t.meterPairs.toNat ++ leBytes 4 t.meterMax.toNat ++ ((List.range 16).flatMap fun i => satTo 2 (t.completions.getD i 0)) ++
    satTo 2 t.baysBound ++ satTo 2 t.baysTrain ++ satTo 4 t.served ++ satTo 4 t.trained ++ satTo 2 t.retakes ++ satTo 2 t.inserts ++ satTo 4 t.fetched ++
    leBytes 4 (e.pendUsed o) ++ List.replicate 40 0 ++ padTo 320 (evs.flatMap fun v => leBytes 16 v.toNat)

/-- A set's armed ring takes the record of the frame that ended; it waits for the house HOST cues of the next frame (R392). -/
def State.makeRecord (s e : State) (o : Nat) : State :=
  if !(s.ringSet o).dailies.armed then s
  else
    -- the sheet_id of a segment in which no sheet played is open
    let (w, s) := s.draw32
    let d := (s.ringSet o).dailies
    let rec_ := s.dailiesRecord e o d.phase (w.toNat % 65536)
    let wrap := d.index + 1 = 2 ^ d.log2
    s.setRingSet o { s.ringSet o with dailies := { d with
      out := d.out ++ [(d.base.toNat + 512 * d.index, rec_)], index := if wrap then 0 else d.index + 1, phase := if wrap then !d.phase else d.phase,
      events := d.events.drop 20, eventsLost := 0 } }

/-- The dailies of the frame that ended; the counts of the next frame start. -/
def State.tickDailies (s e : State) : State :=
  let s := s.each (List.range 33) fun s o => s.makeRecord e o
  { s with tally := s.tally.map fun _ => Tally.init, vec := { s.vec with katResult := 2, katParts := 0 } }

/-! ### The whole -/

/-- What a tick decides on the arrays: verdicts, fences and replacements, then coverage (R113, R137, R480). -/
def State.judgeGrid (s e : State) : State :=
  let ws := s.arrayWindows e
  let s := (s.judgeArrays e).judgeCoverage
  if s.saf.safe then s else ws.foldl (fun (s : State) w => s.openWindow w) s

/-- What the end of a frame decides; `tick` tells whether a tick begins the next frame, and with it the arrays are judged. -/
def State.judgeFrame (s e : State) (tick : Bool) : State :=
  let s := (s.judgeOverrun e).closeBindings e
  let s := s.markFrame e
  let ws := s.katWindow e
  let s := s.countSkips e
  let s := if tick then s.judgeGrid e else s
  if s.saf.safe then s.endFades true
  else
    let s := ws.foldl (fun (s : State) w => s.openWindow w) s
    (s.logFade.tickDailies e).clearFade

end Sys2Proof.Machine
end

