-- ==== Sys2Proof/Machine/Commit.lean ====
section
/-! DEFINITION. The sheet player at a tick: the commit records against the frame that starts, the sheets and bindings that play, the items
that enter, and the retakes of the frame that ended (R22, R25, R92-R94, R103, R106, R302, R307, R309, R325, R328-R330, R336, R337).
`e` is the state at the end of the ended frame, `s` the state at the tick. -/

namespace Sys2Proof.Machine

/-! ### What is in the frame -/

/-- The frame begins reel position 0: every frame does when resident (R29, R35). -/
def State.atZero (s : State) : Bool := s.isResident || s.player.reelPos = 0

/-- The partition's segment plays in the frame that starts (R403, R404, R412): what takes effect at this tick is counted in. -/
def State.playsNext (s : State) (p : Nat) : Bool :=
  let x := s.part p
  (x.state = .active || (x.activate = some .due && (x.state = .ready || x.state = .frozen))) && x.deactivate ≠ some .due && x.freeze ≠ some .due &&
    x.teardown ≠ some .due && (s.dueFence? 6 p).isNone

/-! ### The checks of R93 -/

/-- Flex bays of a sheet that carry their training variant under a record. -/
def Sheet.trainingOf (x : Sheet) (tr : List Nat) : List Nat := (List.range x.bays.length).filter fun b => x.bayKind b = 3 && tr.contains b

/-- The bay trains: a TRAIN bay, or a flex bay with its training variant. -/
def Sheet.bayTrains (x : Sheet) (tr : List Nat) (b : Nat) : Bool := x.bayKind b = 2 || (x.bayKind b = 3 && tr.contains b)

/-- The sheet alone passes against the frame (R93): profile, clock, reel position, and what other rules make a failure of R93: grey
banks (R266), grey vector units (R219), links (R430) and keys (R461). -/
def State.sheetPasses (s : State) (o slot : Nat) : Bool :=
  match s.sheet o slot with
  | none => false
  | some x =>
    !s.player.grey.contains (o * 64 + slot) && x.profile = s.tbm.active && decide (x.fitMhz ≤ stepMhz s.player.ceiling) && x.resident = s.isResident &&
      (s.isResident || (decide (x.posLo ≤ s.player.reelPos) && decide (s.player.reelPos ≤ x.posHi))) &&
      x.descs.all fun (d : Shot) =>
        ((Shot.refs d).all fun r => decide (2147483648 ≤ r) || (s.bank (r / 262144)).state ≠ .grey) &&
          (d.f 0 1 ≠ 1 || d.op = 2 || d.unitList.all fun u => !s.unitGrey u) &&
          (d.f 0 1 ≠ 3 || (s.linkOk d && !((d.lOp = 1 || d.lOp = 3) && (s.sec.gk.isNone || s.sec.gkSpent))))

/-- Tiles that the GATHER cues of a bay bring at most (R249). -/
def Sheet.gatherCap (x : Sheet) (bay : Nat) : Nat :=
  ((x.track .m).map fun c => let d := x.shot c; if d.op = MOp.gather && d.mBay = bay then d.mCount else 0).sum

/-- Tiles of a session for one layer: of K and V (R249). -/
def State.sesTiles (s : State) (c : Nat) : Nat := 2 * (cdiv (s.sesOf c).positions 64 * s.kvCols)

/-- A binding passes (R93): the tint, its generation, the count, and the header of a training binding (R328). -/
def State.bindingPasses (s : State) (o : Nat) (x : Sheet) (tr : List Nat) (b : Binding) : Bool :=
  let h := s.readF (64 * b.tokenRef.toNat) 8
  decide (b.bay < x.bays.length) && s.registered o b.tint && (s.tintOf b.tint).gen = b.gen && decide (b.count ≤ x.bayRows b.bay) &&
    (!x.bayTrains tr b.bay || ((leAt h 0 4 = 0 || x.bayReel b.bay ≠ 2) && (leAt h 4 4 = 0 || x.bayReel b.bay ≠ 1)))

/-- Each flex bay's variant is one that its cues provide (R93). -/
def Sheet.variantsPass (x : Sheet) (tr : List Nat) : Bool :=
  (List.range x.bays.length).all fun b => x.bayKind b ≠ 3 || !(x.places b (if tr.contains b then 2 else 1)).isEmpty

/-- A record passes R93; each bay is bound once (R94, Table 3.4). -/
def State.recordPasses (s : State) (o : Nat) (r : CommitRec) : Bool :=
  match s.sheet o r.slot with
  | none => false
  | some x => s.sheetPasses o r.slot && x.variantsPass r.training && decide ((r.bindings.map fun b => b.bay).Nodup) &&
      r.bindings.all fun b => s.bindingPasses o x r.training b

/-- Removes one element for each of a list; none where one is missing. -/
def takeAll (have_ : List Nat) : List Nat → Option (List Nat)
  | [] => some have_
  | c :: cs => if have_.contains c then takeAll (have_.erase c) cs else none

/-- The retake classes that a record's training variants need (R103). -/
def State.classesOf (s : State) (o : Nat) (r : CommitRec) : List Nat :=
  match s.sheet o r.slot with
  | some x => ((x.trainingOf r.training).map x.bayClass).filter fun c => c ≠ 0xFF
  | none => []

/-! ### Items that enter (R29, R302, R307, R309, R325, R330) -/

/-- The present segment of a sample in a bay of some rows: the last one holds the rest (R332, R333). -/
def Item.segTokens (i : Item) (rows : Nat) : Nat :=
  let n := max 1 (if i.segs = 0 then cdiv i.tLen (max 1 rows) else i.segs)
  let j := if i.segs = 0 || i.stage < n then i.stage else 2 * n - 1 - i.stage
  min (max 1 rows) (i.tLen - rows * j)

/-- Tokens that an item puts into its bay. -/
def Item.tokens (i : Item) (rows : Nat) : Nat := if i.serves then i.positions else i.segTokens rows

/-- A sample is whole in its bay: one segment (R332). -/
def Item.whole (i : Item) (rows : Nat) : Bool := decide (i.tLen ≤ rows)

/-- A sample may lie in a bay beside the items that the bay already carries: whole samples alone share the forward or the backward part of
a bay (R332). -/
def State.mayShare (s : State) (rows : Nat) (i : Item) (ks : List ItemKey) : Bool :=
  ks.all fun j => match s.item? j with
    | some y => !y.trains || (y.backward && y.segs ≠ 0) ≠ (i.backward && i.segs ≠ 0) || (y.whole rows && i.whole rows)
    | none => true

/-- No eviction, withdrawal or fence of the tint takes effect at the present tick (R24, R298, R312, R487). -/
def State.staysAt (s : State) (t : Nat) : Bool :=
  (s.tintOf t).evict ≠ some .due && (s.tintOf t).withdraw ≠ some .due && (s.dueFence? 7 t).isNone

/-- No close or fence of the session takes effect at the present tick (R310, R488). -/
def State.sessionStays (s : State) (c : Nat) : Bool := (s.sesOf c).close ≠ some .due && (s.dueFence? 8 c).isNone

/-- A waiting item may enter in a bay of the frame that starts. -/
def State.mayEnter (s : State) (o : Nat) (x : Sheet) (tr : List Nat) (b : Binding) (k : ItemKey) (i : Item) : Bool :=
  let t := s.tintOf b.tint
  let trains := x.bayTrains tr b.bay
  s.atZero && i.phase = .waiting && i.done.isNone && k.set = o && i.ready s.tbm.fn && t.state = .hot && s.staysAt b.tint && s.itemTint i = some b.tint &&
    (if i.serves then
      !trains && x.bayKind b.bay ≠ (if i.op = 1 then 1 else 0) && s.sessionHead o i.ctxNo = some k && !(s.sesOf i.ctxNo).inPassage && s.sessionStays i.ctxNo &&
        decide (i.positions ≤ x.bayRows b.bay) && decide (s.sesTiles i.ctxNo ≤ x.gatherCap b.bay)
     else
      i.trains && trains && t.train.cur.samples.contains k && t.train.cur.phase = .joining && !t.train.snapFailed && !t.train.affected &&
        t.train.restore.isNone && (i.segs = 0 || decide (i.stage < i.passes)) && (i.shape.isNone || i.shape = some (x.bayShape b.bay)) &&
        (match t.train.hold with | some l => decide (l ≤ bayLevel (x.bayClass b.bay)) | none => true) &&
        (if i.backward && i.segs ≠ 0 then x.bayReel b.bay ≠ 1 else x.bayReel b.bay ≠ 2))

/-- An item enters in a bay of a shape: it is in passage, and its session is. A sample's first entry takes its slices; short samples share
a slice. -/
def State.enterItem (s : State) (rows shape : Nat) (shared : Bool) (k : ItemKey) (i : Item) : State :=
  let due := i.serves && (s.sesOf i.ctxNo).reloadDue
  let s := s.modItem k fun (i : Item) => { i with phase := .passage, reloaded := i.reloaded || due, shape := some shape }
  if i.serves then s.setSes i.ctxNo { s.sesOf i.ctxNo with inPassage := true } else s.enterSample k rows shared

/-- The items that a binding carries in the frame: those in passage with its tint that entered in a bay of its shape_id go on (R329), and
those that may enter do, while rows are left. -/
def State.carry (s : State) (o : Nat) (x : Sheet) (tr : List Nat) (b : Binding) : State × List ItemKey :=
  let rows := x.bayRows b.bay
  let (s, ks, _) := b.items.foldl (fun (a : State × List ItemKey × Nat) k =>
    let (s, ks, used) := a
    match s.item? k with
    | none => a
    | some i =>
      let stays := s.passing k && k.set = o && s.itemTint i = some b.tint && i.shape = some (x.bayShape b.bay)
      if ks.contains k || rows < used + i.tokens rows || (i.trains && !s.mayShare rows i ks) then a
      else if stays then (s, ks ++ [k], used + i.tokens rows)
      else if s.mayEnter o x tr b k i then
        let shared := ks.any fun j => match s.item? j with | some y => y.trains && y.segs = 1 && y.stage = 0 | none => false
        let s := s.enterItem rows (x.bayShape b.bay) shared k i
        if s.passing k then (s, ks ++ [k], used + i.tokens rows) else (s, ks, used)
      else a) (s, [], 0)
  (s, ks)

/-! ### The contexts of the frame -/

/-- The player context of a segment for the frame that starts; SHT_HELD keeps the ended frame's held time. -/
def State.startCtx (s e : State) (o : Nat) (slot : Option Nat) (fallback : Bool) (bs : List Binding) (tr : List Nat) : State :=
  let held := if (e.ctx o).begun then (e.ctx o).heldNs else 0
  s.setCtx o { PlayCtx.init with slot := slot, fallback := fallback, bindings := bs, training := tr, lastHeld := held }

/-- The owner's fallback sheet plays, with no bay bound; it must be loaded and not grey. -/
def State.startFallback (s e : State) (o : Nat) : State :=
  s.startCtx e o (s.fallbackPlays o) true [] []

/-- A record that failed is logged and counted (R93). -/
def State.rejectRecord (s : State) (o slot : Nat) : State :=
  let s := (s.raise Reg.shtStatus 4).logUnit 0x0202 o 0xFF 0 [1, slot]
  s.setTally o { s.tallyOf o with rejected := true }

/-- A record plays: its sheet and its bindings, with what the dailies count of them (R393). -/
def State.startRecord (s e : State) (o : Nat) (r : CommitRec) : State :=
  match s.sheet o r.slot with
  | none => s.startFallback e o
  | some x =>
    let tr := x.trainingOf r.training
    let (s, bs) := r.bindings.foldl (fun (a : State × List Binding) b =>
      let (s, ks) := a.1.carry o x tr b
      (s, a.2 ++ [{ b with items := ks }])) (s, [])
    let s := s.startCtx e o (some r.slot) (x.kind = 1 || x.kind = 3) bs tr
    let t := s.tallyOf o
    let train := bs.filter fun b => x.bayTrains tr b.bay
    let serve := bs.filter fun b => !x.bayTrains tr b.bay
    s.setTally o { t with baysBound := t.baysBound + bs.length, baysTrain := t.baysTrain + train.length,
                          served := t.served + (serve.map fun b => b.count).sum, trained := t.trained + (train.map fun b => b.count).sum }

/-- The record that was fixed for an owner at the commit point. -/
def State.recordOf (s : State) (o : Nat) : Option CommitRec := (s.player.fixedRecs.find? fun r => r.1 = o).map (·.2)

/-- The house's sheet for the frame (R22, R93, R106): its record, or the one last committed where this frame has none; a record that
fails gives way to the sheet that last played, if that passes, and else to the fallback. A fenced house sheet is not taken up again
without a new record. -/
def State.startHouse (s e : State) : State :=
  let new := s.recordOf 32
  let s := if new.isSome then { s with player := { s.player with forced := s.player.forced.filter fun o => o ≠ 32 } } else s
  if s.player.forced.contains 32 then s.startFallback e 32
  else match new.orElse (fun _ => s.player.lastHouse) with
  | none => s.startFallback e 32
  | some r =>
    if s.recordPasses 32 r then
      let s := s.startRecord e 32 r
      { s with player := { s.player with lastPlayed := some r.slot } }
    else
      let s := s.rejectRecord 32 r.slot
      match s.player.lastPlayed with
      | some k => if s.sheetPasses 32 k then s.startCtx e 32 (some k) false [] [] else s.startFallback e 32
      | none => s.startFallback e 32

/-- One partition's sheet for the frame; the list holds the retake classes that the house sheet has left (R103). In a frame whose profile
was not the expected one, a follower plays the fallbacks (R73). -/
def State.startPart (s e : State) (left : List Nat) (p : Nat) : State × List Nat :=
  if !s.playsNext p then (s.startCtx e p none false [] [], left)
  else if s.tbm.mismatch then (s.startFallback e p, left)
  else match s.recordOf p with
  | none => (s.startFallback e p, left)
  | some r =>
    let s := { s with player := { s.player with forced := s.player.forced.filter fun o => o ≠ p } }
    match (if s.recordPasses p r then takeAll left (s.classesOf p r) else none) with
    | some left => (s.startRecord e p r, left)
    | none => ((s.rejectRecord p r.slot).startFallback e p, left)

/-- Every segment's sheet for the frame that starts; none while the player does not run. -/
def State.startSheets (s e : State) : State :=
  if !s.player.playing then s.each (List.range 34) fun s o => s.startCtx e o none false [] []
  else
    let s := s.startHouse e
    let left := match s.playing 32 with | some x => x.retake | none => []
    let (s, _) := (List.range 32).foldl (fun (a : State × List Nat) p => a.1.startPart e a.2 p) (s, left)
    s.startCtx e 33 none false [] []

/-! ### Retakes (R103, R336, R337) -/

/-- The layer that a bay with a reel field computed in the ended frame, and whether it is on the reverse reel. A bay of both reels does
not say which of its two steps overflowed, nor does a frame of a resident plate say which layer: both are open. -/
def State.retakeLayer (s : State) (j : RetakeJob) : Nat × Bool × State :=
  let (b, s) := if j.reel = 3 then s.drawBool else (decide (j.reel = 2), s)
  if s.isResident then
    let (w, s) := s.draw32
    (w.toNat % max 1 s.layerCount, b, s)
  else (s.layerAt b j.reelPos, b, s)

/-- A layer of a tint was retaken at a level: its count of retaken passes rises (R337). -/
def Training.retook (x : Training) (layer level : Nat) : Training :=
  let n := match x.retakes.find? fun r => r.1 = layer with | some r => r.2.2 | none => 0
  { x with retakes := (x.retakes.filter fun r => r.1 ≠ layer) ++ [(layer, level, n + 1)] }

/-- Passes without a retake end the counts of their layers (R337). -/
def State.clearRetakes (s : State) (j : RetakeJob) (keep : Option Nat) : State :=
  let here := fun l : Nat => s.isResident || (j.reel ≠ 2 && l = s.layerAt false j.reelPos) || (j.reel ≠ 1 && l = s.layerAt true j.reelPos)
  let x := s.tintOf j.binding.tint
  s.setTint j.binding.tint { x with train.retakes := x.train.retakes.filter fun r => keep = some r.1 || !here r.1 }

/-- A flagged bay of the ended frame: it takes a free retake slot of its class, or its step is skipped as a top overflow (R103, R335,
R336). -/
def State.assignRetake (s : State) (j : RetakeJob) : State :=
  let b := j.binding
  let taken := (s.ctx 32).retakes.map (·.1)
  let free := match s.playing 32 with
    | some h => if j.cls = 0xFF then none else (List.range h.retake.length).find? fun i => h.retake.getD i 0xFF = j.cls && !taken.contains i
    | none => none
  match free with
  | none => if j.train then s.skipStep b.tint 1 else s
  | some i =>
    let (l, rev, s) := s.retakeLayer j
    let s := s.setCtx 32 { s.ctx 32 with retakes := (s.ctx 32).retakes ++ [(i, j.owner, b)] }
    let s := s.logUnit 0x0601 j.owner 0xFF 0 [b.tint, l, if rev then 2 else 1, j.cls]
    let s := s.event j.owner 1 j.cls b.tint l (s.tintOf b.tint).gen.toNat 0
    let s := s.setTally j.owner { s.tallyOf j.owner with retakes := (s.tallyOf j.owner).retakes + 1 }
    if !j.train then s
    else
      let s := s.clearRetakes j (some l)
      let s := s.setTint b.tint { s.tintOf b.tint with train := (s.tintOf b.tint).train.retook l j.cls }
      s.modBatch b.tint fun (b : Batch) => { b with retaken := true }

/-- The bays of the ended frame that a retake may concern, in ascending order of partition and bay, and after them the bays whose
retakes played in it (R103, R335). A bay without a binding has nothing to repeat. -/
def State.retakeJobs (e : State) : List RetakeJob :=
  let job := fun (o : Nat) (b : Binding) (flagged alternate : Bool) => (e.playing o).map fun x =>
    let train := x.bayTrains (e.ctx o).training b.bay
    ({ owner := o, binding := b, cls := x.bayClass b.bay, reel := x.bayReel b.bay, reelPos := e.player.reelPos, train := train,
       played := train && e.bayPlayed o b.bay && !b.items.isEmpty, flagged := flagged, alternate := alternate } : RetakeJob)
  ((List.range 32).flatMap fun o =>
    (sortBy (fun (b : Binding) => b.bay) (e.ctx o).bindings).filterMap fun b => job o b ((e.ctx o).flagged.contains b.bay) false) ++
  (e.ctx 32).retakes.map fun r =>
    ({ owner := r.2.1, binding := r.2.2, cls := 0xFF, reel := 0, reelPos := 0, train := true, played := false,
       flagged := (e.ctx 32).flagged.contains (r.2.1 * 64 + r.2.2.bay), alternate := true } : RetakeJob)

/-- Every drain of the ended frame has set its flags (R125): the retakes are assigned, in ascending order of partition and bay (R103); bays
that were not flagged end their counts (R337), and an overflow in a retake alternate is a top overflow (R335). -/
def State.decideRetakes (s : State) : State :=
  if s.grid.drains.any fun (d : Drain) => d.fn ≠ s.tbm.fn && !d.lane && Shot.retakeWatch d.shot then s
  else
    let js := s.player.jobs
    let s := { s with player := { s.player with jobs := [] } }
    let s := s.each (js.filter fun j => !j.alternate && j.played && !j.flagged) fun s j => s.clearRetakes j none
    let s := s.each (js.filter fun j => !j.alternate && j.flagged) fun s j => s.assignRetake j
    s.each (js.filter fun j => j.alternate && j.flagged) fun s j => s.skipStep j.binding.tint 1

/-- At a tick the bays of the ended frame wait for their retakes: until its last drain has ended, at once where none runs on (R103, R125). -/
def State.assignRetakes (s e : State) : State := { s with player := { s.player with jobs := e.retakeJobs } }.decideRetakes

/-- DRAIN_END (R124, R133, R262): the oldest drain of a tile ends; its converted output and trailers are written. A word that a vector
unit writes in the same cycle takes the drain's data. The last drain of an ended frame lets its retakes be assigned (R125). -/
def execDrainEnd (tile : Nat) (differs : List Nat) (s : State) : Out :=
  match s.grid.drains.find? fun (d : Drain) => d.tile = tile with
  | some dr =>
    let s := s.toDrainEnd dr
    let hits := s.drainHits dr
    if hits.isEmpty then .next (s.endDrain dr differs).decideRetakes
    else .next (((s.flushUnits dr.endCyc).endDrain dr differs).collide dr.seg hits).decideRetakes
  | none => .next s

end Sys2Proof.Machine
end

