-- ==== Sys2Proof/Machine/Flex.lean ====
section
/-! DEFINITION. The director's commits: the variants of flex bays that it chooses (R329), and the commit itself (R16, R17, R21, R53, R92). -/

namespace Sys2Proof.Machine

/-! ### Which variant a flex bay takes (R329) -/

/-- The frame that starts `k` ticks from now begins reel position 0; so does the first one of a player that does not run yet. -/
def State.zeroAhead (s : State) (k : Nat) : Bool :=
  s.isResident || !s.player.playing || s.layerCount = 0 || (s.player.reelPos + k) % s.layerCount = 0

/-- shape_ids of the flex bays of a sheet that carry training, in ascending order. -/
def State.trainShapes (s : State) (o slot : Nat) (tr : List Nat) : List Nat :=
  match s.sheet o slot with
  | some x => sortBy id ((x.trainingOf tr).map x.bayShape)
  | none => []

/-- What an owner's flex bays carry in the frame before the one that a commit governs. -/
def State.priorShapes (s : State) (o : Nat) (late : Bool) : List Nat :=
  if late then match s.recordOf o with
    | some r => s.trainShapes o r.slot r.training
    | none => []
  else match (s.ctx o).slot with
    | some k => s.trainShapes o k (s.ctx o).training
    | none => []

/-- A waiting serve item of a partition fits a bay; `sure` asks for what makes it eligible as things stand: its tint HOT and no item of its
session before it. -/
def State.serveFits (s : State) (o : Nat) (x : Sheet) (b : Nat) (sure : Bool) : Bool :=
  s.items.any fun e =>
    let t := s.tintOf (s.sesOf e.2.ctxNo).tint
    e.1.set = o && e.2.serves && e.2.phase = .waiting && e.2.done.isNone && decide (e.2.positions ≤ x.bayRows b) &&
      decide (s.sesTiles e.2.ctxNo ≤ x.gatherCap b) &&
      (if sure then t.state = .hot && t.evict.isNone && t.withdraw.isNone && !bitOf e.2.raw 9 && s.sessionHead o e.2.ctxNo = some e.1 &&
          !(s.sesOf e.2.ctxNo).inPassage && (s.sesOf e.2.ctxNo).close.isNone
        else t.state = .hot || t.state = .loading)

/-- A training segment of a partition fits a bay; `sure` asks for what makes it eligible as things stand. -/
def State.trainFits (s : State) (o : Nat) (x : Sheet) (b : Nat) (sure : Bool) : Bool :=
  s.items.any fun e =>
    let t := s.tintOf (e.2.field 0x10 2)
    let here := e.2.shape.isNone || e.2.shape = some (x.bayShape b)
    e.1.set = o && e.2.trains && e.2.done.isNone && t.train.cur.samples.contains e.1 && here &&
      (if sure then e.2.phase = .waiting && t.state = .hot && t.evict.isNone && t.withdraw.isNone && t.train.cur.phase = .joining && !bitOf e.2.raw 9 &&
          !t.train.snapFailed && !t.train.affected && t.train.restore.isNone && t.train.hold.isNone && (if e.2.backward && e.2.segs ≠ 0 then x.bayReel b ≠ 1 else x.bayReel b ≠ 2)
        else (e.2.phase = .waiting || e.2.phase = .passage) && (t.state = .hot || t.state = .loading))

/-- The variants of a record are those that the director chooses (R329). At reel position 0 a flex bay trains only where no eligible serve
item fits it and a training segment may, and it does where one is eligible and no serve item may fit; through the rest of the reel cycle
the bays of each shape_id keep their variant. -/
def State.flexOk (s : State) (late : Bool) (o : Nat) (r : CommitRec) : Bool :=
  match s.sheet o r.slot with
  | none => true
  | some x =>
    if s.zeroAhead (if late then 2 else 1) then
      (List.range x.bays.length).all fun b =>
        x.bayKind b ≠ 3 ||
          (if r.training.contains b then !s.serveFits o x b true && s.trainFits o x b false else s.serveFits o x b false || !s.trainFits o x b true)
    else s.trainShapes o r.slot r.training = s.priorShapes o late

/-! ### The commit -/

/-- DIRECTOR_COMMIT (R16, R17, R21, R53, R92, R329): records of owners that do not exist are no part of it. The director makes no commit
whose flex variants are not those of R329: such a command has no effect. -/
def execDirectorCommit (recs : List (Nat × CommitRec)) (s : State) : Out :=
  let recs := recs.filter fun r => decide (r.1 ≤ 32)
  if s.saf.safe || !(recs.all fun r => s.flexOk s.commitsLate r.1 r.2) then .next s
  else .next (s.takeCommit recs)

end Sys2Proof.Machine
end

