-- ==== Sys2Proof/Machine/Pins.lean ====
section
/-! DEFINITION. The JTAG port (chapter 20, R532). -/

namespace Sys2Proof.Machine

/-- A JTAG instruction is in force with the data register that it selects: width and captured value. -/
def State.selectIr (s : State) (ir : JtagIr) (dr : Nat × Word) (boundary : Bool) : State :=
  { s with pins := { s.pins with jtagIr := ir, jtagDr := dr, boundary := boundary } }

/-- The boundary-scan instructions need PERST_N low; the spec gives neither the register's length nor its bits, which are free. -/
def State.boundaryScan (s : State) (ir : JtagIr) (drive : Bool) : State :=
  if s.pins.perst || !s.pins.vaux then s
  else
    let (n, s) := s.draw32
    let (w, s) := s.draw32
    s.selectIr ir (n.toNat, w) drive

/-- The TAP in Test-Logic-Reset: IDCODE is selected (IEEE 1149.1). -/
def State.tapReset (s : State) : State := s.selectIr .idcode (32, 0x02560A7B) false

/-- EXTEST (R532): the boundary register drives the pins. -/
def execExtest (s : State) : Out := .next (s.boundaryScan .extest true)

/-- IDCODE (R532): works with VAUX alone. -/
def execIdcode (s : State) : Out := if s.pins.vaux then .next s.tapReset else .next s

/-- SAMPLE/PRELOAD (R532). -/
def execSamplePreload (s : State) : Out := .next (s.boundaryScan .sample false)

/-- VTARGET (R532): the fused VDD_CMP target in mV; works with VAUX alone. -/
def execVtarget (s : State) : Out :=
  if s.pins.vaux then .next (s.selectIr .vtarget (16, Config.vddTarget.zeroExtend 32) false) else .next s

/-- A code that selects debug in lifecycle DEVELOPMENT (Table 20.4). -/
def isDebugCode (code : Byte) : Bool := 0x80 ≤ code.toNat && code.toNat ≤ 0xFE

/-- The one-bit bypass register is selected. -/
def State.selectBypass (s : State) : State := s.selectIr .bypass (1, 0) false

/-- BYPASS (R532): 0xFF, and every code that names no other instruction; a debug code unless debug is active. -/
def execBypass (code : Byte) (s : State) : Out :=
  if !s.pins.vaux || code = 0x00 || code = 0x01 || code = 0x02 || code = 0x10 then .next s
  else if isDebugCode code && s.sec.life = .development then .next s
  else .next s.selectBypass

/-- JTAG_DEBUG (R470, R532): BYPASS outside lifecycle DEVELOPMENT; in it the debug unit is active, of which the spec says nothing more. -/
def execJtagDebug (code : Byte) (s : State) : Out :=
  if !s.pins.vaux || !isDebugCode code then .next s
  else if s.sec.life = .development then .refused (.debugUnit code)
  else .next s.selectBypass

/-- JTAG_TRST (R544): Test-Logic-Reset. -/
def execJtagTrst (s : State) : Out := if s.pins.vaux then .next s.tapReset else .next s

end Sys2Proof.Machine
end

