-- ==== Sys2Proof/Machine/Tick.lean ====
section
/-! DEFINITION. The tick, the commit point and the stop of frames (R21-R24, R43-R46, R58, R59, R353, R486, R546). -/

namespace Sys2Proof.Machine

/-! ### What has waited for a tick -/

/-- A request whose commit point has passed is due (R24). -/
def dueNow : Option Wait → Option Wait
  | some .armed => some .due
  | w => w

/-- A request observed before the commit point at `cp` takes effect at the next tick (R24). -/
def armNow (cp : Nat) : Option Wait → Option Wait
  | some (.observed t) => if t < cp then some .armed else some (.observed t)
  | w => w

/-- Changes every listed tint entry. -/
def State.mapTints (s : State) (f : Tint → Tint) : State := { s with tints := Sparse.mapListed (fun _ => Tint.init) (fun _ t => f t) s.tints }

/-- Changes every listed session context. -/
def State.mapSes (s : State) (f : Ses → Ses) : State := { s with ses := Sparse.mapListed (fun _ => Ses.init) (fun _ x => f x) s.ses }

/-- Requests whose commit point has passed are due at this tick: R24, and the fences of R486-R488. -/
def State.dueRequests (s : State) : State :=
  let s := s.mapParts fun _ (x : Partition) =>
    { x with activate := dueNow x.activate, deactivate := dueNow x.deactivate, teardown := dueNow x.teardown, freeze := dueNow x.freeze }
  let s := s.mapTints fun (t : Tint) => { t with evict := dueNow t.evict, withdraw := dueNow t.withdraw }
  let s := s.mapSes fun (x : Ses) => { x with close := dueNow x.close }
  { s with
    items := s.items.map fun x => if x.2.phase = .armed then (x.1, { x.2 with phase := .due }) else x,
    saf := { s.saf with reqs := s.saf.reqs.map fun (r : FenceReq) => if r.armed then { r with due := true } else r } }

/-- A partition whose last step of teardown has ended is done at this tick (R407). -/
def State.dueTeardowns (s : State) : State :=
  s.mapParts fun p (x : Partition) =>
    if (x.state = .tearing || x.state = .queuedOn) && s.tornDown p then { x with teardown := some .due } else x

/-! ### Moves that switch (R225, R245, R248, R295) -/

/-- Every tile of an object's move is copied and nothing holds the switch back (R225). -/
def Obj.switches (o : Obj) (m : Move) (ended : BitVec 32) (atZero : Bool) : Bool :=
  decide (o.tiles.length ≤ m.copied) && o.written ≠ ended && (atZero || !(o.kind = .tintComponent || o.kind = .optimiser))

/-- The object after its move: a second copy stands on the mirror stack, or its home is the target. -/
def Obj.moved (o : Obj) (m : Move) (mirror : Option Nat) : Obj :=
  if m.mirror then { o with mirror := some m.stack, move := none }
  else { o with home := m.target, stack := if m.target = .s then m.stack else o.stack, mirror := if m.target = .s then mirror else none, move := none }

/-- A session's extents whose tiles are all copied switch their home: to tier H the oldest, back to tier S the newest of those there, whose
sealed tiles are then free (R225, R231, R248). -/
def State.switchExtents (s : State) (c : Nat) : State :=
  let n := s.extentTiles
  let x := s.sesOf c
  let out := if n = 0 then 0 else min x.hQueued (x.hCopied / n)
  let back := if n = 0 then 0 else min x.sQueued (x.sCopied / n)
  if out + back = 0 then s
  else
    let s := s.setSes c { x with hExt := x.hExt + out - back, sExt := x.sExt - out + back, hQueued := x.hQueued - out, hCopied := x.hCopied - out * n,
                                 sQueued := x.sQueued - back, sCopied := x.sCopied - back * n }
    let s := if back = 0 then s else s.freeH fun h i => x.objects.contains h && decide ((x.hExt - back) * s.extentOf ≤ i) && decide (i < x.hExt * s.extentOf)
    { s with tiers := { s.tiers with moveCnt := satAdd 32 s.tiers.moveCnt (out + back) } }

/-- Objects whose moves are complete switch their home, and sessions' extents theirs; a load whose last tile has arrived is hot at this
tick (R225, R248, R295). -/
def State.switchMoves (s e : State) : State :=
  let zero := s.atZero
  let s := s.tiers.objs.foldl (fun (s : State) x => match x.2 with
    | some o => match o.move with
      | some m =>
        if o.switches m e.tbm.fn zero then
          let s := s.setObj x.1 (some (o.moved m (s.mirrorOf m.stack)))
          { s with tiers := { s.tiers with moveCnt := satAdd 32 s.tiers.moveCnt 1 } }
        else s
      | none => s
    | none => s) s
  let s := s.each (s.ses.map fun e => e.1) fun s c => s.switchExtents c
  s.mapTints fun (t : Tint) => if t.state = .loading && decide (t.hotTiles.length ≤ t.moved) then { t with hotDue := true } else t

/-! ### Fences at their tick (R218, R266, R300, R366, R402) -/

/-- Hot slots that a bank belongs to. -/
def State.slotsAt (s : State) (b : Nat) : List Nat :=
  (List.range 32).flatMap fun p => (s.slotsOf p).filter fun h =>
    (s.part p).state ≠ .free && decide ((s.slotOf h).base ≤ b) && decide (b < (s.slotOf h).base + (s.part p).alloc.slotBanks)

/-- A bank fence within a hot slot: the tint leaves it at this tick without write-back, and the slot turns grey (R300). -/
def State.greySlot (s : State) (h : Nat) : State :=
  let y := s.slotOf h
  if y.grey then s
  else
    let s := s.setSlot h { y with grey := true }
    let owner := ((List.range 32).find? fun p => (s.slotsOf p).contains h).getD 0xFF
    let s := s.countFence 10 h owner false
    match y.tint with
    | none => s
    | some t =>
      let lost := decide (0 < (s.tintOf t).writeThrough)
      let s := match (s.tintOf t).state with
        | .loading => s.endLoad t St.fencedUnit
        | .hot => let s := s.startEviction t
                  let s := (s.stopTint t).clearSlot t
                  s.setTint t { s.tintOf t with state := s.restState t, writeThrough := 0 }
        | _ => (s.stopTint t).clearSlot t
      if lost then (s.setTint t { s.tintOf t with writeThrough := 0 }).dropStep t else s

/-- A bank turns GREY (R266, Table 9.5). -/
def State.greyBank (s : State) (b : Nat) : State :=
  let k := s.bank b
  let s := s.setBank b { k with state := .grey, next := none, due := false, endTb := none, usable := false, fence := 0 }
  let owner := if k.owner < 33 then k.owner else 0xFF
  let s := (s.raise Reg.bnkStatus 3).logUnit 0x0501 owner 2 b [k.fence]
  let s := s.countFence 2 b owner false
  let s := s.detect 0x03 (k.owner = 32) 2 b
  if s.saf.safe then s
  else
    let s := s.each (s.slotsAt b) fun s h => s.greySlot h
    if 32 ≤ k.owner then s
    else if (s.part k.owner).state = .creating then s.failCreate k.owner
    else
      let named := [0, 1, 2, 3].any fun prof => match s.fallbackSlot k.owner prof with
        | some j => match s.sheet k.owner j with
          | some x => x.descs.any fun (d : Shot) => (Shot.refs d).any fun r => decide (r < 2147483648) && r / 262144 = b
          | none => false
        | none => false
      if named then s.fencePartition k.owner else s

/-- Banks whose fence is due turn GREY (R266). -/
def State.greyBanks (s : State) : State :=
  s.each ((s.banks.bank.filter fun x => x.2.fence ≠ 0 && x.2.state ≠ .grey).map (·.1)) fun s b => s.greyBank b

/-- Vector units whose fence is due turn grey (R218). -/
def State.greyUnits (s : State) : State :=
  let us := s.vec.greyNext.filter fun u => !s.unitGrey u
  let s := { s with vec := { s.vec with greyNext := [], grey := us.foldl (fun (g : BitVec 32) u => g ||| bitMask u) s.vec.grey } }
  s.each us fun s u => (s.raise Reg.vecStatus 1).countFence 1 u 0xFF false

/-- UCL ports whose fence is due: detected, and requested (R366). -/
def State.greyPorts (s : State) : State :=
  let s := s.each [0, 1] fun s n => if (s.uclPort n).failed then s.fenceUcl n false else s
  let want := (s.saf.reqs.filter fun r => r.kind = 5).map fun r => r.unit
  let s := { s with saf := { s.saf with reqs := s.saf.reqs.filter fun (r : FenceReq) => r.kind ≠ 5 } }
  s.each want fun s n => s.fenceUcl n true

/-! ### Counters of frames -/

/-- What each tick counts or clears: a previous group key's frames (R462), the ports' and stacks' windows (R274, R433), waiting retrains
(R272), replays (R366), and the NMDs' alive counts as the watchdog sees them (R477): whether an NMD wrote its count is open. -/
def State.countFrame (s : State) : State :=
  let s := { s with sec := { s.sec with gkPrev := s.sec.gkPrev.map fun (e : GroupKey × Nat) => (e.1, e.2 - 1) } }
  let window := s.fnNat % 1024 = 0
  let s := if window then { s with reel := { s.reel with port := s.reel.port.map fun (p : Port) => { p with winCrc := 0, winMiss := 0 } } } else s
  let s := { s with
    nmd := s.nmd.map fun (x : Nmd) => { x with ueSpan := if window then 0 else x.ueSpan, retrainWait := x.retrainWait.map (· + 1) },
    ucl := s.ucl.map fun (p : UclPort) => { p with frameReplays := 0 } }
  s.each (List.range 12) fun s n =>
    let x := s.nmdOf n
    if x.state ≠ .live then s
    else
      let (wrote, s) := s.drawBool
      let alive := if wrote then x.alive + 1 else x.alive
      let (last, same) := s.saf.nmdAlive.getD n (0, 0)
      let s := s.setNmd n { x with alive := alive }
      { s with saf := { s.saf with nmdAlive := s.saf.nmdAlive.set n (alive, if alive = last then same + 1 else 0) } }

/-! ### The player and training at a tick -/

/-- The player starts, stops or goes on, and the reels advance (R26, R27, R109). -/
def State.tickPlayer (s : State) : State :=
  let p := s.player
  if !s.regBit Reg.shtCtrl 0 then { s with player := { p with playing := false } }
  else
    let starts := match p.startAt with
      | some none => true
      | some (some n) => n = s.tbm.fn
      | none => false
    if starts then { s with player := { p with playing := true, reelPos := 0, startAt := none } }
    else if p.playing && !s.isResident then { s with player := { p with reelPos := (p.reelPos + 1) % max 1 s.layerCount } }
    else s

/-- A group's step stands or falls with its verdict before pass 1 is placed (R439, R440): true where this device goes on. A failed
verdict returns the batch, and the third drops the step. -/
def State.judgeGroup (s : State) (t : Nat) : Bool × State :=
  if !s.groupTrained t then (true, s)
  else
    let v := s.verdictOf t
    if !v.recorded then (false, s)
    else if v.ok then (true, s)
    else
      let s := { s with reel := { s.reel with badTints := s.reel.badTints.filter fun x => x ≠ t } }
      let s := s.setVerdict { v with recorded := false, fails := v.fails + 1, cues := 0, seen := false, t := 0 }
      let s := (s.raise Reg.reelStatus 5).logUnit 0x0702 (s.tintOf t).owner 0xFF 0 [1]
      if v.fails + 1 < 3 then (false, s) else (false, (s.dropStep t).returnBatch t)

/-- Every snapshot of the tint is copied and none is due (R340): pass 1 waits for them. -/
def Training.snapsDone (x : Training) : Bool := !x.snapDue && x.snaps.all fun y => y.copied

/-- Passes are placed at the tick that begins their frame (R331, R357, R359). -/
def State.placePasses (s : State) : State :=
  let pick := fun (s : State) (f : Training → Bool) => (s.tints.filter fun e => e.2.state ≠ .free && f e.2.train).map (·.1)
  let s := s.each (pick s fun x => x.cur.phase = .pass2 && !x.cur.placed) fun s t => s.placePass2 t
  if !s.atZero then s
  else s.each (pick s fun x => x.cur.phase = .pass1 && !x.cur.placed && x.snapsDone) fun s t =>
    let (go, s) := s.judgeGroup t
    if go then s.placePass1 t else s

/-- Training at a tick: at reel position 0 restores and steps become visible and waiting snapshots are taken; newest clean snapshots
advance at every tick (R35, R340-R342). -/
def State.tickTraining (s : State) : State :=
  let ts := (s.tints.filter fun e => e.2.state ≠ .free).map (·.1)
  let s := if !s.atZero then s else s.each ts fun s t =>
    let s := (s.applyRestore t).visibleStep t
    if (s.tintOf t).train.cur.inFlight then s else s.dueSnapshots t
  s.each ts fun s t => s.advanceClean t

/-! ### The tick -/

/-- What left the ports in the ended frame is gone, and transfers that it left open with it. -/
def State.clearLinks (s : State) : State :=
  { s with reel := { s.reel with port := s.reel.port.map fun (p : Port) => { p with sent := [], xfers := [] } } }

/-- Commits made at or after the ended frame's commit point are for the frame after the one that starts (R21). At the first tick after a
start there was no commit point before it, and they still stand for the next frame (R546). -/
def State.shiftCommits (s : State) : State :=
  let p := s.player
  if s.tbm.ticksRun ≤ 1 then { s with player := { p with fixedRecs := [], missed := false } }.updatePending
  else
    { s with player := { p with
      nextRecs := p.afterRecs, nextDone := p.afterDone, afterRecs := [], afterDone := false, missed := false, fixedRecs := [] } }.updatePending

/-- What a tick does while the device is not in its safe state. -/
def State.tickWork (s e : State) : State :=
  let s := s.each (List.range 33) fun s o => s.armDailies o
  let s := ((s.sendDelays.countFrame).fixCeiling e.tbm.running).tickPlayer
  let s := (s.dueRequests.switchMoves e).tickTraining
  let s := (s.greyBanks.tickBanks).greyUnits
  let s := s.greyPorts
  if s.saf.safe then s
  else
    let s := s.dueTeardowns.nextChecks e
    let s := ((s.startSheets e).assignRetakes e).placePasses
    s.shiftCommits

/-- What a tick does in the safe state: time goes on, delays and fades are measured, and banks and UCL ports keep their fences. -/
def State.tickSafe (s e : State) : State := (((s.greyBanks.sendDelays.countFrame).fixCeiling e.tbm.running).tickBanks).greyUnits.greyPorts

/-- TICK (R45): the expected time of the next tick has come. The ended frame closes and is judged; FN counts, the tick word and the
heartbeat go out; what waited for the tick takes effect; and the committed sheets begin. -/
def execTick (s : State) : Out :=
  if !s.tickDue then .next s
  else
    let ran := s.tbm.running
    let e := if ran then s.closeFrame else s
    let s := e.clearLinks.tickTime
    let s := if s.saf.safe then s.endFades ran else if ran then s.judgeFrame e true else (s.judgeGrid e).clearFade
    .next (if s.saf.safe then s.tickSafe e else s.tickWork e)

/-! ### The commit point -/

/-- Commits are fixed for the next frame (R21), and the profile of the frame after it with them (R53). -/
def State.fixCommits (s : State) : State :=
  let p := s.player
  let house := (p.nextRecs.find? fun r => r.1 = 32).map (·.2)
  let s := { s with player := { p with fixedRecs := p.nextRecs, lastHouse := house.orElse fun _ => p.lastHouse } }
  if s.follower then s
  else { s with tbm := { s.tbm with announced := match house with | some h => h.profile | none => s.tbm.next } }.updatePending

/-- No commit of the director exists at the commit point (R22, R477): the next frame plays the missed-commit choice. -/
def State.judgeCommit (s : State) : State :=
  if s.player.nextDone then { s with saf := { s.saf with missedCommits := 0 } }
  else if s.tbm.stopPending then s
  else
    let s := { s with saf := { s.saf with missedCommits := s.saf.missedCommits + 1 }, player := { s.player with missed := true } }
    if s.player.playing then (s.raise Reg.shtStatus 4).logUnit 0x0202 0xFF 0xFF 0 [0] else s

/-- A SAVE of a wipe's partition still runs: it waits for the capture or for a HOST cue, and the teardown waits for it (R474). -/
def State.savePending (s : State) (p : Nat) : Bool :=
  s.wiping && (s.part p).state = .frozen && !(s.part p).saved &&
    s.items.any fun x => x.2.op = 0x39 && x.2.phase = .fetched && x.2.done.isNone && (x.2.field 0x10 1 = p || x.2.field 0x10 1 = 0xFF)

/-- Requests observed before the commit point take effect at the tick after it (R23, R24, R486). -/
def State.armRequests (s : State) : State :=
  let hold := (List.range 32).map s.savePending
  let cp := s.cpAt
  let s := s.mapParts fun p (x : Partition) =>
    { x with activate := armNow cp x.activate, deactivate := armNow cp x.deactivate, freeze := armNow cp x.freeze,
             teardown := if hold.getD p false then x.teardown else armNow cp x.teardown }
  let s := s.mapTints fun (t : Tint) => { t with evict := armNow cp t.evict, withdraw := armNow cp t.withdraw }
  let s := s.mapSes fun (x : Ses) => { x with close := armNow cp x.close }
  let next := s.tbm.fn + 1
  { s with
    items := s.items.map fun x =>
      let i : Item := x.2
      (x.1, if i.eligible.isNone && decide (i.obs.toNat < cp) then { i with eligible := some next } else i),
    saf := { s.saf with reqs := s.saf.reqs.map fun (r : FenceReq) => if r.kind = 6 && decide (r.since < cp) then { r with armed := true } else r } }

/-- The director's part of a step at the commit point of pass 1's frame (R353, R360, R362): pass 1 has run on the vector units, engines
that have not ended are late, and the norm of each complete pass 1 gives the scalars of its pass 2. -/
def State.reducePasses (s : State) : State :=
  let pick := fun (s : State) (f : Batch → Bool) => (s.tints.filter fun e => f e.2.train.cur).map (·.1)
  let s := s.each (pick s fun b => b.phase = .pass1 && b.placed && b.onVector) fun s t => s.vecPass1 t
  let done := (pick s fun b => b.phase = .pass1 && b.placed).filter s.passComplete
  let s := s.each (dedup ((List.range 12).flatMap fun n => s.tintsWith n 1)) fun s t => s.dropStep t
  s.each done fun s t =>
    let s := s.reduceNorm t
    let b := (s.tintOf t).train.cur
    match b.scalars with
    | some (kappa, eta) => if b.phase = .pass2 && !b.onVector then s.queueStep t 2 kappa eta else s
    | none => s

/-- COMMIT_POINT (R21-R24, R53, R353, R486): 20,000 ns before the next tick. -/
def execCommitPoint (s : State) : Out :=
  if !s.tbm.running || s.tbm.cpPassed then .next s
  else
    let s := s.advance (s.tbm.tNext.toNat - 20000)
    let s := { s with tbm := { s.tbm with cpPassed := true } }
    if s.saf.safe then .next s
    else .next ((s.fixCommits.judgeCommit).armRequests.reducePasses)

/-! ### The stop of frames -/

/-- FRAMES_STOP (R59): the end of the frame in which an accepted stop takes effect. The frame closes as every frame does; no tick starts;
FN, epoch and the active profile hold, a change that awaited a later tick is gone (R54); a queued restart begins. -/
def execFramesStop (s : State) : Out :=
  if !(s.tbm.running && s.tbm.stopPending) then .next s
  else
    let e := s.closeFrame
    let s := e.clearLinks
    let s := (if s.saf.safe then s.endFades true else s.judgeFrame e false).closeRuns true
    let s := if s.saf.safe then s else
      let s := s.each (List.range 34) fun s o => s.startCtx e o none false [] []
      let p := s.player
      -- what was fixed for the frame that does not come is dropped; a commit made since stands for the next frame
      let cp := s.tbm.cpPassed
      { s with player := { p with
        playing := false, fixedRecs := [], missed := false, nextRecs := if cp then p.afterRecs else p.nextRecs,
        nextDone := if cp then p.afterDone else p.nextDone, afterRecs := [], afterDone := false } }
    let restart := s.tbm.restartQueued
    let s := { s with tbm := { s.tbm with running := false, stopPending := false, restartQueued := false, ticksRun := 0,
                                           locked := false, holdover := false, srcActive := 0, cpPassed := true,
                                           tickOut := none, mismatch := false, acceptFn := none, phaseLeft := 0,
                                           next := s.tbm.active, announced := s.tbm.active } }.updatePending
    if restart then
      let s := s.setFld Reg.tbCtrl 0 1 1
      if s.follower then .next { s with tbm := { s.tbm with waitSync := true } }
      else .next { s with tbm := { s.tbm with startDue := true, tNext := s.tbm.tNext + 1000 } }
    else .next s

end Sys2Proof.Machine
end

