-- ==== Sys2Proof/Machine/Dispatch.lean ====
section
/-! DEFINITION. The dispatch: one arm for each command, each a direct call of its meaning. -/

namespace Sys2Proof.Machine

/-- What a command does to everything but the queue. -/
def exec (i : Instr) (s : State) : Host.Outcome State Fault Refusal :=
  match i with
  | .registerWrite fn off v => Sys2Proof.Machine.execRegisterWrite fn off v s
  | .registerAccessError fn off size => Sys2Proof.Machine.execRegisterAccessError fn off size s
  | .lockWrite block => Sys2Proof.Machine.execLockWrite block s
  | .tbNowRead => Sys2Proof.Machine.execTbNowRead s
  | .tickLastRead => Sys2Proof.Machine.execTickLastRead s
  | .clgCountRead => Sys2Proof.Machine.execClgCountRead s
  | .runStart => Sys2Proof.Machine.execRunStart s
  | .runStop => Sys2Proof.Machine.execRunStop s
  | .framesStop => Sys2Proof.Machine.execFramesStop s
  | .setCadence c => Sys2Proof.Machine.execSetCadence c s
  | .syncArm => Sys2Proof.Machine.execSyncArm s
  | .profileWrite n house v => Sys2Proof.Machine.execProfileWrite n house v s
  | .rehearseArm epochValue epochEn => Sys2Proof.Machine.execRehearseArm epochValue epochEn s
  | .tick => Sys2Proof.Machine.execTick s
  | .segmentStart owner => Sys2Proof.Machine.execSegmentStart owner s
  | .longerProfile => Sys2Proof.Machine.execLongerProfile s
  | .policyReview => Sys2Proof.Machine.execPolicyReview s
  | .commitPoint => Sys2Proof.Machine.execCommitPoint s
  | .directorCommit recs => Sys2Proof.Machine.execDirectorCommit recs s
  | .tickWord src word arrival => Sys2Proof.Machine.execTickWord src word arrival s
  | .missedTick src => Sys2Proof.Machine.execMissedTick src s
  | .srcReturn => Sys2Proof.Machine.execSrcReturn s
  | .followerLock => Sys2Proof.Machine.execFollowerLock s
  | .alignErr => Sys2Proof.Machine.execAlignErr s
  | .tickLost => Sys2Proof.Machine.execTickLost s
  | .holdoverExit => Sys2Proof.Machine.execHoldoverExit s
  | .delayExchange port => Sys2Proof.Machine.execDelayExchange port s
  | .delayFlit port flit arrival => Sys2Proof.Machine.execDelayFlit port flit arrival s
  | .insertWindow owner => Sys2Proof.Machine.execInsertWindow owner s
  | .sheetLoad owner slot => Sys2Proof.Machine.execSheetLoad owner slot s
  | .sheetLoadDone img => Sys2Proof.Machine.execSheetLoadDone img s
  | .playerEnable atFn => Sys2Proof.Machine.execPlayerEnable atFn s
  | .playerDisable => Sys2Proof.Machine.execPlayerDisable s
  | .setSheetStore mib => Sys2Proof.Machine.execSetSheetStore mib s
  | .fallbackDesignate owner v => Sys2Proof.Machine.execFallbackDesignate owner v s
  | .holdResume owner => Sys2Proof.Machine.execHoldResume owner s
  | .cueEnd owner track idx => Sys2Proof.Machine.execCueEnd owner track idx s
  | .mma owner idx => Sys2Proof.Machine.execMma owner idx s
  | .shotEnd owner idx => Sys2Proof.Machine.execShotEnd owner idx s
  | .drainEnd tile differs => Sys2Proof.Machine.execDrainEnd tile differs s
  | .arrayFenceReq logical => Sys2Proof.Machine.execArrayFenceReq logical s
  | .checkDisable => Sys2Proof.Machine.execCheckDisable s
  | .run owner idx => Sys2Proof.Machine.execRun owner idx s
  | .kat owner idx => Sys2Proof.Machine.execKat owner idx s
  | .katVerdict sig part => Sys2Proof.Machine.execKatVerdict sig part s
  | .meterShot owner idx => Sys2Proof.Machine.execMeterShot owner idx s
  | .vNop u f => Sys2Proof.Machine.execVNop u f s
  | .vEnd u f => Sys2Proof.Machine.execVEnd u f s
  | .vLoop u f => Sys2Proof.Machine.execVLoop u f s
  | .vSli u f => Sys2Proof.Machine.execVSli u f s
  | .vSlh u f => Sys2Proof.Machine.execVSlh u f s
  | .vSadd u f => Sys2Proof.Machine.execVSadd u f s
  | .vSsub u f => Sys2Proof.Machine.execVSsub u f s
  | .vSmul u f => Sys2Proof.Machine.execVSmul u f s
  | .vSand u f => Sys2Proof.Machine.execVSand u f s
  | .vSor u f => Sys2Proof.Machine.execVSor u f s
  | .vSxor u f => Sys2Proof.Machine.execVSxor u f s
  | .vSshl u f => Sys2Proof.Machine.execVSshl u f s
  | .vSshr u f => Sys2Proof.Machine.execVSshr u f s
  | .vSaddi u f => Sys2Proof.Machine.execVSaddi u f s
  | .vSld u f => Sys2Proof.Machine.execVSld u f s
  | .vSst u f => Sys2Proof.Machine.execVSst u f s
  | .vIadd u f => Sys2Proof.Machine.execVIadd u f s
  | .vIsub u f => Sys2Proof.Machine.execVIsub u f s
  | .vImul u f => Sys2Proof.Machine.execVImul u f s
  | .vImax u f => Sys2Proof.Machine.execVImax u f s
  | .vImin u f => Sys2Proof.Machine.execVImin u f s
  | .vIand u f => Sys2Proof.Machine.execVIand u f s
  | .vIor u f => Sys2Proof.Machine.execVIor u f s
  | .vIxor u f => Sys2Proof.Machine.execVIxor u f s
  | .vIshl u f => Sys2Proof.Machine.execVIshl u f s
  | .vIsra u f => Sys2Proof.Machine.execVIsra u f s
  | .vIshr u f => Sys2Proof.Machine.execVIshr u f s
  | .vIcmp u f => Sys2Proof.Machine.execVIcmp u f s
  | .vFadd u f => Sys2Proof.Machine.execVFadd u f s
  | .vFsub u f => Sys2Proof.Machine.execVFsub u f s
  | .vFmul u f => Sys2Proof.Machine.execVFmul u f s
  | .vFfma u f => Sys2Proof.Machine.execVFfma u f s
  | .vFmax u f => Sys2Proof.Machine.execVFmax u f s
  | .vFmin u f => Sys2Proof.Machine.execVFmin u f s
  | .vFabs u f => Sys2Proof.Machine.execVFabs u f s
  | .vFneg u f => Sys2Proof.Machine.execVFneg u f s
  | .vFtsum u f => Sys2Proof.Machine.execVFtsum u f s
  | .vFcmp u f => Sys2Proof.Machine.execVFcmp u f s
  | .vFexp2 u f => Sys2Proof.Machine.execVFexp2 u f s
  | .vFlog2 u f => Sys2Proof.Machine.execVFlog2 u f s
  | .vFrcp u f => Sys2Proof.Machine.execVFrcp u f s
  | .vFsqrt u f => Sys2Proof.Machine.execVFsqrt u f s
  | .vFrsq u f => Sys2Proof.Machine.execVFrsq u f s
  | .vSel u f => Sys2Proof.Machine.execVSel u f s
  | .vBcast u f => Sys2Proof.Machine.execVBcast u f s
  | .vLidx u f => Sys2Proof.Machine.execVLidx u f s
  | .vRot u f => Sys2Proof.Machine.execVRot u f s
  | .vVmov u f => Sys2Proof.Machine.execVVmov u f s
  | .vWext u f => Sys2Proof.Machine.execVWext u f s
  | .vPand u f => Sys2Proof.Machine.execVPand u f s
  | .vPor u f => Sys2Proof.Machine.execVPor u f s
  | .vPnot u f => Sys2Proof.Machine.execVPnot u f s
  | .vPfirst u f => Sys2Proof.Machine.execVPfirst u f s
  | .vRedadd u f => Sys2Proof.Machine.execVRedadd u f s
  | .vRedmax u f => Sys2Proof.Machine.execVRedmax u f s
  | .vRedmin u f => Sys2Proof.Machine.execVRedmin u f s
  | .vIredadd u f => Sys2Proof.Machine.execVIredadd u f s
  | .vCvtn u f => Sys2Proof.Machine.execVCvtn u f s
  | .vCvtw u f => Sys2Proof.Machine.execVCvtw u f s
  | .vItof u f => Sys2Proof.Machine.execVItof u f s
  | .vFtoi u f => Sys2Proof.Machine.execVFtoi u f s
  | .vTld u f => Sys2Proof.Machine.execVTld u f s
  | .vTst u f => Sys2Proof.Machine.execVTst u f s
  | .vTfin u f => Sys2Proof.Machine.execVTfin u f s
  | .vRng u f => Sys2Proof.Machine.execVRng u f s
  | .vKseed u f => Sys2Proof.Machine.execVKseed u f s
  | .vectorFenceReq u => Sys2Proof.Machine.execVectorFenceReq u s
  | .katDisable => Sys2Proof.Machine.execKatDisable s
  | .programLoad slot => Sys2Proof.Machine.execProgramLoad slot s
  | .programLoadDone img => Sys2Proof.Machine.execProgramLoadDone img s
  | .programSlotClear slot => Sys2Proof.Machine.execProgramSlotClear slot s
  | .reel owner idx => Sys2Proof.Machine.execReel owner idx s
  | .layerFetchDone rev bad => Sys2Proof.Machine.execLayerFetchDone rev bad s
  | .gather owner idx => Sys2Proof.Machine.execGather owner idx s
  | .scatter owner idx => Sys2Proof.Machine.execScatter owner idx s
  | .migrate owner idx => Sys2Proof.Machine.execMigrate owner idx s
  | .host owner idx => Sys2Proof.Machine.execHost owner idx s
  | .update owner idx => Sys2Proof.Machine.execUpdate owner idx s
  | .tint owner idx => Sys2Proof.Machine.execTint owner idx s
  | .bankRequest b v => Sys2Proof.Machine.execBankRequest b v s
  | .bankRequestEffect b => Sys2Proof.Machine.execBankRequestEffect b s
  | .bankTransitionDone b => Sys2Proof.Machine.execBankTransitionDone b s
  | .patrolScrub b found => Sys2Proof.Machine.execPatrolScrub b found s
  | .maintenanceAccess n kind addr found => Sys2Proof.Machine.execMaintenanceAccess n kind addr found s
  | .tierSPatrol n addr found => Sys2Proof.Machine.execTierSPatrol n addr found s
  | .patrolLate n => Sys2Proof.Machine.execPatrolLate n s
  | .dqOscCheck n drift => Sys2Proof.Machine.execDqOscCheck n drift s
  | .dqRetrain n gapNs ok => Sys2Proof.Machine.execDqRetrain n gapNs ok s
  | .retrainLate n => Sys2Proof.Machine.execRetrainLate n s
  | .rowRetire n row => Sys2Proof.Machine.execRowRetire n row s
  | .nmdFenceReq n => Sys2Proof.Machine.execNmdFenceReq n s
  | .stackLost n => Sys2Proof.Machine.execStackLost n s
  | .pass1 n => Sys2Proof.Machine.execPass1 n s
  | .pass2 n => Sys2Proof.Machine.execPass2 n s
  | .drop n => Sys2Proof.Machine.execDrop n s
  | .updatePassDone n unread => Sys2Proof.Machine.execUpdatePassDone n unread s
  | .updateDeadline n => Sys2Proof.Machine.execUpdateDeadline n s
  | .plateLoad manifest => Sys2Proof.Machine.execPlateLoad manifest s
  | .platePartArrived part data => Sys2Proof.Machine.execPlatePartArrived part data s
  | .plateLoadEnd => Sys2Proof.Machine.execPlateLoadEnd s
  | .plateUnload => Sys2Proof.Machine.execPlateUnload s
  | .tintRegister k wrapped image => Sys2Proof.Machine.execTintRegister k wrapped image s
  | .tintRegisterDone t => Sys2Proof.Machine.execTintRegisterDone t s
  | .tintLoad k => Sys2Proof.Machine.execTintLoad k s
  | .tintPin k => Sys2Proof.Machine.execTintPin k s
  | .tintHot t => Sys2Proof.Machine.execTintHot t s
  | .tintEvict k => Sys2Proof.Machine.execTintEvict k s
  | .evictionEffect t => Sys2Proof.Machine.execEvictionEffect t s
  | .evictionComplete t => Sys2Proof.Machine.execEvictionComplete t s
  | .tintWithdraw k => Sys2Proof.Machine.execTintWithdraw k s
  | .withdrawEffect t => Sys2Proof.Machine.execWithdrawEffect t s
  | .withdrawComplete t => Sys2Proof.Machine.execWithdrawComplete t s
  | .sessionOpen k => Sys2Proof.Machine.execSessionOpen k s
  | .sessionClose k => Sys2Proof.Machine.execSessionClose k s
  | .sessionCloseEffect ctx => Sys2Proof.Machine.execSessionCloseEffect ctx s
  | .sessionScrubDone ctx => Sys2Proof.Machine.execSessionScrubDone ctx s
  | .serveStep k => Sys2Proof.Machine.execServeStep k s
  | .servePrefill k tokens => Sys2Proof.Machine.execServePrefill k tokens s
  | .trainSample k tokens targets => Sys2Proof.Machine.execTrainSample k tokens targets s
  | .insert k => Sys2Proof.Machine.execInsert k s
  | .insertComplete => Sys2Proof.Machine.execInsertComplete s
  | .insertPin slot owner => Sys2Proof.Machine.execInsertPin slot owner s
  | .insertUnpin slot => Sys2Proof.Machine.execInsertUnpin slot s
  | .meter k => Sys2Proof.Machine.execMeter k s
  | .snapshot k => Sys2Proof.Machine.execSnapshot k s
  | .autoSnapshot t => Sys2Proof.Machine.execAutoSnapshot t s
  | .snapshotCopyDone t => Sys2Proof.Machine.execSnapshotCopyDone t s
  | .restore k => Sys2Proof.Machine.execRestore k s
  | .rollback t => Sys2Proof.Machine.execRollback t s
  | .completionRelease k => Sys2Proof.Machine.execCompletionRelease k s
  | .retakeHold t layer level => Sys2Proof.Machine.execRetakeHold t layer level s
  | .trainingPause t => Sys2Proof.Machine.execTrainingPause t s
  | .doorbellObserved line words => Sys2Proof.Machine.execDoorbellObserved line words s
  | .descriptorFetch set sq bytes => Sys2Proof.Machine.execDescriptorFetch set sq bytes s
  | .completionWrite k => Sys2Proof.Machine.execCompletionWrite k s
  | .sqEnable set n v => Sys2Proof.Machine.execSqEnable set n v s
  | .sqDisable set n => Sys2Proof.Machine.execSqDisable set n s
  | .sqDrainDone set n => Sys2Proof.Machine.execSqDrainDone set n s
  | .cqEnable set n v => Sys2Proof.Machine.execCqEnable set n v s
  | .cqDisable set n => Sys2Proof.Machine.execCqDisable set n s
  | .dailiesArm k => Sys2Proof.Machine.execDailiesArm k s
  | .uclPortFence n => Sys2Proof.Machine.execUclPortFence n s
  | .create p => Sys2Proof.Machine.execCreate p s
  | .createDone p => Sys2Proof.Machine.execCreateDone p s
  | .resize p => Sys2Proof.Machine.execResize p s
  | .activate p => Sys2Proof.Machine.execActivate p s
  | .activateEffect p => Sys2Proof.Machine.execActivateEffect p s
  | .deactivate p => Sys2Proof.Machine.execDeactivate p s
  | .deactivateEffect p => Sys2Proof.Machine.execDeactivateEffect p s
  | .teardown p => Sys2Proof.Machine.execTeardown p s
  | .teardownEffect p => Sys2Proof.Machine.execTeardownEffect p s
  | .teardownDone p => Sys2Proof.Machine.execTeardownDone p s
  | .freeze k => Sys2Proof.Machine.execFreeze k s
  | .freezeEffect p => Sys2Proof.Machine.execFreezeEffect p s
  | .freezeDone k => Sys2Proof.Machine.execFreezeDone k s
  | .save k => Sys2Proof.Machine.execSave k s
  | .loadImage k img => Sys2Proof.Machine.execLoadImage k img s
  | .mbxBindWrite c v => Sys2Proof.Machine.execMbxBindWrite c v s
  | .mbxDataWrite m c w v => Sys2Proof.Machine.execMbxDataWrite m c w v s
  | .mbxSend m c => Sys2Proof.Machine.execMbxSend m c s
  | .mbxDone m c => Sys2Proof.Machine.execMbxDone m c s
  | .mbxAbortClear m c => Sys2Proof.Machine.execMbxAbortClear m c s
  | .send owner idx => Sys2Proof.Machine.execSend owner idx s
  | .recv owner idx => Sys2Proof.Machine.execRecv owner idx s
  | .pass owner idx => Sys2Proof.Machine.execPass owner idx s
  | .verdict owner idx => Sys2Proof.Machine.execVerdict owner idx s
  | .tintDiverged t => Sys2Proof.Machine.execTintDiverged t s
  | .idleFlit port flit => Sys2Proof.Machine.execIdleFlit port flit s
  | .dataFlit port flit => Sys2Proof.Machine.execDataFlit port flit s
  | .voidFlit port flit => Sys2Proof.Machine.execVoidFlit port flit s
  | .plateReq port flit => Sys2Proof.Machine.execPlateReq port flit s
  | .plateAck port flit => Sys2Proof.Machine.execPlateAck port flit s
  | .nack port flit => Sys2Proof.Machine.execNack port flit s
  | .done port flit => Sys2Proof.Machine.execDone port flit s
  | .bulkOffer port flit => Sys2Proof.Machine.execBulkOffer port flit s
  | .bulkAccept port flit => Sys2Proof.Machine.execBulkAccept port flit s
  | .bulkDone port flit => Sys2Proof.Machine.execBulkDone port flit s
  | .abort port flit => Sys2Proof.Machine.execAbort port flit s
  | .tag port flit => Sys2Proof.Machine.execTag port flit s
  | .distTimeout port => Sys2Proof.Machine.execDistTimeout port s
  | .portTrainRetry port => Sys2Proof.Machine.execPortTrainRetry port s
  | .portTrained port lanes => Sys2Proof.Machine.execPortTrained port lanes s
  | .reelPortFence port => Sys2Proof.Machine.execReelPortFence port s
  | .reelFenceReq port => Sys2Proof.Machine.execReelFenceReq port s
  | .bulkTx port data => Sys2Proof.Machine.execBulkTx port data s
  | .bulkRx port => Sys2Proof.Machine.execBulkRx port s
  | .bulkAbortWrite => Sys2Proof.Machine.execBulkAbortWrite s
  | .take block => Sys2Proof.Machine.execTake block s
  | .transfer block => Sys2Proof.Machine.execTransfer block s
  | .release block => Sys2Proof.Machine.execRelease block s
  | .pubAdd block => Sys2Proof.Machine.execPubAdd block s
  | .pubRemove block => Sys2Proof.Machine.execPubRemove block s
  | .cdk block => Sys2Proof.Machine.execCdk block s
  | .wipeDone => Sys2Proof.Machine.execWipeDone s
  | .plateKeyImport wrapped => Sys2Proof.Machine.execPlateKeyImport wrapped s
  | .groupKeyImport wrapped => Sys2Proof.Machine.execGroupKeyImport wrapped s
  | .groupKeyActivate => Sys2Proof.Machine.execGroupKeyActivate s
  | .groupKeyRetire => Sys2Proof.Machine.execGroupKeyRetire s
  | .importKeyReady p => Sys2Proof.Machine.execImportKeyReady p s
  | .rngFail => Sys2Proof.Machine.execRngFail s
  | .attest k => Sys2Proof.Machine.execAttest k s
  | .getVersion path req => Sys2Proof.Machine.execGetVersion path req s
  | .getCapabilities path req => Sys2Proof.Machine.execGetCapabilities path req s
  | .negotiateAlgorithms path req => Sys2Proof.Machine.execNegotiateAlgorithms path req s
  | .getDigests path req => Sys2Proof.Machine.execGetDigests path req s
  | .getCertificate path req => Sys2Proof.Machine.execGetCertificate path req s
  | .challenge path req => Sys2Proof.Machine.execChallenge path req s
  | .getMeasurements path req => Sys2Proof.Machine.execGetMeasurements path req s
  | .setEndpointId path req => Sys2Proof.Machine.execSetEndpointId path req s
  | .getEndpointId path req => Sys2Proof.Machine.execGetEndpointId path req s
  | .getMctpVersionSupport path req => Sys2Proof.Machine.execGetMctpVersionSupport path req s
  | .getMessageTypeSupport path req => Sys2Proof.Machine.execGetMessageTypeSupport path req s
  | .mctpTx => Sys2Proof.Machine.execMctpTx s
  | .mctpRxRelease => Sys2Proof.Machine.execMctpRxRelease s
  | .pldmRequest path req => Sys2Proof.Machine.execPldmRequest path req s
  | .smbusPacket addr bytes => Sys2Proof.Machine.execSmbusPacket addr bytes s
  | .sensorUpdate values => Sys2Proof.Machine.execSensorUpdate values s
  | .lifecycleReturn => Sys2Proof.Machine.execLifecycleReturn s
  | .safeReq => Sys2Proof.Machine.execSafeReq s
  | .uclPortFenceReq n => Sys2Proof.Machine.execUclPortFenceReq n s
  | .partitionFenceReq p => Sys2Proof.Machine.execPartitionFenceReq p s
  | .tintFenceReq t => Sys2Proof.Machine.execTintFenceReq t s
  | .sessionFenceReq ctx => Sys2Proof.Machine.execSessionFenceReq ctx s
  | .partitionFence p => Sys2Proof.Machine.execPartitionFence p s
  | .tintFence t => Sys2Proof.Machine.execTintFence t s
  | .sessionFence ctx => Sys2Proof.Machine.execSessionFence ctx s
  | .safCtrlWrite v => Sys2Proof.Machine.execSafCtrlWrite v s
  | .safPromoteWrite v => Sys2Proof.Machine.execSafPromoteWrite v s
  | .directorHang => Sys2Proof.Machine.execDirectorHang s
  | .nmdHang n => Sys2Proof.Machine.execNmdHang n s
  | .refclkLoss => Sys2Proof.Machine.execRefclkLoss s
  | .supplyFault rail => Sys2Proof.Machine.execSupplyFault rail s
  | .thermalSample temps => Sys2Proof.Machine.execThermalSample temps s
  | .droopTrip level => Sys2Proof.Machine.execDroopTrip level s
  | .fadeRelease stableSince => Sys2Proof.Machine.execFadeRelease stableSince s
  | .logCommit => Sys2Proof.Machine.execLogCommit s
  | .mainPowerFail => Sys2Proof.Machine.execMainPowerFail s
  | .vauxFail => Sys2Proof.Machine.execVauxFail s
  | .standbyPowerOn straps => Sys2Proof.Machine.execStandbyPowerOn straps s
  | .coldReset aux recoveryLow slotHigh straps => Sys2Proof.Machine.execColdReset aux recoveryLow slotHigh straps s
  | .directorReady => Sys2Proof.Machine.execDirectorReady s
  | .bootWatchdog => Sys2Proof.Machine.execBootWatchdog s
  | .warmReset => Sys2Proof.Machine.execWarmReset s
  | .functionLevelReset fn => Sys2Proof.Machine.execFunctionLevelReset fn s
  | .bootCommit => Sys2Proof.Machine.execBootCommit s
  | .trialMaskWrite mask => Sys2Proof.Machine.execTrialMaskWrite mask s
  | .flashErase => Sys2Proof.Machine.execFlashErase s
  | .flashProgram data => Sys2Proof.Machine.execFlashProgram data s
  | .flashOpDone ok => Sys2Proof.Machine.execFlashOpDone ok s
  | .recoveryBegin bmc slot comp => Sys2Proof.Machine.execRecoveryBegin bmc slot comp s
  | .recoveryData bmc off data => Sys2Proof.Machine.execRecoveryData bmc off data s
  | .recoveryEnd bmc total => Sys2Proof.Machine.execRecoveryEnd bmc total s
  | .recoveryExit bmc => Sys2Proof.Machine.execRecoveryExit bmc s
  | .extest => Sys2Proof.Machine.execExtest s
  | .idcode => Sys2Proof.Machine.execIdcode s
  | .samplePreload => Sys2Proof.Machine.execSamplePreload s
  | .vtarget => Sys2Proof.Machine.execVtarget s
  | .bypass code => Sys2Proof.Machine.execBypass code s
  | .jtagDebug code => Sys2Proof.Machine.execJtagDebug code s
  | .jtagTrst => Sys2Proof.Machine.execJtagTrst s
  | .directorClaim t slot => Sys2Proof.Machine.execDirectorClaim t slot s
  | .insertPinDone img => Sys2Proof.Machine.execInsertPinDone img s
  | .mbxDeniedRead m c off => Sys2Proof.Machine.execMbxDeniedRead m c off s
  | .clgSlotReadout slot => Sys2Proof.Machine.execClgSlotReadout slot s

end Sys2Proof.Machine
end

