-- ==== Sys2Proof/Machine/Idle.lean ====
section
/-! DEFINITION. A nanosecond in which no command acts: TB counts (R39, R40), and stored words, granules and links may suffer upsets (R264,
R269, R270). -/

namespace Sys2Proof.Machine

/-- A stored word or granule after an upset: beyond correction where it had an error already. -/
def upsetOf (was : EccResult) (hard : Bool) : EccResult := if hard || was ≠ .clean then .uncorrectable else .corrected

/-- The words of tier F that have errors, after the upset that this ns may bring (R264). -/
def Tiers.upset (t : Tiers) (g : Nat) : Tiers :=
  match Config.wordUpset g with
  | none => t
  | some (w, hard) =>
    let e := upsetOf (Sparse.get (fun _ => .clean) t.fErr w) hard
    if 805306368 ≤ w then t
    else { t with
      fErr := Sparse.set (fun _ => .clean) t.fErr w e,
      -- what an uncorrectable word reads as is open (log entry 3)
      f := if e = .uncorrectable then (List.range 32).foldl (fun f j => Sparse.set (fun _ => 0) f (32 * w + j) ((Config.free32 (g + j)).setWidth 8)) t.f else t.f }

/-- The granules of a stack that have errors, and the link error that its next transfer meets, after this ns (R269, R270). -/
def Nmd.upset (x : Nmd) (n g : Nat) : Nmd :=
  let errs := match Config.granuleUpset g with
    | some (k, a, hard) => if k = n ∧ a < 1610612736 then Sparse.set (fun _ => EccResult.clean) x.errs a (upsetOf (Sparse.get (fun _ => .clean) x.errs a) hard) else x.errs
    | none => x.errs
  let link := match Config.linkUpset g with
    | some (k, e) => if k = n then 1 + e % 4 else x.linkErr
    | none => x.linkErr
  { x with errs := errs, linkErr := link }

/-- One nanosecond passes (R39, R40): TB counts while a clock drives it, slewed by the follower's discipline, and a word, a granule or a
link may suffer an upset, which the spec leaves to chance (log entry 3). -/
def State.idle (s : State) : State :=
  if s.tbm.counting then
    { s with tbm := s.tbm.count s.frameNs, tiers := s.tiers.upset s.free, nmd := s.nmd.zipIdx.map (fun (e : Nmd × Nat) => e.1.upset e.2 s.free),
             free := s.free + 32 }
  else s

end Sys2Proof.Machine
end

