-- ==== Sys2Proof/Machine/Readout.lean ====
section
/-! DEFINITION. What every register of the setup window reads as: the fields that a write stores, from `State.regs`, and the
read-only fields, computed from the state (Table 13.1 and the register maps of the chapters). Reading changes nothing, but for the
three registers whose reads latch a shadow, which have commands of their own. -/

namespace Sys2Proof.Machine

/-- The read-only fields of `count` registers `stride` bytes apart, by the number of the register. -/
structure RoRow where
  base : Nat
  stride : Nat
  count : Nat
  val : Nat → Nat

/-- One register. -/
def roOne (off v : Nat) : RoRow := { base := off, stride := 4, count := 1, val := fun _ => v }

/-- The number of the register of a row at an offset, if it lies in the row. -/
def RoRow.index (r : RoRow) (off : Nat) : Option Nat :=
  if r.base ≤ off ∧ (off - r.base) % r.stride = 0 ∧ (off - r.base) / r.stride < r.count then some ((off - r.base) / r.stride) else none

/-- The read-only fields at an offset. -/
def roAt (rows : List RoRow) (off : Nat) : Nat :=
  match rows with
  | [] => 0
  | r :: rest => match r.index off with
    | some n => r.val n
    | none => roAt rest off

/-- Word `n` of a digest. -/
def digestWord (d : Digest) (n : Nat) : Nat := fld d (32 * n) 32

/-- Digest word of something that may be absent. -/
def optWord (d : Option Digest) (n : Nat) : Nat := match d with | some x => digestWord x n | none => 0

/-! ### Timebase, sheets, grid, vector engine -/

/-- TB_STATUS.locked (R67, R75): always 1 on a running master. -/
def State.lockedNow (s : State) : Bool := if s.follower then s.tbm.locked else s.tbm.running

/-- Read-only fields of the TB block (R75). -/
def State.roTb (s : State) : List RoRow :=
  let t := s.tbm
  [ roOne Reg.tbNowLo (fld t.tb 0 32), roOne Reg.tbNowHi t.nowHi.toNat, roOne Reg.tbFn t.fn.toNat, roOne Reg.tbEpoch t.epoch.toNat,
    roOne Reg.tbProfile (t.active.toNat + 4 * t.next.toNat + 16 * b2n t.pending),
    roOne Reg.tbRehearse (2 ^ 31 * b2n t.presetArmed),
    roOne Reg.tbStatus (b2n t.running + 2 * b2n s.lockedNow + 4 * b2n t.holdover + 16 * t.srcActive.toNat),
    roOne Reg.tbPhaseErr t.phaseErr.toNat, roOne Reg.tbMissCnt t.missCnt.toNat, roOne Reg.tbFreqAdj (intWord t.freqPpb).toNat,
    roOne Reg.tbTickLastLo (fld t.tLast 0 32), roOne Reg.tbTickLastHi t.lastHi.toNat,
    { base := Reg.tbBcnDly, stride := 4, count := 8, val := fun n =>
        let d := t.bcnDelay.getD n (0, false)
        d.1.toNat + 2 ^ 31 * b2n d.2 } ]

/-- SHT_PLAY of an owner (R109). -/
def State.shtPlay (s : State) (o : Nat) : Nat :=
  let x := s.ctx o
  match x.slot with
  | some k => k + 64 * b2n x.fallback + 256 * x.state.code + 65536 * (match s.sheet o k with | some y => y.sheetId.toNat | none => 0)
  | none => 256 * x.state.code

/-- 32 grey bits of an owner's slots (R106, R109). -/
def State.shtGrey (s : State) (o first : Nat) : Nat :=
  ((List.range 32).map fun i => b2n (s.player.grey.contains (o * 64 + first + i)) * 2 ^ i).sum

/-- Read-only fields of the SHT block (R109). -/
def State.roSht (s : State) : List RoRow :=
  let p := s.player
  let sel := s.sheet (s.regFld Reg.shtDigSel 6 6) (s.regFld Reg.shtDigSel 0 6)
  [ roOne Reg.shtStatus (b2n p.playing + 256 * p.ceiling + 1024 * p.ovrConsec),
    roOne Reg.shtLoadCtrl (2 ^ 31 * b2n p.load.isSome), roOne Reg.shtLoadStatus (b2n p.load.isSome + 256 * p.loadCode),
    roOne Reg.shtOvrCnt p.ovrCnt.toNat, roOne Reg.shtShedCnt p.shedCnt.toNat,
    roOne Reg.shtFenceCnt (p.fenceCrc.toNat + 65536 * p.fenceColl.toNat), roOne Reg.shtDigSel (2 ^ 31 * b2n sel.isSome),
    { base := Reg.shtDig, stride := 4, count := 16, val := optWord (sel.map fun x => x.digest) },
    { base := Reg.shtPlay, stride := 4, count := 33, val := s.shtPlay },
    { base := Reg.shtHeld, stride := 4, count := 33, val := fun o => (s.ctx o).lastHeld },
    { base := Reg.shtGreyLo, stride := 8, count := 33, val := fun o => s.shtGrey o 0 },
    { base := Reg.shtGreyHi, stride := 8, count := 33, val := fun o => s.shtGrey o 32 } ]

/-- Code of GRD_TILES. -/
def TileState.code : TileState → Nat
  | .idle => 0
  | .acc => 1
  | .drain => 2

/-- GRD_MAP of a logical array (R112, R139): its physical array, whether that is not the factory one, and whether it has passed. -/
def State.grdMap (s : State) (g : Nat) : Nat :=
  if g ≤ 2559 then s.physOf g + 4096 * b2n (s.physOf g ≠ g / 640 * 672 + g % 640) + 8192 * b2n (s.passOf g).isSome else 0

/-- GRD_PHYS of a physical array: its state, and the position that an ACTIVE one holds (R139). -/
def State.grdPhys (s : State) (p : Nat) : Nat :=
  if 2687 < p then 0
  else s.physState p + 16 * (if s.physState p = 0 then ((List.range 2560).find? fun g => s.physOf g = p).getD 0 else 0)

/-- Read-only fields of the GRD block (R139). -/
def State.roGrd (s : State) : List RoRow :=
  let g := s.grid
  let f := s.freeSpares.length
  let used := ((List.range 2560).filter fun q => s.physOf q ≠ q / 640 * 672 + q % 640).length
  let sel := s.regFld Reg.grdMapSel 0 12
  [ roOne Reg.grdCap 0x480A00, roOne Reg.grdStatus (4 * b2n (decide (f < 32)) + 8 * b2n (f = 0)),
    roOne Reg.grdSpares (f + 256 * used + 65536 * (g.greyCnt % 256)), roOne Reg.grdChkBase g.base,
    roOne Reg.grdChkFrames (if f = 0 then 0xFFF else cdiv 2560 f), roOne Reg.grdChkFail (g.failTarget + 4096 * g.failSpare),
    roOne Reg.grdChkFailFn g.failFn.toNat, roOne Reg.grdChkCnt g.chkCnt.toNat, roOne Reg.grdMap (s.grdMap sel),
    roOne Reg.grdMapPass (match (if sel ≤ 2559 then s.passOf sel else none) with | some n => n.toNat | none => 0),
    roOne Reg.grdPhys (s.grdPhys (s.regFld Reg.grdPhysSel 0 12)),
    roOne Reg.grdTiles ((List.range 4).map fun t => (s.tileNow t).code * 4 ^ t).sum,
    { base := Reg.grdExcCnt, stride := 4, count := 4, val := fun n => (g.excCnt.getD n 0).toNat } ]

/-- Read-only fields of the VEC block (R221). -/
def State.roVec (s : State) : List RoRow :=
  let v := s.vec
  let slot := s.regFld Reg.vecPslotSel 0 6
  let prog := Sparse.get (fun _ => none) v.slots slot
  let greys := ((List.range 32).filter s.unitGrey).length
  [ roOne Reg.vecCap 0x10008020, roOne Reg.vecStatus (65536 * greys), roOne Reg.vecGrey v.grey.toNat,
    roOne Reg.vecKatFail (v.katUnit + 256 * v.katPart), roOne Reg.vecKatFailFn v.katFn.toNat,
    roOne Reg.vecPloadCtrl (2 ^ 31 * b2n v.load.isSome), roOne Reg.vecPloadStatus (b2n v.load.isSome + 256 * v.loadCode),
    roOne Reg.vecPslot (match prog with
      | some x => x.start + 4096 * x.code.length + 2 ^ 25 + 2 ^ 26 * b2n (s.progInUse slot)
      | none => 0),
    roOne Reg.vecPslotCyc (match prog with | some x => x.cycles | none => 0),
    { base := Reg.vecPdig, stride := 4, count := 16, val := optWord (prog.map fun x => x.digest) },
    { base := Reg.vecKatPass, stride := 4, count := 32, val := fun u => ((v.katPass.getD u none).getD 0).toNat } ]

/-! ### Tiers, banks and stacks -/

/-- TIER_UNMIRRORED (R245): the mirrored objects in tier S that have one copy. -/
def State.unmirrored (s : State) : Nat :=
  (s.tiers.objs.filter fun e => match e.2 with
    | some o => o.kind.mirrored && o.home = .s && o.mirror.isNone
    | none => false).length

/-- Read-only fields of the TIER block (R251). -/
def State.roTier (s : State) : List RoRow :=
  let t := s.tiers
  let (resident, layers) := match s.plate.plate with | some p => (p.resident, p.layers.length) | none => (false, 0)
  [ roOne Reg.tierCap 0x060C0600, roOne Reg.tierStatus (b2n t.rebuild + 8 * b2n (decide (0 < s.unmirrored))),
    roOne Reg.tierStacks (t.live.toNat + 65536 * t.firstLost + 2 ^ 20 * b2n t.anyLost),
    roOne Reg.tierWindow (t.winBase + 2048 * t.winBanks), roOne Reg.tierHead (t.headBase + 2048 * t.headBanks),
    roOne Reg.tierResLimit 0x4A0, roOne Reg.tierReel ((if resident then 0 else s.player.reelPos) + 65536 * layers),
    roOne Reg.tierFetchFwdNs t.fetchFwd.toNat, roOne Reg.tierFetchRevNs t.fetchRev.toNat,
    roOne Reg.tierRebuiltCnt t.rebuiltCnt.toNat, roOne Reg.tierMoveCnt t.moveCnt.toNat, roOne Reg.tierMoveLate t.moveLate.toNat,
    roOne Reg.tierUnmirrored s.unmirrored ]

/-- Code of Table 9.1. -/
def BankState.code : BankState → Nat
  | .off => 0
  | .waking => 1
  | .on => 2
  | .ret => 3
  | .goingOff => 4
  | .queuedOn => 5
  | .grey => 6

/-- Code of BNK_Bb.req. -/
def BankReq.code : BankReq → Nat
  | .off => 0
  | .on => 1
  | .ret => 2

/-- BNK_Bb (R276): request and owner as last written, and the state. -/
def Bank.word (b : Bank) : Nat :=
  let (req, owner) := b.next.getD (b.req, b.owner)
  req.code + 256 * owner + 2 ^ 14 * b2n b.shared + 2 ^ 16 * b.state.code

/-- Read-only fields of the BNK block (R276). -/
def State.roBnk (s : State) : List RoRow :=
  let k := s.banks
  let sel := s.regFld Reg.bnkSel 0 11
  let b := s.bank sel
  [ roOne Reg.bnkCap 0x08100600, roOne Reg.bnkInfo (if sel ≤ 1535 then min b.ce 0xFFFF + 65536 * (Config.repaired sel).toNat else 0),
    { base := Reg.bnkConf, stride := 4, count := 8, val := fun r => if sel ≤ 1535 then (b.conf.getD r 0).toNat else 0 },
    roOne Reg.bnkErrRef k.errRef.toNat, roOne Reg.bnkCeTotal k.ceTotal.toNat, roOne Reg.bnkUeTotal k.ueTotal.toNat,
    roOne Reg.bnkScrub k.passMs.toNat, { base := Reg.bnkB, stride := 4, count := 1536, val := fun n => (s.bank n).word } ]

/-- Code of NMDi_STATE. -/
def NmdState.code : NmdState → Nat
  | .training => 0
  | .live => 1
  | .grey => 2

/-- NMDi_UPD_STATE (R364). -/
def UpdEngine.word (u : UpdEngine) : Nat :=
  let (op, tint) := match u.queue with
    | c :: _ => if u.running then (updF c 0 1 % 4, updF c 2 2) else (0, 0)
    | [] => (0, 0)
  op + 4 * b2n u.paused + 16 * min u.queue.length 255 + 65536 * tint

/-- A register of each NMD at an offset of its group. -/
def perNmd (base : Nat) (f : Nat → Nat) : RoRow := { base := base, stride := 0x20, count := 12, val := f }

/-- Read-only fields of the NMD block (R277, R364). -/
def State.roNmd (s : State) : List RoRow :=
  [ roOne Reg.nmdCap 0x606C9C,
    perNmd Reg.nmdState fun i =>
      let x := s.nmdOf i
      x.state.code + 16 * x.mr4.toNat + 256 * b2n x.patrolLate + 512 * b2n x.retrainLate + 65536 * x.spprRows.toNat,
    perNmd Reg.nmdCeCnt fun i => (s.nmdOf i).ceCnt.toNat, perNmd Reg.nmdUeCnt fun i => (s.nmdOf i).ueCnt.toNat,
    perNmd Reg.nmdRetrain fun i => (s.nmdOf i).retrain.toNat,
    perNmd Reg.nmdLinkCnt fun i => (s.nmdOf i).linkCorrected.toNat + 65536 * (s.nmdOf i).rereads.toNat,
    perNmd Reg.nmdPatrol fun i => (s.nmdOf i).lastMin.toNat + 65536 * (s.nmdOf i).progress.toNat,
    perNmd Reg.nmdErrAddr fun i => (s.nmdOf i).errAddr.toNat,
    roOne Reg.nmdUpdCap 0x40100, roOne Reg.nmdUpdSkipCnt (s.reg Reg.nmdUpdSkipCnt).toNat,
    roOne Reg.nmdUpdAbandonCnt (s.reg Reg.nmdUpdAbandonCnt).toNat,
    perNmd Reg.nmdUpdState fun i => (s.updOf i).word, perNmd Reg.nmdUpdBlocks fun i => (s.updOf i).blocks.toNat,
    perNmd Reg.nmdUpdLastNs fun i => (s.updOf i).lastNs.toNat, perNmd Reg.nmdUpdNonfin fun i => (s.updOf i).nonfin.toNat ]

/-! ### Plate, tints and sessions -/

/-- First and last numbers of a function's range; the manager function sees every one (R319, R320). -/
def State.tintRange (s : State) (fn : Nat) : Nat × Nat :=
  if fn = 0 then (0, 0xFFFF) else ((s.part (fn - 1)).alloc.tintFirst, (s.part (fn - 1)).alloc.tintLast)
def State.sesRange (s : State) (fn : Nat) : Nat × Nat :=
  if fn = 0 then (0, 0xFFFF) else ((s.part (fn - 1)).alloc.sesFirst, (s.part (fn - 1)).alloc.sesLast)

/-- The selector of a function: its own copy of the register (R319). -/
def State.selector (s : State) (fn off len : Nat) : Nat := s.regFld (fn * 4294967296 + off) 0 len

/-- The number lies in a range. -/
def inRange (r : Nat × Nat) (n : Nat) : Bool := decide (r.1 ≤ n) && decide (n ≤ r.2)

/-- TNT_ENTRY (R319). -/
def Tint.word (x : Tint) : Nat :=
  let hot := x.state = .hot || x.state = .evicting
  x.state.code + 16 * b2n x.pinned + 32 * b2n hot +
    64 * (match x.queued with | some q => if q.pin then 2 else 1 | none => 0) + 256 * x.stack + 4096 * x.owner +
    2 ^ 18 * x.slot.getD 0

/-- TNT_ENTRY_SIZE (R319): tiles of a copy, and banks that the tint needs when hot, 0 if more than 64. -/
def Tint.sizeWord (x : Tint) : Nat :=
  let banks := cdiv x.hotBytes 16777216
  x.tiles + 2 ^ 23 * (if 64 < banks then 0 else banks)

/-- Read-only fields of the TNT block as a function sees them (R319). -/
def State.roTnt (s : State) (fn : Nat) : List RoRow :=
  let p := s.plate
  let a := (s.part (fn - 1)).alloc
  let r := s.tintRange fn
  let id := s.selector fn Reg.tntSel 16
  let t := if inRange r id then s.tintOf id else Tint.init
  let sl := s.selector fn Reg.tntSlotSel 12
  let h := if fn = 0 || (decide (a.slotFirst ≤ sl) && decide (sl < a.slotFirst + a.slotCount)) then s.slotOf sl else HotSlot.init
  let busy := p.load.isSome || p.asking.isSome
  [ roOne Reg.tntCap 0x20010000,
    roOne Reg.tntStatus (b2n p.plate.isSome + 2 * b2n busy + 4 * b2n (s.tints.any fun e => e.2.state = .dormant)),
    roOne Reg.tntPlateStatus (b2n busy + 256 * p.code.toNat + 65536 * p.detail.toNat),
    roOne Reg.tntPlateProgress (p.progress + 65536 * p.layers),
    { base := Reg.tntPlateDig, stride := 4, count := 16, val := optWord (p.plate.map fun x => x.digest) },
    roOne Reg.tntRange (r.1 + 65536 * r.2),
    roOne Reg.tntSlots (if fn = 0 then 4096 * 4096 else a.slotFirst + 4096 * a.slotCount + 2 ^ 25 * a.slotBanks),
    roOne Reg.tntEntry t.word, roOne Reg.tntEntryGen t.gen.toNat,
    roOne Reg.tntEntryLease (if inRange r id then (s.leases t.owner id).length else 0), roOne Reg.tntEntrySize t.sizeWord,
    roOne Reg.tntSlot (h.tint.getD 0 + 65536 * b2n h.tint.isSome + 2 ^ 17 * b2n h.grey),
    roOne Reg.tntSlotGen (h.gen.toNat + 65536 * h.base) ]

/-- Code of Table 10.8. -/
def SesState.code : SesState → Nat
  | .free => 0
  | .opened => 1
  | .withdrawn => 2
  | .closing => 3
  | .queuedOn => 4

/-- SES_INS_INFO of a pin slot (R320). -/
def State.insInfo (s : State) (n : Nat) : Nat :=
  match s.pin n with
  | some x => 1 + 2 * x.owner + 128 * x.steps.length + 4096 * b2n (s.pinBusy n)
  | none => 0

/-- Read-only fields of the SES block as a function sees them (R320). -/
def State.roSes (s : State) (fn : Nat) : List RoRow :=
  let r := s.sesRange fn
  let c := s.selector fn Reg.sesSel 16
  let x := if inRange r c then s.sesOf c else Ses.init
  let pin := s.regFld Reg.sesInsSel 0 6
  [ roOne Reg.sesCap 0x10310000, roOne Reg.sesRange (r.1 + 65536 * r.2),
    roOne Reg.sesCtx (x.state.code + 8 * b2n x.reloadDue + 16 * b2n x.inPassage + 256 * x.home + 4096 * x.owner),
    roOne Reg.sesCtxTint x.tint, roOne Reg.sesCtxPos (x.positions % 2 ^ 24), roOne Reg.sesCtxExt (x.sExt + 65536 * x.hExt),
    roOne Reg.sesInsCtrl (2 ^ 31 * b2n s.ins.pinning.isSome),
    roOne Reg.sesInsStatus (b2n s.ins.pinning.isSome + 256 * s.ins.code), roOne Reg.sesInsInfo (s.insInfo pin),
    { base := Reg.sesInsDig, stride := 4, count := 16, val := optWord ((s.pin pin).map fun x => x.digest) } ]

/-! ### Rings, partitions and mailboxes -/

/-- Code of QUE_SQn_STATE and QUE_CQn_STATE. -/
def RingMode.code : RingMode → Nat
  | .off => 0
  | .on => 1
  | .draining => 2
  | .halted => 3

/-- QUE_SQn_STATE (r below 16) or QUE_CQn_STATE of a set (R397). -/
def State.ringWord32 (s : State) (set r : Nat) : Nat :=
  let p := if r < 16 then ((s.ringSet set).sqOf r).head else ((s.ringSet set).cqOf (r - 16)).tail
  p.index.toNat + 65536 * b2n p.phase + 2 ^ 17 * (s.ringMode set r).code

/-- QUE_SHARE of a set (R397, R400). -/
def State.shareWord (s : State) (set : Nat) : Nat := s.watchShare set + 2048 * s.pendShare set

/-- QUE_WATCH.lines: distinct lines that the device watches (R373). -/
def State.watched (s : State) : Nat := (dedup ((List.range 33).flatMap s.linesOf)).length

/-- Read-only fields of the QUE block, the rings under their keys in the per-set views (R397). -/
def State.roQue (s : State) (fn : Nat) : List RoRow :=
  let own := if fn = 0 then 32 else fn - 1
  [ roOne Reg.queCap 0x100210, roOne Reg.queWatch s.watched, roOne Reg.queShare (s.shareWord own),
    { base := Reg.queStatusSet, stride := 8, count := 33, val := fun n => 64 * b2n (s.ringSet n).dailies.armed },
    { base := Reg.queShareSet, stride := 8, count := 33, val := s.shareWord },
    { base := Reg.queUcl, stride := 4, count := 2, val := fun n =>
        let u := s.ucl.getD n UclPort.init
        b2n u.up + 2 * b2n u.grey + 4 * u.lanes.toNat + 65536 * u.replays.toNat },
    { base := 0xA2014, stride := 0x20, count := 1056, val := fun n => s.ringWord32 (n / 32) (n % 32) } ]

/-- Partitions that hold resources. -/
def State.holders (s : State) : List Nat := (List.range 32).filter fun p => (s.part p).state ≠ .free

/-- Read-only fields of the PRT block (R418). -/
def State.roPrt (s : State) : List RoRow :=
  let al := fun (f : Alloc → Nat) => (s.holders.map fun p => f (s.part p).alloc).sum
  let banks := ((List.range 1536).filter fun b => (s.bank b).owner = 63 && (s.bank b).state ≠ .grey).length
  let w := (s.holders.map fun p => (s.ringSet p).watches).sum
  let n := (s.holders.map fun p => (s.ringSet p).pend).sum
  [ roOne Reg.prtCap 0x20, roOne Reg.prtCmdStatus (256 * s.prt.code.toNat + 65536 * s.prt.detail.toNat),
    roOne Reg.prtPoolF (banks + 65536 * (4096 - al fun a => a.slotCount)),
    roOne Reg.prtPoolS (s.sAfterPlate - al fun a => a.sGib),
    roOne Reg.prtPoolQ ((1008 - w) + 2048 * (261120 - n)), roOne Reg.prtPoolReel (240 - al fun a => a.reel),
    { base := Reg.prtPState, stride := 64, count := 32, val := fun p =>
        (s.part p).state.code + 8 * b2n (s.part p).saved + 16 * b2n (s.part p).restored },
    { base := Reg.prtPFnOff, stride := 64, count := 32, val := fun p => (s.part p).fnOff.toNat } ]

/-- Code of MBX_CHc_CTRL.state. -/
def ChState.code : ChState → Nat
  | .empty => 0
  | .full => 1
  | .aborted => 2

/-- The channel registers of a channel bound to the master; what it does not see reads as zero (R410, R419). -/
def State.mbxRead (s : State) (m off : Nat) : Nat :=
  if off = Reg.mbxCap then 0x840
  else if off = Reg.mbxLock then (if m = 0x20 then (s.reg Reg.mbxLock).toNat else 0)
  else if off = Reg.mbxStatus then (s.reg (mbxStatusKey m)).toNat
  else if Reg.mbxBind ≤ off ∧ off < Reg.mbxBind + 256 then
    let c := (off - Reg.mbxBind) / 4
    if m = 0x20 || s.isSender m c || s.isReceiver m c then (s.reg (bindKey c)).toNat else 0
  else if Reg.mbxChCtrl ≤ off ∧ off < Reg.mbxChCtrl + 0x80 * 64 then
    let c := (off - Reg.mbxChCtrl) / 0x80
    let o := (off - Reg.mbxChCtrl) % 0x80
    let x := s.mbx.getD c Channel.init
    if !(s.isSender m c || s.isReceiver m c) then 0
    else if o = 0 then 4 * b2n x.abort + 16 * x.state.code
    else if 0x40 ≤ o then (if (o - 0x40) / 4 < s.mbxWords c then (x.data.getD ((o - 0x40) / 4) 0).toNat else 0)
    else 0
  else 0

/-! ### Links, security, safety and the log -/

/-- Code of Table 15.3. -/
def PortState.code : PortState → Nat
  | .down => 0
  | .training => 1
  | .align => 2
  | .up => 3
  | .grey => 4

/-- REEL_Pn_STATE (R425, R447): use SCHEDULED is that of a port that a loaded sheet names. -/
def State.portWord (s : State) (n : Nat) : Nat :=
  let x := s.port n
  let use := if s.scheduled n then 1 else match x.use with | .free => 0 | .dist => 2 | .bulk => 3
  (if x.trainOver s.now then 0 else x.state.code) + 16 * use + 256 * x.lanes.toNat

/-- A register of each port at an offset of its group. -/
def State.perPort (s : State) (base : Nat) (f : Port → Nat) : RoRow := { base := base, stride := 0x20, count := 8, val := fun n => f (s.port n) }

/-- Read-only fields of the REEL block (R447). -/
def State.roReel (s : State) : List RoRow :=
  let b := s.reel.port.any fun (p : Port) => p.bulk.isSome
  [ roOne Reg.reelCap 0x7088, roOne Reg.reelDist (16 * b2n (s.reel.port.any fun (p : Port) => p.dist.isSome)),
    roOne Reg.reelBulkStatus (b2n b + 256 * s.reel.bulkCode.toNat), roOne Reg.reelBulkDone s.reel.bulkDone.toNat,
    { base := Reg.reelPState, stride := 0x20, count := 8, val := s.portWord },
    s.perPort Reg.reelPCrc fun x => x.crc.toNat, s.perPort Reg.reelPMiss fun x => x.miss.toNat,
    s.perPort Reg.reelPVoid fun x => x.void.toNat, s.perPort Reg.reelPStray fun x => x.stray.toNat,
    s.perPort Reg.reelPWin fun x => x.winCrc.toNat + 65536 * x.winMiss.toNat,
    s.perPort Reg.reelPTx fun x => fld x.tx 20 32, s.perPort Reg.reelPRx fun x => fld x.rx 20 32 ]

/-- The digest that SEC_DIG_SEL.which selects (R475). -/
def State.secDigest (s : State) (which : Nat) : Option Digest :=
  match which with
  | 0 => some (sha512 Config.identityCert)
  | 1 => s.sec.custodyKey.map keyDigest
  | 2 => if s.sec.vendorKeys then some (keyDigest Config.transportKey) else none
  | 3 => s.sec.plateKey.map fun k => k.2
  | n => if 8 ≤ n then s.sec.pubs[n - 8]? else none

/-- Read-only fields of the SEC block (R475). -/
def State.roSec (s : State) : List RoRow :=
  let x := s.sec
  let dig := s.secDigest (s.regFld Reg.secDigSel 0 4)
  let rx := x.rx.getD []
  [ roOne Reg.secCap 0x28, roOne Reg.secStatus (8 * b2n x.gkSpent + 16 * b2n x.rngFail), roOne Reg.secCust s.secCust,
    roOne Reg.secCustSeq x.count.toNat, roOne Reg.secCmdStatus (b2n x.wipe.isSome + 256 * x.cmdDetail.toNat),
    roOne Reg.secKeyStatus (256 * x.keyDetail.toNat), roOne Reg.secLife s.secLife,
    roOne Reg.secBoots (match x.gk with | some k => k.boots.toNat | none => 0),
    roOne Reg.secPimp ((List.range 32).map fun p => (match (x.part.getD p { imp := none, generating := false, tierH := none }).imp with
      | some _ => 1
      | none => 0) * 2 ^ p).sum,
    roOne Reg.secDigSel (2 ^ 31 * b2n dig.isSome), { base := Reg.secDig, stride := 4, count := 16, val := optWord dig },
    roOne Reg.secMctpCtrl (256 * rx.length + 2 ^ 15 * b2n x.rx.isSome),
    { base := Reg.secMctpRx, stride := 4, count := 20, val := fun w => leAt rx (4 * w) 4 } ]

/-- A unit of Table 17.4 exists, and is grey (R485, R489). -/
def State.unitExists (s : State) (kind n : Nat) : Bool :=
  match kind with
  | 0 => decide (n < 2688)
  | 1 => decide (n < 32)
  | 2 => decide (n < 1536)
  | 3 => decide (n < 12)
  | 4 => decide (n < 8)
  | 5 => decide (n < 2)
  | 6 => decide (n < 32) && ((s.part n).state ≠ .free || s.saf.greyParts.contains n)
  | 7 => decide (n < 65536) && ((s.tintOf n).state ≠ .free || s.saf.greyTints.contains n)
  | 8 => decide (n < 65535) && ((s.sesOf n).state ≠ .free || s.saf.greySessions.contains n)
  | 9 => decide (n < 33 * 64)
  | 10 => decide (n < 4096)
  | _ => false
def State.unitIsGrey (s : State) (kind n : Nat) : Bool :=
  s.unitExists kind n && match kind with
  | 0 => s.physState n = 2
  | 1 => s.unitGrey n
  | 2 => (s.bank n).state = .grey
  | 3 => (s.nmdOf n).state = .grey
  | 4 => (s.port n).state = .grey
  | 5 => (s.ucl.getD n UclPort.init).grey
  | 6 => s.saf.greyParts.contains n
  | 7 => s.saf.greyTints.contains n
  | 8 => s.saf.greySessions.contains n
  | 9 => s.player.grey.contains n
  | 10 => (s.slotOf n).grey
  | _ => false

/-- Read-only fields of the SAF block (R497). -/
def State.roSaf (s : State) : List RoRow :=
  let f := s.saf
  let (kind, n) := (s.regFld Reg.safUnitSel 16 4, s.regFld Reg.safUnitSel 0 16)
  [ roOne Reg.safStatus (b2n f.safe + 2 * b2n f.hbA),
    roOne Reg.safCause (f.causeClass.toNat + 256 * f.causeKind.toNat + 65536 * f.causeUnit.toNat), roOne Reg.safCauseFn f.causeFn.toNat,
    roOne Reg.safUnit (b2n (s.unitIsGrey kind n) + 2 * b2n (s.unitExists kind n)),
    { base := Reg.safFenceCnt, stride := 4, count := 11, val := fun k => (f.fenceCnt.getD k 0).toNat } ]

/-- Read-only fields of the CLG block (R498). -/
def State.roClg (s : State) : List RoRow :=
  let c := s.clog
  let w := Sparse.get (fun _ => none) c.mram (s.regFld Reg.clgSel 0 18)
  [ roOne Reg.clgStatus (4 * b2n (decide (16384 ≤ c.n.toNat)) + 8 * c.staged.length), roOne Reg.clgCountLo (fld c.n 0 32),
    roOne Reg.clgCountHi c.countHi.toNat, roOne Reg.clgLost c.lostTotal.toNat,
    roOne Reg.clgSlot (b2n w.isSome + 2 * b2n (match w with | some x => slotCrcOk x | none => false)),
    { base := Reg.clgRec, stride := 4, count := 16, val := optWord w } ]

/-! ### Power and boot -/

/-- ACLK of step Fn in MHz (PWR_STEPn). -/
def stepNMhz (n : Nat) : Nat := [0x6D6, 0x5DC, 0x4E2, 0x36B].getD n 0

/-- Read-only fields of the PWR block (R504, R514). -/
def State.roPwr (s : State) : List RoRow :=
  let p := s.pwr
  let us := (s.countStep).pwr.stepNs
  [ roOne Reg.pwrCap 0x09604404,
    roOne Reg.pwrStatus (p.step + 4 * b2n p.warm + 8 * b2n p.hot + 64 * b2n p.gated),
    roOne Reg.pwrCeil (p.ceilLast + 4 * (s.fixCeiling s.tbm.running).pwr.ceilLast + 16 * s.thermalCeiling + 64 * p.sticky + 256 * p.stickyLeft),
    { base := Reg.pwrStep, stride := 4, count := 4, val := stepNMhz }, roOne Reg.pwrVddTarget Config.vddTarget.toNat,
    roOne Reg.pwrFadeCnt p.fadeCnt.toNat,
    { base := Reg.pwrFadeUs + 4, stride := 4, count := 3, val := fun k => min (us.getD k 0 / 1000) 0xFFFFFFFF },
    roOne Reg.pwrTj ((intWord p.tj).toNat % 65536 + 65536 * p.tjSensor), roOne Reg.pwrTjPeak ((intWord p.tjPeak).toNat % 65536),
    roOne Reg.pwrPower ((p.sensors.getD 23 0).toNat % 65536),
    { base := Reg.pwrRail, stride := 4, count := 10, val := fun n =>
        (p.sensors.getD (9 + n) 0).toNat % 4096 + 4096 * (if n < 4 then (p.sensors.getD (19 + n) 0).toNat % 4096 else 0) } ]

/-- Code of BOOT_STATUS.stage. -/
def Stage.code : Stage → Nat
  | .rom => 0
  | .stage2 => 1
  | .apply => 2
  | .train => 3
  | .ready => 4
  | .recovery => 5
  | .failed => 6

/-- Read-only fields of the BOOT block (R525). -/
def State.roBoot (s : State) : List RoRow :=
  let b := s.boot
  let comp := fun n => b.comps.getD n { version := 0, arb := 0, digest := 0 }
  [ roOne Reg.bootStatus (b.stage.code + 8 * b2n b.trial + 16 * b2n b.fallback + 256 * b.fails),
    roOne Reg.bootSet (b.lastGood.toNat + 256 * b.running.toNat), roOne Reg.bootTrial b.trialMask.toNat,
    { base := Reg.bootComp, stride := 8, count := 5, val := fun n => (comp n).version.toNat },
    { base := Reg.bootArb, stride := 8, count := 5, val := fun n => (comp n).arb + 256 * b.fused.getD n 0 },
    roOne Reg.bootFail (b.fail.1 + 8 * b.fail.2.1 + 128 * b.fail.2.2),
    roOne Reg.bootFlStatus (b2n b.flashOp.isSome + 256 * b.flashCode) ]

/-! ### The whole window -/

/-- The read-only fields of a block as a function sees it. -/
def State.roRows (s : State) (fn off : Nat) : List RoRow :=
  match off / 65536 with
  | 1 => s.roTb
  | 2 => s.roSht
  | 3 => s.roGrd
  | 4 => s.roVec
  | 5 => s.roTier
  | 6 => s.roBnk
  | 7 => s.roNmd
  | 8 => s.roTnt fn
  | 9 => s.roSes fn
  | 10 => s.roQue fn
  | 11 => s.roPrt
  | 13 => s.roReel
  | 14 => s.roSec
  | 15 => s.roSaf
  | 16 => s.roClg
  | 17 => s.roPwr
  | 18 => s.roBoot
  | _ => []

/-- Registers of TNT, SES and QUE that a partition function sees; those of the rings are seen in the own view (R319, R320, R397). -/
def partSees (off : Nat) : Bool :=
  off = Reg.tntCap || (decide (Reg.tntRange ≤ off) && decide (off ≤ Reg.tntSlotGen)) ||
    off = Reg.sesCap || (decide (Reg.sesRange ≤ off) && decide (off ≤ Reg.sesCtxExt)) ||
    off = Reg.queCap || off = Reg.queShare || off = Reg.queStatus || inOwnRings off

/-- Registers that are write-only, though the model keeps what was written (R418, R475). -/
def writeOnly (off : Nat) : Bool :=
  (decide (Reg.prtPState ≤ off) && decide (off < Reg.prtPState + 0x800) && ((off - Reg.prtPState) % 64 = 8 || (off - Reg.prtPState) % 64 = 12)) ||
    (decide (Reg.secMctpTx ≤ off) && decide (off < Reg.secMctpRx))

/-- Master ID of a function on UCL (Table 14.4). -/
def masterOf (fn : Nat) : Nat := if fn = 0 then 0x20 else 0x40 + (fn - 1)

/-- What a 32-bit read of a register by a function returns (R11, R368, R369). -/
def State.readout (s : State) (fn off : Nat) : Word :=
  if off / 65536 = 12 then BitVec.ofNat 32 (s.mbxRead (masterOf fn) off)
  else if fn ≠ 0 && !partSees off then 0
  else match s.regKey fn off with
    | none => if fn ≠ 0 && partSees off then BitVec.ofNat 32 (roAt (s.roRows fn off) off) else 0
    | some k =>
      let key := if off / 65536 = 10 then k else off
      let stored := match regRow (k % 4294967296) with
        | some _ => if writeOnly off then 0 else s.reg k
        | none => 0
      stored ||| BitVec.ofNat 32 (roAt (s.roRows fn off) key)

end Sys2Proof.Machine
end

