-- ==== Sys2Proof/Safety.lean ====
section
/-! DEFINITION. What the statements speak of: how a run can end, which commands end the safe state, and the invariants of the state. -/

namespace Sys2Proof.Machine

/-- A command completes in a state. -/
def completes (c : Instr) (s : State) : Prop := ∃ t, exec c s = .next t

/-- The commands that end the safe state: a cold reset, and the standby power-on before it (R482, R483, R515). -/
def endsSafe : Instr → Bool
  | .coldReset _ _ _ _ | .standbyPowerOn _ => true
  | _ => false

/-- The heartbeat pair is held low in the safe state, and its two pins are never high together (R482, R483). -/
def State.heartbeatHeld (s : State) : Prop :=
  (s.saf.safe = true → s.saf.hbA = false ∧ s.saf.hbB = false) ∧ ¬ (s.saf.hbA = true ∧ s.saf.hbB = true)

/-- Tier F is in its canonical form: addresses rise, and no listed byte equals what an unlisted one reads as. -/
abbrev State.memoryWf (s : State) : Prop := Sparse.wf (fun _ => (0 : Byte)) s.tiers.f = true

/-- What the device has written to host memory is in canonical form. -/
abbrev State.hostWf (s : State) : Prop := Sparse.wf (fun _ => (none : Option Byte)) s.host = true

/-- The stored registers are in canonical form. -/
abbrev State.regsWf (s : State) : Prop := Sparse.wf regReset s.regs = true

/-- Two states agree on every stored register outside a list of keys. -/
def State.regsBut (s t : State) (keys : List Nat) : Prop := ∀ k, k ∉ keys → t.reg k = s.reg k

/-! ### Cues and vector instructions -/

/-- The segment cycle at which a cue is due: its compiled cycle if it is anchored, else with the segment's slip (R95, R96). -/
def State.dueCycle (s : State) (o : Nat) (c : Cue) : Nat := if c.anchor = true then c.offset else c.offset + (s.ctx o).slip

/-- A cue of track A, V or M starts now, at segment cycle `start` (R56, R95-R98, R104): it is in the sheet that plays in segment `o` and
its shot is of the kind asked, it has not started, it is selected and sound, and a gap between insert windows holds it. An anchored cue
ends inside its segment. A non-anchored one plays in RUN, in order, in a whole bay, with its gate ready (and no other cue at its offset
holds the segment), and the shed test passes. -/
def State.mayStart (s : State) (o : Nat) (t : Track) (i : Nat) (x : Sheet) (c : Cue) (kind : Shot → Bool) (start : Nat) : Prop :=
  s.playing o = some x ∧ x.cue? t i = some c ∧ kind (x.shot c) = true ∧ s.saf.safe = false ∧ (s.ctx o).state ≠ .idle ∧
    (s.ctx o).gone t i = false ∧ (s.ctx o).selected c = true ∧ c.fault t = none ∧
    s.clearStart o t (s.dueCycle o c) c.dur = some start ∧
    ((c.anchor = true ∧ (t = .a ∨ t = .v → s.cycleTb o (start + c.dur) ≤ (s.ctx o).endTb)) ∨
     (c.anchor = false ∧ (s.ctx o).state = .run ∧ (s.ctx o).isNext x c.offset = true ∧
      (c.bay = 63 ∨ c.retake = true ∨ c.bay ∉ (s.ctx o).broken) ∧ s.holder (s.ctx o) x c.offset = none ∧
      ((s.advance (s.cycleTb o (s.dueCycle o c))).advance (s.cycleTb o start)).shedTest o c = false))

/-- The state at the start of a cue at a segment cycle, before its shot acts: TB is at the cycle's edge (for a non-anchored cue after the
edge at which it is due), results visible from it have landed, and the cue counts as started (R95, R191). -/
def State.started (s : State) (o : Nat) (t : Track) (i : Nat) (c : Cue) (start : Nat) : State :=
  (((if c.anchor = true then s else s.advance (s.cycleTb o (s.dueCycle o c))).advance (s.cycleTb o start)).flushUnits start).markStarted
    o t i start

/-- The state in which unit `u`'s next instruction reads its operands: TB is at its issue cycle, results visible from it have landed
(R191). -/
def State.atIssue (s : State) (u : Nat) : State :=
  (s.advance (s.cycleTb (s.unit u).owner (s.unit u).cycle)).flushUnits (s.unit u).cycle

/-- Unit `u` after an instruction of a latency has issued: its results are due, its nibble has taken the raised bits, and the program
stands at its next instruction (R191, R192, R206). -/
def State.issued (s : State) (u lat : Nat) (res : List VResult) (nib : BitVec 4) : State :=
  s.setUnit u { s.unit u with nibble := (s.unit u).nibble ||| nib,
                              due := (s.unit u).due ++ res.map fun r => ((s.unit u).cycle + lat, r) }.next

/-- No result that is due meets a new one: none names the register of a new one for the same cycle (R191). -/
def VUnit.free (x : VUnit) (lat : Nat) (res : List VResult) : Prop :=
  ∀ e ∈ x.due, e.1 = x.cycle + lat → ∀ r ∈ res, r.sameReg e.2 = false

/-- An instruction, where it may issue, has these results and raises these bits, and does nothing else: `res` and `nib` are functions of
the unit as it reads its operands. Its program still runs then: no result that landed at the issue cycle fenced the sheet (R262). -/
def vIssues (c : Instr) (u op lat : Nat) (f : VFields) (res : VUnit → List VResult) (nib : VUnit → BitVec 4) : Prop :=
  ∀ s : State, s.mayIssue u op f = true → s.saf.safe = false →
    ((s.atIssue u).unit u).prog ≠ none → ((s.atIssue u).unit u).free lat (res ((s.atIssue u).unit u)) →
    exec c s = .next ((s.atIssue u).issued u lat (res ((s.atIssue u).unit u)) (nib ((s.atIssue u).unit u)))

/-- As `vIssues`, for an instruction that also draws, meters or uses a free value: `sem` answers the state after that, the results and
the bits, and none where an access fails. -/
def vIssuesBy (c : Instr) (u op lat : Nat) (f : VFields) (sem : VSem) : Prop :=
  ∀ (s t : State) (res : List VResult) (nib : BitVec 4), s.mayIssue u op f = true → s.saf.safe = false →
    sem (s.atIssue u) ((s.atIssue u).unit u) = some (t, res, nib) → (t.unit u).cycle = (s.unit u).cycle → (t.unit u).prog ≠ none →
    (t.unit u).free lat res →
    exec c s = .next (t.issued u lat res nib)

/-- One value for each lane with its guard bit; the other lanes keep theirs (R190, R193). -/
def VUnit.guarded {α : Type} (x : VUnit) (f : VFields) (g : Nat → α) : List (Option α) :=
  (List.range 128).map fun l => if x.guard f l = true then some (g l) else none

/-- The bits that the guarded lanes raise. -/
def VUnit.raised (x : VUnit) (f : VFields) (g : Nat → BitVec 4) : BitVec 4 :=
  (x.guarded f g).foldl (fun n o => n ||| o.getD 0) 0

/-! ### Reel links -/

/-- The L-track cue `c`, number `i` of the sheet `x` that plays in segment `o`, starts with its op (R426): the segment is not fenced, the
sheet is no fallback, the cue has not started, is selected and sound, and the block is not in its safe state. -/
def State.lPlays (s : State) (o i : Nat) (x : Sheet) (c : Cue) (op : Nat) : Prop :=
  s.playing o = some x ∧ x.cue? .l i = some c ∧ (x.shot c).lOp = op ∧ (s.ctx o).state ≠ .idle ∧ (s.ctx o).state ≠ .void ∧
    (s.ctx o).fallback = false ∧ (s.ctx o).gone .l i = false ∧ (s.ctx o).selected c = true ∧ s.saf.safe = false ∧ c.fault .l = none

/-- The state in which such a cue acts: TB is at its start, and it counts as started. -/
def State.lStarted (s : State) (o i : Nat) (c : Cue) : State := (s.advance (s.lTb o c.offset)).markStarted o .l i c.offset

/-- A flit of a kind arrives whole on an UP port. -/
def State.hears (s : State) (n kind : Nat) (f : Blob) : Prop :=
  n < 8 ∧ (s.port n).state = .up ∧ s.reel.port.length = 8 ∧ flitCrcOk f = true ∧ flitKind f = kind ∧ flitFlags f < 4

/-- The port that has heard a flit: the flit is counted. -/
def State.heard (s : State) (n : Nat) : Port := { s.port n with rx := (s.port n).rx + 1 }

/-- A CONTROL flit of a subtype arrives whole on an UP port, with its unlisted bytes zero (R445). -/
def State.controls (s : State) (n sub used : Nat) (f : Blob) : Prop :=
  s.hears n 5 f ∧ leAt (flitPayload f) 0 1 = sub ∧ flitFlags f = 3 ∧ flitSeq f = 0 ∧ allZero ((flitPayload f).drop used) = true

/-- Port `n` has heard a flit and sent others after it. -/
def State.answered (s : State) (n : Nat) (fs : List Blob) : Port :=
  { s.heard n with sent := fs.reverse ++ (s.port n).sent, tx := (s.port n).tx + BitVec.ofNat 52 fs.length }

/-! ### Memory -/

/-- One byte of tier F. -/
def State.byteF (s : State) (a : Nat) : Byte := Sparse.get (fun _ => (0 : Byte)) s.tiers.f a

/-- An address lies in a run of bytes at a place. -/
def Place.covers : Place → Nat → Nat → Prop
  | .at_ b, len, a | .inSlot b _, len, a => b ≤ a ∧ a < b + len
  | .unbound, _, _ => False

/-! ### Descriptors -/

/-- The completion of a descriptor is decided, with a status (R385). -/
def State.completed (s : State) (k : ItemKey) (st : Nat) : Prop :=
  ∃ i c, s.item? k = some i ∧ i.done = some c ∧ c.status = BitVec.ofNat 8 st

/-- The completion of a descriptor is not decided. -/
def State.uncompleted (s : State) (k : ItemKey) : Prop := ∃ i, s.item? k = some i ∧ i.done = none

end Sys2Proof.Machine
end

