-- ==== Sys2Proof/Certificates/Slice0/Obligations.lean ====
section
/-! DEFINITION. The statements for the provers: what the commands do, what they leave alone, and what every step keeps. -/

open Sys2Proof Sys2Proof.Machine

/-- A step runs the command at the front of the queue. A step of a state whose queue holds c in front is exec of c on the
state with the queue's rest. On an empty queue one nanosecond passes (the model's choice, log entry 2): TB counts if
it counts, one more or one less where a slew of a follower's correction is due, a stored word, a granule or a link may
suffer an upset (free values, log entry 3), and nothing else changes. (00_scope.md) -/
def Obligations.StepRunsTheFrontCommand : Prop :=
  (∀ (c : Instr) (rest : List Instr) (s : State), step { s with pending := c :: rest } = exec c { s with pending := rest }) ∧
  (∀ s : State, s.pending = [] → s.tbm.counting = true →
    ∃ t, step s = .next t ∧ t.tbm = s.tbm.count s.frameNs ∧ t.nmd.length = s.nmd.length ∧
      t = { s with tbm := t.tbm, tiers := { s.tiers with f := t.tiers.f, fErr := t.tiers.fErr }, nmd := t.nmd, free := s.free + 32 }) ∧
  (∀ s : State, s.pending = [] → s.tbm.counting = true → s.tbm.phaseLeft = 0 → (s.tbm.freqAcc + s.tbm.freqPpb).natAbs < 1000000000 →
    ∃ t, step s = .next t ∧ t.tbm.tb = s.tbm.tb + 1) ∧
  (∀ s : State, s.pending = [] → s.tbm.counting = false → step s = .next s)

/-- TB_NOW_READ, TICK_LAST_READ, CLG_COUNT_READ answer the low half and latch the high half. In every state TB_NOW_READ
answers TB[31:0] and latches TB[63:32] for TB_NOW_HI, TICK_LAST_READ does the same with T(FN), and CLG_COUNT_READ
answers N[31:0] and latches N[47:32]. Nothing else changes. (02 R75, 17 R498) -/
def Obligations.SixtyFourBitReadsLatchTheUpperHalf : Prop :=
  (∀ s : State, exec .tbNowRead s =
    .next { s with tbm := { s.tbm with nowHi := s.tbm.tb.extractLsb' 32 32 }, uclResp := .data (s.tbm.tb.extractLsb' 0 32) }) ∧
  (∀ s : State, exec .tickLastRead s =
    .next { s with tbm := { s.tbm with lastHi := s.tbm.tLast.extractLsb' 32 32 },
                   uclResp := .data (s.tbm.tLast.extractLsb' 0 32) }) ∧
  (∀ s : State, exec .clgCountRead s =
    .next { s with clog := { s.clog with countHi := s.clog.n.extractLsb' 32 16 }, uclResp := .data (s.clog.n.extractLsb' 0 32) })

/-- REGISTER_WRITE, REGISTER_ACCESS_ERROR and LOCK_WRITE. A 32-bit write by a function that is on the link, to a register
it sees whose value the device stores as written, sets the register's RW bits (and its RWL bits while the block's lock
is clear) to the written bits, clears the W1C bits written 1, and keeps all other bits; no other register and nothing
else of the block changes. What a function does not see, a write does not touch. An access that is not aligned, not 32
bits wide, or by a function that is not on the link, receives the error response and does nothing else. A lock write
sets the block's lock bit. A 0 in TB_REHEARSE.arm disarms the preset while no partition is active. What a function
does not see reads as zero; the capability registers of the grid, the vector engine, the tiers and the power block
read as the spec's values, and TB_STATUS.locked reads 1 on a running master. (13 R368, 13 R369, 13 R370, 13 R367, 02
R75, 04 R139, 07 R221, 08 R251, 18 R514) -/
def Obligations.RegisterWritesFollowTheAccessCodes : Prop :=
  (∀ (s : State) (fn off k : Nat) (r : RegRow) (v : Word), s.regsWf → s.fnPresent fn = true → s.regKey fn off = some k →
    regRow (k % 4294967296) = some r → (s.lockedAt (k % 4294967296) = false ∨ r.rw ≠ 0 ∨ r.w1c ≠ 0) → s.judge k v = .store v → k ≠ Reg.tbRehearse →
    ∃ t, exec (.registerWrite fn off v) s = .next t ∧
      (∀ i, i < 32 → (t.reg k).getLsbD i =
        if r.w1c.getLsbD i = true ∧ v.getLsbD i = true then false
        else if r.rw.getLsbD i = true ∨ (r.rwl.getLsbD i = true ∧ s.lockedAt (k % 4294967296) = false) then v.getLsbD i
        else (s.reg k).getLsbD i) ∧
      s.regsBut t [k] ∧ t = { s with regs := t.regs }) ∧
  (∀ (s : State) (fn off : Nat) (v : Word), s.fnPresent fn = true → s.regKey fn off = none →
    exec (.registerWrite fn off v) s = .next s) ∧
  (∀ (s : State) (fn off : Nat) (v : Word), s.fnPresent fn = false →
    exec (.registerWrite fn off v) s = .next { s with uclResp := .error }) ∧
  (∀ (s : State) (fn off size : Nat), (size ≠ 4 ∨ off % 4 ≠ 0 ∨ s.fnPresent fn = false) →
    exec (.registerAccessError fn off size) s = .next { s with uclResp := .error }) ∧
  (∀ (s : State) (b : LockBlock), s.regsWf →
    ∃ t, exec (.lockWrite b) s = .next t ∧ t.locked b = true ∧ s.regsBut t [lockReg b] ∧ t = { s with regs := t.regs }) ∧
  (∀ (s : State) (v : Word), s.anyActive = false → v.getLsbD 31 = false → s.boot.stage ≠ .recovery →
    ∃ t, exec (.registerWrite 0 Reg.tbRehearse v) s = .next t ∧ t.tbm.presetArmed = false) ∧
  (∀ (s : State) (fn off : Nat), fn ≠ 0 → off / 65536 ≠ 12 → partSees off = false → s.readout fn off = 0) ∧
  (∀ s : State, s.boot.stage ≠ .recovery →
    s.readout 0 Reg.grdCap = 0x480A00 ∧ s.readout 0 Reg.vecCap = 0x10008020 ∧ s.readout 0 Reg.tierCap = 0x060C0600 ∧
      s.readout 0 Reg.pwrCap = 0x09604404) ∧
  (∀ s : State, s.boot.stage ≠ .recovery → s.follower = false → s.tbm.running = true →
    (s.readout 0 Reg.tbStatus).getLsbD 1 = true)

/-- RUN_START and RUN_STOP. On a master at rest whose active profile is used and valid, RUN_START sets TB_CTRL.run and
fixes the first tick 1,000 ns later; a follower waits for its synchronisation; behind a pending stop the start is
queued. With no partition in the frame and SHT_CTRL.en 0, RUN_STOP of running frames clears TB_CTRL.run (that the bit
reads 0 from the accepted stop on is the model's choice, log entry 55) and makes the stop pending; otherwise it is
ignored and sets TB_STATUS.cfg_err. No other register and nothing else changes. (02 R54, 02 R58, 02 R59) -/
def Obligations.FramesStartAndStop : Prop :=
  (∀ s : State, s.regsWf → s.locked .tb = false → s.used s.tbm.active.toNat = true → s.valid s.tbm.active.toNat = true →
    s.tbm.running = false → s.tbm.startDue = false → s.tbm.waitSync = false → s.tbm.stopPending = false → s.follower = false →
    ∃ t, exec .runStart s = .next t ∧ t.regBit Reg.tbCtrl 0 = true ∧ s.regsBut t [Reg.tbCtrl] ∧
      t = { s with regs := t.regs, tbm := { s.tbm with startDue := true, tNext := s.tbm.tb + 1000 } }) ∧
  (∀ s : State, s.regsWf → s.locked .tb = false → s.used s.tbm.active.toNat = true → s.valid s.tbm.active.toNat = true →
    s.tbm.running = false → s.tbm.startDue = false → s.tbm.waitSync = false → s.tbm.stopPending = false → s.follower = true →
    ∃ t, exec .runStart s = .next t ∧ t.regBit Reg.tbCtrl 0 = true ∧ s.regsBut t [Reg.tbCtrl] ∧
      t = { s with regs := t.regs, tbm := { s.tbm with waitSync := true } }) ∧
  (∀ s : State, s.locked .tb = false → s.used s.tbm.active.toNat = true → s.valid s.tbm.active.toNat = true →
    s.tbm.stopPending = true → exec .runStart s = .next { s with tbm := { s.tbm with restartQueued := true } }) ∧
  (∀ s : State, s.regsWf → s.locked .tb = false → s.anyActive = false → s.regBit Reg.shtCtrl 0 = false →
    s.tbm.stopPending = false → s.tbm.running = true →
    ∃ t, exec .runStop s = .next t ∧ t.regBit Reg.tbCtrl 0 = false ∧ s.regsBut t [Reg.tbCtrl] ∧
      t = { s with regs := t.regs, tbm := { s.tbm with stopPending := true } }) ∧
  (∀ s : State, s.regsWf → s.locked .tb = false → (s.anyActive = true ∨ s.regBit Reg.shtCtrl 0 = true) →
    ∃ t, exec .runStop s = .next t ∧ t.regBit Reg.tbStatus 10 = true ∧ s.regsBut t [Reg.tbStatus] ∧ t = { s with regs := t.regs })

/-- SET_CADENCE. While TB_LOCK is clear, SET_CADENCE takes the code into TB_CTRL.cadence if no partition is active and
every used profile is valid under R51 with it; otherwise TB_CTRL keeps its value and TB_STATUS.cfg_err is set. No
other register and nothing else changes. (R55) -/
def Obligations.CadenceChangesOnlyWhenEveryUsedProfileStaysValid : Prop :=
  (∀ (s : State) (c : BitVec 2), s.regsWf → s.locked .tb = false → s.anyActive = false → s.allValid c.toNat = true →
    ∃ t, exec (.setCadence c) s = .next t ∧ t.regFld Reg.tbCtrl 2 2 = c.toNat ∧ s.regsBut t [Reg.tbCtrl] ∧
      t.regFld Reg.tbCtrl 0 2 = s.regFld Reg.tbCtrl 0 2 ∧ t.regFld Reg.tbCtrl 4 28 = s.regFld Reg.tbCtrl 4 28 ∧
      t = { s with regs := t.regs }) ∧
  (∀ (s : State) (c : BitVec 2), s.regsWf → s.locked .tb = false → (s.anyActive = true ∨ s.allValid c.toNat = false) →
    ∃ t, exec (.setCadence c) s = .next t ∧ t.regBit Reg.tbStatus 10 = true ∧ s.regsBut t [Reg.tbStatus] ∧
      t = { s with regs := t.regs })

/-- PROFILE_WRITE, SYNC_ARM and REHEARSE_ARM. While TB_LOCK is clear and the profile is neither active in running frames
nor committed, PROFILE_WRITE stores the frame length (14 bits) or the house length (22 bits) of the profile and no
other register; a busy profile keeps its lengths and TB_STATUS.cfg_err is set. With no partition in the frame SYNC_ARM
sets TB_CTRL.sync_arm and REHEARSE_ARM stores epoch_value and epoch_en and arms the preset; with one, each keeps its
fields and sets TB_STATUS.cfg_err. Nothing else changes. (02 R54, 02 R72, 02 R74, 02 R75) -/
def Obligations.ProfilesPresetsAndSynchronisationAreArmed : Prop :=
  (∀ (s : State) (n : BitVec 2) (v : Word), s.regsWf → s.locked .tb = false → s.profileBusy n = false →
    ∃ t, exec (.profileWrite n false v) s = .next t ∧ t.frameUs n.toNat = v.toNat % 16384 ∧
      s.regsBut t [Reg.tbProfFrame + 8 * n.toNat] ∧ t = { s with regs := t.regs }) ∧
  (∀ (s : State) (n : BitVec 2) (v : Word), s.regsWf → s.locked .tb = false → s.profileBusy n = false →
    ∃ t, exec (.profileWrite n true v) s = .next t ∧ t.houseNs n.toNat = 4 * (v.toNat % 4194304) ∧
      s.regsBut t [Reg.tbProfHouse + 8 * n.toNat] ∧ t = { s with regs := t.regs }) ∧
  (∀ (s : State) (n : BitVec 2) (house : Bool) (v : Word), s.regsWf → s.profileBusy n = true →
    ∃ t, exec (.profileWrite n house v) s = .next t ∧ t.regBit Reg.tbStatus 10 = true ∧ s.regsBut t [Reg.tbStatus] ∧
      t = { s with regs := t.regs }) ∧
  (∀ s : State, s.regsWf → s.anyActive = false →
    ∃ t, exec .syncArm s = .next t ∧ t.regBit Reg.tbCtrl 5 = true ∧ (∀ i, i ≠ 5 → t.regBit Reg.tbCtrl i = s.regBit Reg.tbCtrl i) ∧
      s.regsBut t [Reg.tbCtrl] ∧ t = { s with regs := t.regs }) ∧
  (∀ (s : State) (e : BitVec 16) (b : Bool), s.regsWf → s.anyActive = false →
    ∃ t, exec (.rehearseArm e b) s = .next t ∧ t.regFld Reg.tbRehearse 0 16 = e.toNat ∧ t.regBit Reg.tbRehearse 16 = b ∧
      s.regsBut t [Reg.tbRehearse] ∧ t = { s with regs := t.regs, tbm := { s.tbm with presetArmed := true } }) ∧
  (∀ (s : State) (e : BitVec 16) (b : Bool) (c : Instr), c = .syncArm ∨ c = .rehearseArm e b → s.regsWf → s.anyActive = true →
    ∃ t, exec c s = .next t ∧ t.regBit Reg.tbStatus 10 = true ∧ s.regsBut t [Reg.tbStatus] ∧ t = { s with regs := t.regs })

/-- MISSED_TICK, SRC_RETURN, FOLLOWER_LOCK and HOLDOVER_EXIT. On a follower with frames running, a missed tick of a
configured source adds one to TB_MISS_CNT (saturating) and one to the misses of that source; if the primary source is
active and missed a tick for which the secondary, another source, delivered an accepted word, the secondary becomes
active. After 64 consecutive accepted primary ticks a follower on its secondary source returns to the primary. After
16 consecutive accepted ticks within 4 ns FOLLOWER_LOCK sets locked. After 4 consecutive accepted ticks HOLDOVER_EXIT
ends holdover; which source is active then is the model's choice (log entry 55). Each of the four changes the timebase
(and, at a change of source, the log) and nothing else. (02 R65, 02 R67, 02 R68, 02 R71) -/
def Obligations.FollowerCountsItsTicks : Prop :=
  (∀ (s : State) (src : TickSource), s.follower = true → s.tbm.running = true → s.configured src = true →
    ∃ t, exec (.missedTick src) s = .next t ∧ t.tbm.missCnt = satAdd 32 s.tbm.missCnt 1 ∧
      t.tbm.missPrimary = s.tbm.missPrimary + (if src.code = s.primary then 1 else 0) ∧
      t.tbm.missSecondary = s.tbm.missSecondary + (if src.code = s.secondary then 1 else 0) ∧
      t.tbm.srcActive = (if src.code = s.primary ∧ src.code ≠ s.secondary ∧ s.tbm.secondaryOk = true ∧ s.tbm.srcActive = 1 then 2 else s.tbm.srcActive) ∧
      t.tbm.fn = s.tbm.fn ∧ t.tbm.tb = s.tbm.tb ∧ t = { s with tbm := t.tbm, clog := t.clog, regs := t.regs }) ∧
  (∀ s : State, s.tbm.srcActive = 2 → 64 ≤ s.tbm.primaryRun →
    ∃ t, exec .srcReturn s = .next t ∧
      t = { s with tbm := { s.tbm with srcActive := 1 }, clog := t.clog, regs := t.regs }) ∧
  (∀ s : State, s.follower = true → 16 ≤ s.tbm.lockRun →
    exec .followerLock s = .next { s with tbm := { s.tbm with locked := true } }) ∧
  (∀ s : State, s.tbm.holdover = true → 4 ≤ s.tbm.acceptRun →
    exec .holdoverExit s =
      .next { s with tbm := { s.tbm with holdover := false, srcActive := if s.tbm.primaryRun = 0 then 2 else 1 } })

/-- ALIGN_ERR and TICK_LOST. After 4 accepted ticks in a row beyond 4 ns, ALIGN_ERR sets TB_STATUS.align_err and stages
its record. When every configured source of a running follower has missed two ticks in a row, TICK_LOST begins
holdover on the device's own TB and sets TB_STATUS.tick_lost; where SAF_PROMOTE makes the class TICK dangerous, the
safe state follows. FN and TB stand. (02 R67, 02 R69, 17 R477, 17 R478) -/
def Obligations.AlignmentErrorsAndLostTicksAreReported : Prop :=
  (∀ s : State, s.regsWf → 4 ≤ s.tbm.alignRun →
    ∃ t, exec .alignErr s = .next t ∧ t.regBit Reg.tbStatus 9 = true ∧ s.regsBut t [Reg.tbStatus, Reg.clgStatus] ∧
      t = { s with tbm := { s.tbm with alignRun := 0 }, regs := t.regs, clog := t.clog }) ∧
  (∀ s : State, s.regsWf → s.follower = true → s.tbm.running = true → s.tbm.holdover = false → s.primary ≠ 0 ∨ s.secondary ≠ 0 →
    (s.primary = 0 ∨ 2 ≤ s.tbm.missPrimary) → (s.secondary = 0 ∨ 2 ≤ s.tbm.missSecondary) → s.promoted 0x05 = false →
    ∃ t, exec .tickLost s = .next t ∧ t.regBit Reg.tbStatus 8 = true ∧ s.regsBut t [Reg.tbStatus, Reg.clgStatus] ∧
      t = { s with tbm := { s.tbm with holdover := true, srcActive := 0, acceptRun := 0 }, regs := t.regs, clog := t.clog }) ∧
  (∀ s : State, s.regsWf → s.follower = true → s.tbm.running = true → s.tbm.holdover = false → s.primary ≠ 0 ∨ s.secondary ≠ 0 →
    (s.primary = 0 ∨ 2 ≤ s.tbm.missPrimary) → (s.secondary = 0 ∨ 2 ≤ s.tbm.missSecondary) → s.promoted 0x05 = true →
    ∃ t, exec .tickLost s = .next t ∧ t.saf.safe = true ∧
      t.tbm = { s.tbm with holdover := true, srcActive := 0, acceptRun := 0 })

/-- TICK_WORD. An armed synchronisation takes FN, epoch, profile and T(FN) from the first word of a configured source
whose CRC is right, steps TB by the word's tb plus the source's compensation minus the arrival, and disarms; a time of
observation that the step would leave in the future becomes the present (the model's inference, log entry 56). On a
running follower whose active source is the primary one, an accepted word of it (right CRC, the FN of the last tick
and the epoch before it, phase error e within 64 ns, the profile unchanged) stores e in TB_PHASE_ERR, starts the
correction -e at the next tick, and counts it as accepted, the run of accepted ticks going on from the tick before; FN
and TB do not change. A word whose CRC is wrong counts as a missed tick. (02 R61, 02 R65, 02 R66, 02 R67, 02 R72) -/
def Obligations.TickWordsSynchroniseAndDiscipline : Prop :=
  (∀ (s : State) (src : TickSource) (w : BitVec 128) (a : BitVec 64), s.regsWf → s.configured src = true → tickWordOk w = true →
    s.regBit Reg.tbCtrl 5 = true →
    ∃ t, exec (.tickWord src w a) s = .next t ∧ t.tbm.fn = w.extractLsb' 64 32 ∧ t.tbm.epoch = w.extractLsb' 96 16 ∧
      t.tbm.active = w.extractLsb' 112 2 ∧ t.tbm.tLast = w.extractLsb' 0 64 ∧
      t.tbm.tb = s.tbm.tb + (w.extractLsb' 0 64 + BitVec.ofInt 64 (s.compensation src) - a) ∧
      t.regBit Reg.tbCtrl 5 = false ∧ s.regsBut t [Reg.tbCtrl, Reg.clgStatus] ∧
      t.items.map (·.1) = s.items.map (·.1) ∧ (∀ e ∈ t.items, e.2.obs.toNat ≤ t.now) ∧
      t = { s with tbm := t.tbm, regs := t.regs, clog := t.clog, items := t.items, tints := t.tints, ses := t.ses, prt := t.prt,
                   saf := t.saf }) ∧
  (∀ (s : State) (src : TickSource) (w : BitVec 128) (a : BitVec 64), s.configured src = true → tickWordOk w = true →
    s.regBit Reg.tbCtrl 5 = false → s.follower = true → s.tbm.running = true → src.code = s.primary → s.tbm.srcActive = 1 →
    w.extractLsb' 64 32 = s.tbm.fn → w.extractLsb' 96 16 = s.tbm.lastEpoch → w.extractLsb' 112 2 = s.tbm.active →
    ((a.toNat : Int) - s.compensation src - s.tbm.tLast.toNat).natAbs ≤ ((a.toNat : Int) - s.compensation src - s.tbm.tNext.toNat).natAbs →
    -64 ≤ (a.toNat : Int) - s.compensation src - (w.extractLsb' 0 64).toNat →
    (a.toNat : Int) - s.compensation src - (w.extractLsb' 0 64).toNat ≤ 64 →
    ∃ t, exec (.tickWord src w a) s = .next t ∧
      t.tbm.phaseErr = BitVec.ofInt 16 ((a.toNat : Int) - s.compensation src - (w.extractLsb' 0 64).toNat) ∧
      t.tbm.phaseNext = -((a.toNat : Int) - s.compensation src - (w.extractLsb' 0 64).toNat) ∧
      t.tbm.acceptRun = (if s.tbm.acceptFn = some (s.tbm.fn - 1) then s.tbm.acceptRun + 1 else 1) ∧ t.tbm.acceptFn = some s.tbm.fn ∧ t.tbm.missPrimary = 0 ∧ t.tbm.primaryRun = s.tbm.primaryRun + 1 ∧
      t.tbm.fn = s.tbm.fn ∧ t.tbm.tb = s.tbm.tb ∧ -200000 ≤ t.tbm.freqPpb ∧ t.tbm.freqPpb ≤ 200000 ∧
      t = { s with tbm := t.tbm, free := t.free }) ∧
  (∀ (s : State) (src : TickSource) (w : BitVec 128) (a : BitVec 64), s.configured src = true → tickWordOk w = false →
    s.follower = true → s.tbm.running = true → exec (.tickWord src w a) s = exec (.missedTick src) s)

/-- TICK: the frame number and the wrap epoch. When a tick is due, TICK answers a next state in which T(FN) is the time
that was fixed for the tick. In running frames with no preset armed FN is one more modulo 2^32, and the epoch is one
more exactly if FN passed from 0xFFFFFFFF to 0. At the first tick after a start with no preset armed FN is 0 and the
epoch is one more than the held epoch. At a tick with a preset armed FN is TB_FN_PRESET, and in running frames the
epoch is epoch_value if epoch_en is 1 and does not change if it is 0. Pins and the boot block do not change. (R45,
R46) -/
def Obligations.TicksCountFramesAndEpochs : Prop :=
  (∀ s : State, s.tickDue = true → s.tbm.startDue = false → s.tbm.presetArmed = false →
    ∃ t, exec .tick s = .next t ∧ t.tbm.fn = s.tbm.fn + 1 ∧
      t.tbm.epoch = (if s.tbm.fn = 0xFFFFFFFF then s.tbm.epoch + 1 else s.tbm.epoch) ∧ t.tbm.heldEpoch = t.tbm.epoch ∧
      t.tbm.tLast = s.tbm.tNext ∧ t.tbm.running = true ∧ t.tbm.cpPassed = false ∧ t.pins = s.pins ∧ t.boot = s.boot) ∧
  (∀ s : State, s.tickDue = true → s.tbm.startDue = true → s.tbm.presetArmed = false →
    ∃ t, exec .tick s = .next t ∧ t.tbm.fn = 0 ∧ t.tbm.epoch = s.tbm.heldEpoch + 1 ∧ t.tbm.tLast = s.tbm.tNext ∧
      t.tbm.running = true ∧ t.tbm.startDue = false ∧ t.pins = s.pins ∧ t.boot = s.boot) ∧
  (∀ s : State, s.tickDue = true → s.tbm.presetArmed = true → s.tbm.startDue = false →
    ∃ t, exec .tick s = .next t ∧ t.tbm.fn = s.reg Reg.tbFnPreset ∧
      t.tbm.epoch = (if s.regBit Reg.tbRehearse 16 = true then BitVec.ofNat 16 (s.regFld Reg.tbRehearse 0 16) else s.tbm.epoch) ∧
      t.tbm.presetArmed = false ∧ t.tbm.tLast = s.tbm.tNext)

/-- TICK: HB_A inverts and HB_B is driven to its complement. At a tick that is due, with VAUX present and no safe state,
either the device is in its safe state afterwards and both heartbeat pins are low, or HB_A has inverted and HB_B is
the complement of HB_A. (17 R482, 17 R483) -/
def Obligations.TheHeartbeatTogglesAtEachTick : Prop :=
  ∀ s : State, s.tickDue = true → s.saf.safe = false → s.pins.vaux = true →
    ∃ t, exec .tick s = .next t ∧
      ((t.saf.safe = true ∧ t.saf.hbA = false ∧ t.saf.hbB = false) ∨
       (t.saf.safe = false ∧ t.saf.hbA = !s.saf.hbA ∧ t.saf.hbB = !t.saf.hbA))

/-- COMMIT_POINT. In a running frame whose commit point has not passed, outside the safe state, COMMIT_POINT brings TB to
at least 20,000 ns before the next tick, fixes the records committed so far for the next frame, and counts a missed
commit unless the director has committed: a commit returns the count to 0, its absence (with no stop pending) adds 1
and marks the frame as missed. FN and the epoch do not change. (01 R21, 01 R22, 02 R44, 17 R477) -/
def Obligations.CommitPointsFixTheNextFrame : Prop :=
  (∀ s : State, s.tbm.running = true → s.tbm.cpPassed = false → s.saf.safe = false → s.player.nextDone = true →
    ∃ t, exec .commitPoint s = .next t ∧ t.tbm.cpPassed = true ∧ t.player.fixedRecs = s.player.nextRecs ∧ t.saf.missedCommits = 0 ∧
      t.tbm.fn = s.tbm.fn ∧ t.tbm.epoch = s.tbm.epoch ∧
      (s.tbm.counting = true → t.now = max s.now (s.tbm.tNext.toNat - 20000))) ∧
  (∀ s : State, s.tbm.running = true → s.tbm.cpPassed = false → s.saf.safe = false → s.player.nextDone = false → s.tbm.stopPending = false →
    ∃ t, exec .commitPoint s = .next t ∧ t.tbm.cpPassed = true ∧ t.saf.missedCommits = s.saf.missedCommits + 1 ∧
      t.player.missed = true ∧ t.player.fixedRecs = s.player.nextRecs ∧ t.tbm.fn = s.tbm.fn)

/-- FRAMES_STOP. When a stop is pending in running frames, FRAMES_STOP ends them: no frame runs, FN, the epoch and the
active profile hold their values, and the player no longer plays unless the safe state holds it. Behind it a queued
restart of a master fixes its first tick 1,000 ns after the end of the stopped frame. (02 R59) -/
def Obligations.StoppedFramesHoldFrameNumberEpochAndProfile : Prop :=
  (∀ s : State, s.tbm.running = true → s.tbm.stopPending = true → s.tbm.restartQueued = false →
    ∃ t, exec .framesStop s = .next t ∧ t.tbm.running = false ∧ t.tbm.stopPending = false ∧ t.tbm.startDue = s.tbm.startDue ∧
      t.tbm.fn = s.tbm.fn ∧ t.tbm.epoch = s.tbm.epoch ∧ t.tbm.active = s.tbm.active ∧
      (t.saf.safe = false → t.player.playing = false) ∧ t.pins = s.pins ∧ t.boot = s.boot) ∧
  (∀ s : State, s.tbm.running = true → s.tbm.stopPending = true → s.tbm.restartQueued = true → s.follower = false → s.regsWf →
    ∃ t, exec .framesStop s = .next t ∧ t.tbm.running = false ∧ t.tbm.startDue = true ∧ t.tbm.tNext = s.tbm.tNext + 1000 ∧
      t.tbm.fn = s.tbm.fn ∧ t.tbm.epoch = s.tbm.epoch ∧ t.tbm.active = s.tbm.active)

/-- SEGMENT_START and HOLD_RESUME. In running frames, when every segment before it in the frame's order has begun, a
segment that has not begun starts at its offset from the tick with slip 0 and held_ns 0, in RUN if the player plays,
the segment has a sheet and its partition is ACTIVE, else in IDLE; accumulator tiles 0-2 are IDLE, and tile 3 with
cadence OFF (R126), and the vector registers clear; the segments before it close. At a resume check of a hold whose
gate is not ready the next resume check is one cadence later; with the gate ready the hold ends, the slip grows by the
k cadences held and held_ns by the time held, and the segment runs on or sheds. (03 R95, 03 R96, 03 R97, 03 R105, 01
R18, 01 R19) -/
def Obligations.SegmentsStartAndHoldsResume : Prop :=
  (∀ (s : State) (o : Nat), s.regsWf → s.tbm.running = true → s.saf.safe = false → o ∈ s.segOrder → o < s.player.ctx.length →
    (s.ctx o).begun = false → (∀ q ∈ s.segOrder.takeWhile (fun q => q ≠ o), (s.ctx q).begun = true) →
    ∃ t, exec (.segmentStart o) s = .next t ∧ (t.ctx o).begun = true ∧ (t.ctx o).slip = 0 ∧ (t.ctx o).heldNs = 0 ∧
      (t.ctx o).startTb = s.tbm.tLast.toNat + s.segOffset o ∧ (t.ctx o).endTb = s.tbm.tLast.toNat + s.segEnd o ∧
      (t.ctx o).state = (if s.player.playing = true ∧ (s.playing o).isSome = true ∧ (o < 32 → (s.part o).state = .active)
        then PlayState.run else .idle) ∧
      (∀ i, i < 3 ∨ (i = 3 ∧ s.cadenceCycles = 0) → t.tile i = AccTile.init) ∧ t.vec = { s.vec with units := List.replicate 32 VUnit.init } ∧
      t = { s with tbm := t.tbm, player := t.player, grid := t.grid, vec := t.vec, regs := t.regs }) ∧
  (∀ (s : State) (o i start k : Nat) (tr : Track) (x : Sheet) (c : Cue), (s.ctx o).holdCue = some (tr, i, start, k) →
    s.playing o = some x → x.cue? tr i = some c → (s.ctx o).state = .hold → s.saf.safe = false → o < s.player.ctx.length →
    s.gateReady c.gate = false →
    ∃ t, exec (.holdResume o) s = .next t ∧ (t.ctx o) = { s.ctx o with holdCue := some (tr, i, start, k + 1) } ∧
      (∀ q, q ≠ o → t.ctx q = s.ctx q) ∧ t = { s with tbm := t.tbm, player := t.player }) ∧
  (∀ (s : State) (o i start k : Nat) (tr : Track) (x : Sheet) (c : Cue), (s.ctx o).holdCue = some (tr, i, start, k) →
    s.playing o = some x → x.cue? tr i = some c → (s.ctx o).state = .hold → s.saf.safe = false → o < s.player.ctx.length →
    s.gateReady c.gate = true →
    ∃ t, exec (.holdResume o) s = .next t ∧ (t.ctx o).holdCue = none ∧ (t.ctx o).slip = (s.ctx o).slip + k * max 1 s.cadenceCycles ∧
      (t.ctx o).heldNs = (s.ctx o).heldNs + (t.now - (s.ctx o).holdTb) ∧
      ((t.ctx o).state = .run ∨ (t.ctx o).state = .shed) ∧ t = { s with tbm := t.tbm, player := t.player, regs := t.regs })

/-- SHEET_LOAD, SHEET_LOAD_DONE, SET_SHEET_STORE and FALLBACK_DESIGNATE. With no load in progress SHEET_LOAD takes owner,
slot, host address and length from its operands and registers. A load that may proceed ends with the code of the first
failing check; code 0 puts the sheet that the image spells into its slot and ends the slot's fence, and any other code
leaves the store as it was; a failed host read ends it with HOST_READ. SET_SHEET_STORE takes a size of 16 to 1,023 MiB
while the player is disabled, and FALLBACK_DESIGNATE a valid word for an owner outside the frame. Nothing else
changes. (03 R84, 03 R85, 03 R78, 03 R109) -/
def Obligations.SheetsAreLoadedCheckedAndDesignated : Prop :=
  (∀ (s : State) (o k : Nat), s.regsWf → s.player.load = none → o < 64 → k < 64 →
    ∃ t, exec (.sheetLoad o k) s = .next t ∧
      t.player = { s.player with load := some ⟨o, k, s.reg64 Reg.shtLoadAddrLo Reg.shtLoadAddrHi, (s.reg Reg.shtLoadLen).toNat⟩ } ∧
      s.regsBut t [Reg.shtLoadCtrl] ∧ t = { s with player := t.player, regs := t.regs }) ∧
  (∀ (s : State) (l : SheetLoad) (img : Blob), s.player.load = some l → s.hostBulk = true → s.checkSheet l (slice img 0 l.len) = 0 →
    Sparse.wf (fun _ => (none : Option Sheet)) s.player.store = true →
    ∃ t, exec (.sheetLoadDone (some img)) s = .next t ∧ t.player.load = none ∧ t.player.loadCode = 0 ∧
      t.sheet l.owner l.slot = some (parseSheet (slice img 0 l.len) l.len) ∧ l.owner * 64 + l.slot ∉ t.player.grey ∧
      t = { s with player := { s.player with load := none, loadCode := 0, store := t.player.store, grey := t.player.grey } }) ∧
  (∀ (s : State) (l : SheetLoad) (img : Blob) (c : Nat), s.player.load = some l → s.hostBulk = true → c ≠ 0 →
    s.checkSheet l (slice img 0 l.len) = c →
    exec (.sheetLoadDone (some img)) s = .next { s with player := { s.player with load := none, loadCode := c } }) ∧
  (∀ (s : State) (l : SheetLoad), s.player.load = some l → s.hostBulk = true →
    exec (.sheetLoadDone none) s = .next { s with player := { s.player with load := none, loadCode := 0x0E } }) ∧
  (∀ (s : State) (m : Nat), s.regsWf → s.locked .sht = false → s.regBit Reg.shtCtrl 0 = false → 16 ≤ m → m ≤ 1023 →
    ∃ t, exec (.setSheetStore m) s = .next t ∧ t.regFld Reg.shtStore 0 10 = m ∧ s.regsBut t [Reg.shtStore] ∧
      t = { s with regs := t.regs }) ∧
  (∀ (s : State) (o : Nat) (v : Word), s.regsWf → o ≤ 32 → (o = 32 → s.locked .sht = false) → o ∉ s.frameParts →
    s.fallbacksOk o v = true →
    ∃ t, exec (.fallbackDesignate o v) s = .next t ∧
      t.reg (if o = 32 then Reg.shtHouseFb else Reg.shtFb + 4 * o) = (v &&& 0xBF3F3F3F) ∧
      s.regsBut t [if o = 32 then Reg.shtHouseFb else Reg.shtFb + 4 * o] ∧ t = { s with regs := t.regs })

/-- PLAYER_ENABLE and PLAYER_DISABLE. With SHT_LOCK clear and the player disabled, PLAYER_ENABLE without start_at_fn sets
SHT_CTRL.en and makes a start pending for the next tick if the house has a loaded house sheet and a designated house
fallback of the active profile; without such a fallback it is ignored and sets SHT_STATUS.cfg_err. PLAYER_DISABLE
clears en and a pending start while no partition is in the frame, and is ignored with cfg_err otherwise. (03 R109, 01
R26, 01 R27) -/
def Obligations.ThePlayerIsEnabledAndDisabled : Prop :=
  (∀ (s : State) (e : Nat × Option Sheet) (x : Sheet), s.regsWf → s.locked .sht = false → s.regBit Reg.shtCtrl 0 = false →
    e ∈ s.player.store → 2048 ≤ e.1 → e.2 = some x → x.kind = 2 → x.profile.toNat = s.tbm.active.toNat →
    s.hasFallback 32 s.tbm.active.toNat = true →
    ∃ t, exec (.playerEnable false) s = .next t ∧ t.regBit Reg.shtCtrl 0 = true ∧ t.regBit Reg.shtCtrl 1 = false ∧
      s.regsBut t [Reg.shtCtrl] ∧ t = { s with regs := t.regs, player := { s.player with startAt := some none } }) ∧
  (∀ (s : State) (b : Bool), s.regsWf → s.locked .sht = false → s.regBit Reg.shtCtrl 0 = false →
    s.hasFallback 32 s.tbm.active.toNat = false →
    ∃ t, exec (.playerEnable b) s = .next t ∧ t.regBit Reg.shtStatus 6 = true ∧ s.regsBut t [Reg.shtStatus] ∧
      t = { s with regs := t.regs }) ∧
  (∀ s : State, s.regsWf → s.locked .sht = false → s.anyActive = false →
    ∃ t, exec .playerDisable s = .next t ∧ t.regBit Reg.shtCtrl 0 = false ∧ s.regsBut t [Reg.shtCtrl] ∧
      t = { s with regs := t.regs, player := { s.player with startAt := none } }) ∧
  (∀ s : State, s.regsWf → s.locked .sht = false → s.anyActive = true →
    ∃ t, exec .playerDisable s = .next t ∧ t.regBit Reg.shtStatus 6 = true ∧ s.regsBut t [Reg.shtStatus] ∧ t = { s with regs := t.regs })

/-- DIRECTOR_COMMIT, LONGER_PROFILE and POLICY_REVIEW. Outside the safe state, records of owners 0-32 whose flex variants
are those of R329 and whose house records name a used and valid profile replace those for the next frame, or after the
commit point those for the frame after it; a commit that breaks R329 has no effect (the model's choice, log entry 55).
With three overrun frames in a row on a running master, LONGER_PROFILE commits the next longer used profile where
every owner has its sheets for it, and remembers the one it left; otherwise it sets SHT_STATUS bit 5 and commits
nothing. In a frame with FN mod 1,024 = 0 that has not been reviewed, POLICY_REVIEW ends every retake hold, clears the
retake counts of every tint and restarts the count of overrun frames; after 1,024 frames without an overrun a master
returns to the profile it left. (01 R21, 02 R53, 03 R92, 03 R102, 11 R329, 11 R337) -/
def Obligations.TheDirectorsCommitsAndReviews : Prop :=
  (∀ (s : State) (recs : List (Nat × CommitRec)), s.saf.safe = false → (∀ r ∈ recs, r.1 ≤ 32) →
    (∀ r ∈ recs, s.flexOk s.commitsLate r.1 r.2 = true) → (∀ r ∈ recs, r.1 = 32 → s.profileOk r.2.profile = true) → s.commitsLate = false →
    ∃ t, exec (.directorCommit recs) s = .next t ∧ t.player = { s.player with nextRecs := recs, nextDone := true } ∧
      t.tbm.pending = (t.committedProfiles.any fun p => decide (p ≠ s.tbm.active)) ∧
      t = { s with player := t.player, tbm := { s.tbm with pending := t.tbm.pending } }) ∧
  (∀ (s : State) (recs : List (Nat × CommitRec)), s.saf.safe = false → (∀ r ∈ recs, r.1 ≤ 32) →
    (∀ r ∈ recs, s.flexOk s.commitsLate r.1 r.2 = true) → (∀ r ∈ recs, r.1 = 32 → s.profileOk r.2.profile = true) → s.commitsLate = true →
    ∃ t, exec (.directorCommit recs) s = .next t ∧ t.player = { s.player with afterRecs := recs, afterDone := true } ∧
      t = { s with player := t.player, tbm := { s.tbm with pending := t.tbm.pending } }) ∧
  (∀ (s : State) (recs : List (Nat × CommitRec)) (r : Nat × CommitRec), r ∈ recs → r.1 ≤ 32 → s.flexOk s.commitsLate r.1 r.2 = false →
    exec (.directorCommit recs) s = .next s) ∧
  (∀ (s : State) (p : Nat), 3 ≤ s.player.ovrConsec → s.follower = false → s.saf.safe = false → s.tbm.running = true →
    s.nextLonger = some p → s.sheetsFor p = true → s.profileOk (BitVec.ofNat 2 p) = true → s.commitsLate = false →
    ∃ t, exec .longerProfile s = .next t ∧ t.player.cameFrom = some s.tbm.active ∧ t.player.nextDone = true ∧
      (∀ r : CommitRec, (32, r) ∈ t.player.nextRecs → r.profile = BitVec.ofNat 2 p) ∧ (∃ r : CommitRec, (32, r) ∈ t.player.nextRecs) ∧
      t = { s with player := { s.player with cameFrom := some s.tbm.active, nextDone := true, nextRecs := t.player.nextRecs },
                   tbm := { s.tbm with pending := t.tbm.pending } }) ∧
  (∀ s : State, s.regsWf → 3 ≤ s.player.ovrConsec → s.follower = false → s.saf.safe = false → s.tbm.running = true →
    (s.nextLonger = none ∨ ∃ p, s.nextLonger = some p ∧ (s.sheetsFor p = false ∨ s.profileOk (BitVec.ofNat 2 p) = false)) →
    ∃ t, exec .longerProfile s = .next t ∧ t.regBit Reg.shtStatus 5 = true ∧ t = { s with regs := t.regs, clog := t.clog }) ∧
  (∀ s : State, Sparse.wf (fun _ => Tint.init) s.tints = true → s.tbm.running = true → s.fnNat % 1024 = 0 → s.player.reviewFn ≠ some s.tbm.fn → s.saf.safe = false →
    (s.player.cameFrom = none ∨ s.player.ovrReview ≠ 0) →
    ∃ t, exec .policyReview s = .next t ∧
      (∀ k, t.tintOf k = { s.tintOf k with train := { (s.tintOf k).train with hold := none, retakes := [] } }) ∧
      t = { s with tints := t.tints, player := { s.player with ovrReview := 0, reviewFn := some s.tbm.fn } }) ∧
  (∀ (s : State) (p : BitVec 2), Sparse.wf (fun _ => Tint.init) s.tints = true → s.tbm.running = true → s.fnNat % 1024 = 0 → s.player.reviewFn ≠ some s.tbm.fn → s.saf.safe = false →
    s.player.cameFrom = some p → s.player.ovrReview = 0 → s.follower = false → s.profileOk p = true → s.sheetsFor p.toNat = true →
    s.commitsLate = false →
    ∃ t, exec .policyReview s = .next t ∧ t.player.cameFrom = none ∧ t.player.nextDone = true ∧
      (∀ r : CommitRec, (32, r) ∈ t.player.nextRecs → r.profile = p) ∧ (∃ r : CommitRec, (32, r) ∈ t.player.nextRecs) ∧
      (∀ k, t.tintOf k = { s.tintOf k with train := { (s.tintOf k).train with hold := none, retakes := [] } }))

/-- The 64-bit instruction words of the vector units. For every opcode and every value of the six operand fields, the word
of Table 7.3 reads back as that opcode and those fields; every word is the word of what it reads as; and the bytes of
a list of words, eight a word and the least significant first, are read into exactly those instructions by a program
load. (07 R193 Table 7.3, 07 R207) -/
def Obligations.VectorWordsEncodeAndDecodeEveryInstruction : Prop :=
  (∀ (op : Nat) (f : VFields), op < 256 → vop (vword op f) = op ∧ vfields (vword op f) = f) ∧
  (∀ w : VWord, vword (vop w) (vfields w) = w) ∧
  (∀ ws : List VWord, parseProgram (ws.flatMap fun w => leBytes 8 w.toNat) ws.length = ws)

/-- SLI, SLH, SADD, SSUB, SMUL, SAND, SOR, SXOR, SSHL, SSHR and SADDI. Where it may issue outside the safe state and its
result meets none that is due, each scalar instruction has one result, visible in S[d] one cycle later, and raises
nothing; apart from results already due that land and TB at its cycle, nothing but the unit's place in its program
changes. (07 R191, 07 R193, 07 R195 Table 7.2) -/
def Obligations.ScalarInstructionsComputeModulo2To32 : Prop :=
  ∀ (u : Nat) (f : VFields),
    vIssues (.vSli u f) u 0x08 1 f (fun _ => [.s f.d.toNat (f.imm.signExtend 32)]) (fun _ => 0) ∧
    vIssues (.vSlh u f) u 0x09 1 f (fun x => [.s f.d.toNat (f.imm.extractLsb' 0 16 ++ (x.sReg f.d.toNat).extractLsb' 0 16)]) (fun _ => 0) ∧
    vIssues (.vSadd u f) u 0x0A 1 f (fun x => [.s f.d.toNat (x.sReg f.a.toNat + x.sReg f.b.toNat)]) (fun _ => 0) ∧
    vIssues (.vSsub u f) u 0x0B 1 f (fun x => [.s f.d.toNat (x.sReg f.a.toNat - x.sReg f.b.toNat)]) (fun _ => 0) ∧
    vIssues (.vSmul u f) u 0x0C 1 f (fun x => [.s f.d.toNat (x.sReg f.a.toNat * x.sReg f.b.toNat)]) (fun _ => 0) ∧
    vIssues (.vSand u f) u 0x0D 1 f (fun x => [.s f.d.toNat (x.sReg f.a.toNat &&& x.sReg f.b.toNat)]) (fun _ => 0) ∧
    vIssues (.vSor u f) u 0x0E 1 f (fun x => [.s f.d.toNat (x.sReg f.a.toNat ||| x.sReg f.b.toNat)]) (fun _ => 0) ∧
    vIssues (.vSxor u f) u 0x0F 1 f (fun x => [.s f.d.toNat (x.sReg f.a.toNat ^^^ x.sReg f.b.toNat)]) (fun _ => 0) ∧
    vIssues (.vSshl u f) u 0x10 1 f (fun x => [.s f.d.toNat (x.sReg f.a.toNat <<< (f.imm.toNat % 32))]) (fun _ => 0) ∧
    vIssues (.vSshr u f) u 0x11 1 f (fun x => [.s f.d.toNat (x.sReg f.a.toNat >>> (f.imm.toNat % 32))]) (fun _ => 0) ∧
    vIssues (.vSaddi u f) u 0x12 1 f (fun x => [.s f.d.toNat (x.sReg f.a.toNat + f.imm.signExtend 32)]) (fun _ => 0)

/-- IADD, ISUB, IMUL, IMAX, IMIN, IAND, IOR, IXOR, ISHL, ISRA, ISHR and ICMP. Where it may issue, each instruction
computes the lanes whose guard bit is set, as 32-bit integers, and leaves the others as they are; the result is
visible in W[d] (ICMP: in P[d], under the mask of the guard) two cycles later and raises nothing. ICMP's condition is
that of Table 7.7 on signed order. (07 R191, 07 R193, 07 R195 Table 7.2, 07 R197, 07 R199, 06 R181) -/
def Obligations.IntegerLaneInstructionsComputeGuardedLanes : Prop :=
  ∀ (u : Nat) (f : VFields),
    let w (x : VUnit) (g : Word → Word → Word) : List VResult :=
      wResult f.d.toNat (x.guarded f fun l => g (x.wLane f.a.toNat l) (x.wLane f.b.toNat l))
    vIssues (.vIadd u f) u 0x18 2 f (fun x => w x fun a b => a + b) (fun _ => 0) ∧
    vIssues (.vIsub u f) u 0x19 2 f (fun x => w x fun a b => a - b) (fun _ => 0) ∧
    vIssues (.vImul u f) u 0x1A 2 f (fun x => w x fun a b => a * b) (fun _ => 0) ∧
    vIssues (.vImax u f) u 0x1B 2 f (fun x => w x fun a b => if a.toInt < b.toInt then b else a) (fun _ => 0) ∧
    vIssues (.vImin u f) u 0x1C 2 f (fun x => w x fun a b => if b.toInt < a.toInt then b else a) (fun _ => 0) ∧
    vIssues (.vIand u f) u 0x1D 2 f (fun x => w x fun a b => a &&& b) (fun _ => 0) ∧
    vIssues (.vIor u f) u 0x1E 2 f (fun x => w x fun a b => a ||| b) (fun _ => 0) ∧
    vIssues (.vIxor u f) u 0x1F 2 f (fun x => w x fun a b => a ^^^ b) (fun _ => 0) ∧
    vIssues (.vIshl u f) u 0x20 2 f (fun x => w x fun a _ => a <<< (f.imm.toNat % 32)) (fun _ => 0) ∧
    vIssues (.vIsra u f) u 0x21 2 f (fun x => w x fun a _ => a.sshiftRight (f.imm.toNat % 32)) (fun _ => 0) ∧
    vIssues (.vIshr u f) u 0x22 2 f (fun x => w x fun a _ => a >>> (f.imm.toNat % 32)) (fun _ => 0) ∧
    (f.imm.toNat < 6 → vIssues (.vIcmp u f) u 0x23 2 f (fun x => [.p f.d.toNat (x.pReg f.pg.toNat) (predOf fun l =>
      x.guard f l && (let a := (x.wLane f.a.toNat l).toInt; let b := (x.wLane f.b.toNat l).toInt
        match f.imm.toNat with
        | 0 => decide (a = b) | 1 => decide (a ≠ b) | 2 => decide (a < b)
        | 3 => decide (a ≤ b) | 4 => decide (b < a) | _ => decide (b ≤ a)))]) (fun _ => 0))

/-- FADD to FRSQ: the binary32 instructions. Where it may issue, each binary32 instruction has for each guarded lane the
result and the nibble bits of its function of Table 7.6, with its latency of Table 7.2; FTSUM writes sum and error to
W[d] and W[d+1], FCMP the predicate. FABS and FNEG act on the sign bit of every code. (07 R191, 07 R193, 07 R195 Table
7.2, 07 R196 Table 7.6, 07 R197, 07 R199, 06 R181) -/
def Obligations.FloatLaneInstructionsComputeGuardedLanes : Prop :=
  ∀ (u : Nat) (f : VFields),
    let r2 (c : Instr) (op lat : Nat) (g : Word → Word → FRes) : Prop :=
      vIssues c u op lat f (fun x => wResult f.d.toNat (x.guarded f fun l => (g (x.wLane f.a.toNat l) (x.wLane f.b.toNat l)).1))
        (fun x => x.raised f fun l => (g (x.wLane f.a.toNat l) (x.wLane f.b.toNat l)).2)
    let r1 (c : Instr) (op lat : Nat) (g : Word → FRes) : Prop := r2 c op lat fun a _ => g a
    r2 (.vFadd u f) 0x28 4 fadd ∧ r2 (.vFsub u f) 0x29 4 fsub ∧ r2 (.vFmul u f) 0x2A 4 fmul ∧
    r2 (.vFmax u f) 0x2C 2 fmaxR ∧ r2 (.vFmin u f) 0x2D 2 fminR ∧
    r1 (.vFabs u f) 0x2E 2 (fun a => (0#1 ++ a.extractLsb' 0 31, 0)) ∧
    r1 (.vFneg u f) 0x2F 2 (fun a => (~~~(a.extractLsb' 31 1) ++ a.extractLsb' 0 31, 0)) ∧
    r1 (.vFexp2 u f) 0x32 12 fexp2 ∧ r1 (.vFlog2 u f) 0x33 12 flog2 ∧ r1 (.vFrcp u f) 0x34 12 frcp ∧
    r1 (.vFsqrt u f) 0x35 12 fsqrtR ∧ r1 (.vFrsq u f) 0x36 12 frsq ∧
    vIssues (.vFfma u f) u 0x2B 4 f
      (fun x => wResult f.d.toNat (x.guarded f fun l => (ffma (x.wLane f.a.toNat l) (x.wLane f.b.toNat l) (x.wLane f.c.toNat l)).1))
      (fun x => x.raised f fun l => (ffma (x.wLane f.a.toNat l) (x.wLane f.b.toNat l) (x.wLane f.c.toNat l)).2) ∧
    vIssues (.vFtsum u f) u 0x30 4 f
      (fun x => wResult f.d.toNat (x.guarded f fun l => (ftsum (x.wLane f.a.toNat l) (x.wLane f.b.toNat l)).1) ++
        wResult (f.d.toNat + 1) (x.guarded f fun l => (ftsum (x.wLane f.a.toNat l) (x.wLane f.b.toNat l)).2.1))
      (fun x => x.raised f fun l => (ftsum (x.wLane f.a.toNat l) (x.wLane f.b.toNat l)).2.2) ∧
    vIssues (.vFcmp u f) u 0x31 2 f
      (fun x => [.p f.d.toNat (x.pReg f.pg.toNat) (predOf fun l =>
        x.guard f l && (fcond (f.imm.toNat % 8) (x.wLane f.a.toNat l) (x.wLane f.b.toNat l)).1)])
      (fun x => x.raised f fun l => (fcond (f.imm.toNat % 8) (x.wLane f.a.toNat l) (x.wLane f.b.toNat l)).2)

/-- NOP, SEL, BCAST, LIDX, ROT, VMOV, WEXT, PAND, POR, PNOT and PFIRST. Where it may issue, each instruction has the
result that Table 7.2 names, two cycles later, for the guarded lanes, and raises nothing; NOP has no result. P0 reads
as all ones. (07 R188, 07 R189, 07 R190, 07 R193, 07 R195 Table 7.2) -/
def Obligations.MovesAndPredicatesComputeTheirRegisters : Prop :=
  ∀ (u : Nat) (f : VFields),
    let w (x : VUnit) (g : Nat → Word) : List VResult := wResult f.d.toNat (x.guarded f g)
    let p (x : VUnit) (g : Nat → Bool) : List VResult := [.p f.d.toNat (x.pReg f.pg.toNat) (predOf fun l => x.guard f l && g l)]
    vIssues (.vNop u f) u 0x00 1 f (fun _ => []) (fun _ => 0) ∧
    vIssues (.vSel u f) u 0x38 2 f (fun x => w x fun l =>
      if (x.pReg f.c.toNat).getLsbD l = true then x.wLane f.a.toNat l else x.wLane f.b.toNat l) (fun _ => 0) ∧
    vIssues (.vBcast u f) u 0x39 2 f (fun x => w x fun _ => x.sReg f.a.toNat) (fun _ => 0) ∧
    vIssues (.vLidx u f) u 0x3A 2 f (fun x => w x fun l => BitVec.ofNat 32 l) (fun _ => 0) ∧
    vIssues (.vRot u f) u 0x3B 2 f (fun x => w x fun l => x.wLane f.a.toNat ((l + f.imm.toNat % 128) % 128)) (fun _ => 0) ∧
    vIssues (.vVmov u f) u 0x3C 2 f (fun x => [.v f.d.toNat (x.guarded f fun l => x.vLane f.a.toNat l)]) (fun _ => 0) ∧
    vIssues (.vWext u f) u 0x3D 2 f (fun x => [.s f.d.toNat (x.wLane f.a.toNat (f.imm.toNat % 128))]) (fun _ => 0) ∧
    vIssues (.vPand u f) u 0x40 2 f (fun x => p x fun l => (x.pReg f.a.toNat &&& x.pReg f.b.toNat).getLsbD l) (fun _ => 0) ∧
    vIssues (.vPor u f) u 0x41 2 f (fun x => p x fun l => (x.pReg f.a.toNat ||| x.pReg f.b.toNat).getLsbD l) (fun _ => 0) ∧
    vIssues (.vPnot u f) u 0x42 2 f (fun x => p x fun l => !(x.pReg f.a.toNat).getLsbD l) (fun _ => 0) ∧
    vIssues (.vPfirst u f) u 0x43 2 f (fun x => p x fun l => decide (l < f.imm.toNat % 256)) (fun _ => 0)

/-- REDADD, REDMAX, REDMIN, IREDADD, CVTN, CVTW, ITOF and FTOI. Where it may issue, a reduction folds the lanes of W[a]
pairwise over seven levels, a lane without its guard bit counting as the identity, and has the result in every lane of
W[d] 16 cycles later; ITOF rounds each guarded int32 to nearest even; CVTN, CVTW and FTOI have the results of R200 and
R201, and CVTN and FTOI draw and meter as their immediate asks. The values of LUT4 codes, which no rule gives, are
free (log entry 3). (07 R198, 07 R200, 07 R201, 07 R195 Table 7.2, 06 R167) -/
def Obligations.ReductionsAndConversionsHaveTheirResults : Prop :=
  ∀ (u : Nat) (f : VFields),
    let ins (x : VUnit) (z : Word) : List Word := (List.range 128).map fun l => if x.guard f l = true then x.wLane f.a.toNat l else z
    let all (w : Word) : List VResult := wResult f.d.toNat (List.replicate 128 (some w))
    vIssues (.vIredadd u f) u 0x4B 16 f (fun x => all ((ins x 0).foldl (fun a b => a + b) 0)) (fun _ => 0) ∧
    (∀ (c : Instr) (op : Nat) (z : Word) (g : Word → Word → FRes),
      (c, op, z, g) = (.vRedadd u f, 0x48, 0x80000000#32, fadd) ∨ (c, op, z, g) = (.vRedmax u f, 0x49, 0xFF800000#32, fmaxR) ∨
        (c, op, z, g) = (.vRedmin u f, 0x4A, 0x7F800000#32, fminR) →
      vIssues c u op 16 f (fun x => all (redTree g 7 (ins x z)).1)
        (fun x => ((redTree g 7 (ins x z)).2 &&& ~~~Nib.nanIn) ||| (if (ins x z).any fun w => f32v w = .nan then Nib.nanIn else 0))) ∧
    vIssues (.vItof u f) u 0x52 6 f
      (fun x => wResult f.d.toNat (x.guarded f fun l => toF32 (.ofInt (x.wLane f.a.toNat l).toInt))) (fun _ => 0) ∧
    vIssuesBy (.vCvtn u f) u 0x50 8 f (semCvtn u f) ∧ vIssuesBy (.vCvtw u f) u 0x51 6 f (semCvtw f) ∧
    vIssuesBy (.vFtoi u f) u 0x53 6 f (semFtoi u f)

/-- SLD, SST, TLD, TST, TFIN, RNG and KSEED. Where it may issue and its accesses are allowed, SLD has the four bytes at
S[a] x 64 + imm in S[d], and SST those of S[d] at that place of tier F, 32 cycles later; TLD, TST and TFIN have the
results of R203 and R204, TST's tag line being free bytes (log entry 3); RNG draws one number for each lane, and KSEED
seeds the 128 keyed streams. An access that is not allowed fences the sheet of the cue. (07 R202, 07 R203, 07 R204, 07
R205, 07 R191) -/
def Obligations.MemoryInstructionsReachTierFUnderTheAccessRules : Prop :=
  ∀ (u : Nat) (f : VFields),
    (∀ s : State, s.mayIssue u 0x13 f = true → s.saf.safe = false →
      let x := (s.atIssue u).unit u
      let p := ((s.atIssue u).unitPlace x (x.sReg f.a.toNat).toNat).plus f.imm.toNat
      let t := (s.atIssue u).unitRead x (p.run 4)
      let res := [VResult.s f.d.toNat (BitVec.ofNat 32 (leNat ((s.atIssue u).unitBytes x p 4)))]
      (s.atIssue u).accessOk x.owner false p 4 = true → (t.unit u).cycle = (s.unit u).cycle → (t.unit u).prog ≠ none →
      (t.unit u).free 32 res → exec (.vSld u f) s = .next (t.issued u 32 res 0)) ∧
    (∀ s : State, s.mayIssue u 0x14 f = true → s.saf.safe = false →
      let x := (s.atIssue u).unit u
      let p := ((s.atIssue u).unitPlace x (x.sReg f.a.toNat).toNat).plus f.imm.toNat
      (s.atIssue u).accessOk x.owner true p 4 = true → x.cycle = (s.unit u).cycle → x.prog ≠ none →
      exec (.vSst u f) s = .next ((s.atIssue u).issued u 32 (memResult p (leBytes 4 (x.sReg f.d.toNat).toNat)) 0)) ∧
    (∀ s : State, s.mayIssue u 0x13 f = true → s.saf.safe = false →
      let x := (s.atIssue u).unit u
      let p := ((s.atIssue u).unitPlace x (x.sReg f.a.toNat).toNat).plus f.imm.toNat
      (s.atIssue u).accessOk x.owner false p 4 = false → (s.atIssue u).clashAt (s.unit u).owner u (vword 0x13 f) = false →
      (∀ k, x.prog = some k → k < 64) →
      exec (.vSld u f) s = .next (((s.atIssue u).raise Reg.vecStatus 3).fenceSheet x.owner 4)) ∧
    vIssuesBy (.vTld u f) u 0x58 32 f (semTld f) ∧ vIssuesBy (.vTst u f) u 0x59 32 f (semTst f) ∧
    vIssuesBy (.vTfin u f) u 0x5A 32 f (semTfin u f) ∧ vIssuesBy (.vRng u f) u 0x60 2 f (semRng u f) ∧
    vIssues (.vKseed u f) u 0x61 8 f (fun x => [.k ((List.range 128).map fun l =>
      seedLane (x.sReg (f.a.toNat + 1) ++ x.sReg f.a.toNat) (x.sReg f.b.toNat + BitVec.ofNat 32 l).toNat)]) (fun _ => 0)

/-- LOOP and END. Where it may issue, LOOP takes one cycle and opens a loop whose body is the next len instructions, to be
passed count times; with an empty body it goes on to the next instruction (the model's reading, log entry 57). END
ends the program on the unit, and results already issued stay due. (07 R191, 07 R192) -/
def Obligations.ProgramsLoopAndEnd : Prop :=
  (∀ (u : Nat) (f : VFields) (s : State), s.mayIssue u 0x02 f = true → s.saf.safe = false →
    let x := (s.atIssue u).unit u
    x.prog ≠ none →
    (f.imm.toNat / 65536 % 4096 ≠ 0 → exec (.vLoop u f) s = .next ((s.atIssue u).setUnit u { x with pc := x.pc + 1, cycle := x.cycle + 1, loops := (x.pc + 1, x.pc + 1 + f.imm.toNat / 65536 % 4096, f.imm.toNat % 65536 - 1) :: x.loops })) ∧
    (f.imm.toNat / 65536 % 4096 = 0 → exec (.vLoop u f) s = .next ((s.atIssue u).setUnit u x.next))) ∧
  (∀ (u : Nat) (f : VFields) (s : State), s.mayIssue u 0x01 f = true → s.saf.safe = false →
    ∃ t, exec (.vEnd u f) s = .next t ∧ (t.unit u).prog = none ∧ (t.unit u).loops = [] ∧
      (t.unit u).due = ((s.atIssue u).unit u).due ∧ (t.unit u).cue = ((s.atIssue u).unit u).cue ∧
      (∀ v, v ≠ u → t.unit v = (s.atIssue u).unit v) ∧ t = { s.atIssue u with vec := t.vec })

/-- MMA: a matrix shot on a free tile. Where a matrix cue may start, its accesses are allowed, its tile does not collide,
and its reads leave its segment unfenced, MMA puts the tile into ACC with the operation's tag and the shot. Every one
of the 64 x 64 accumulators of each output tile then holds the fold of the exact products in ascending k from its
start value, rows beyond m and columns beyond n having zero operands: the start value is the accumulator as it stood,
or at the operation's first shot zero (int32), the bias, or minus zero. Nothing but the grid changes after the reads.
(04 R116, 04 R121, 04 R127, 04 R128, 04 R129, 03 R105, 09 R260, 09 R261) -/
def Obligations.MatrixShotsAccumulateInAscendingOrder : Prop :=
  ∀ (s : State) (o i start : Nat) (x : Sheet) (c : Cue), s.mayStart o .a i x c (fun d => d.f 0 1 = 0 && d.op = 1) start →
    let s' := s.started o .a i c start
    let d := x.shot c
    let b := s'.cueBinding o c
    let cyc := ((s'.ctx o).startOf .a i).getD 0
    let runs := (s'.shotAccesses d b).flatMap fun e => if e.2.2 = true then [] else e.1.run e.2.1
    let r := (s'.usePort (mkUse Rq.grid o false runs (s'.cycleT o cyc) (s'.cycleT o (cyc + d.kCycles)))).shotRead o c runs
    (∀ e ∈ s'.shotAccesses d b, s'.accessOk o e.2.2 e.1 e.2.1 = true) →
    (s'.tile d.tile).collides d cyc = false → (r.ctx o).state ≠ .void →
    d.tilesM * d.tilesN ≤ 640 → r.grid.tiles.length = 4 → Sparse.wf (fun _ => (0 : Word)) r.grid.acc = true →
    ∃ t, exec (.mma o i) s = .next t ∧
      (t.tile d.tile).state = .acc ∧ (t.tile d.tile).op = d.opTag ∧ (t.tile d.tile).shot = some (o, i) ∧
      (∀ m n, m < 64 * d.tilesM → n < 64 * d.tilesN →
        t.accAt d.tile (accKey (d.quad (m / 64) (n / 64)) (m % 64) (n % 64)) =
          ((List.range d.kLen).foldl (fun (acc : Word) k =>
            let xa : Val := if m < d.rowsM then r.elem (r.operandsOf d b).1 m k else .fin false 0 0
            let xb : Val := if n < d.colsN then r.elem (r.operandsOf d b).2 n k else .fin false 0 0
            (if d.isInt then accStepInt d.accWrap acc xa xb else accStep acc xa xb).1)
          (if d.first = false then r.accAt d.tile (accKey (d.quad (m / 64) (n / 64)) (m % 64) (n % 64))
           else if d.isInt then 0
           else if d.initBias = true ∧ n < d.colsN then
             toF32 (f32v (widenBf16 (leAt (r.readAt (r.resolve b d.biasRef) (2 * d.colsN)) (2 * n) 2)))
           else 0x80000000))) ∧
      t = { r with grid := t.grid }

/-- SHOT_END and DRAIN_END. When the last shot of an operation ends on its tile in ACC, SHOT_END puts the tile into DRAIN
and appends one drain with the tile's accumulators and nibbles to the drains in progress; its end is due 88 cycles
later. DRAIN_END ends the oldest drain of a tile, at the cycle at which it is due where its segment still runs: it is
no longer in progress, and a tile in DRAIN that no other drain has is IDLE. Where no access is under way at its port
and no bay awaits its retake, nothing changes but tier F, the grid, the lanes, the dailies, the registers, the flags
of bays and the rows of the insert lane. Where a vector unit's store reaches a word of the drain in its cycle,
DRAIN_END sets BNK_STATUS.wcol. (04 R124, 04 R130, 04 R133, 04 R135, 04 R136, 09 R262) -/
def Obligations.DrainsFollowTheLastShot : Prop :=
  (∀ (s : State) (o i : Nat) (x : Sheet) (c : Cue), s.playing o = some x → x.cue? .a i = some c →
    (s.tile (x.shot c).tile).state = .acc → (s.tile (x.shot c).tile).shot = some (o, i) → (x.shot c).last = true →
    s.grid.tiles.length = 4 →
    ∃ (t : State) (dr : Drain), exec (.shotEnd o i) s = .next t ∧ (t.tile (x.shot c).tile).state = .drain ∧
      t.grid.drains = s.grid.drains ++ [dr] ∧ dr.tile = (x.shot c).tile ∧ dr.shot = x.shot c ∧ dr.seg = o ∧
      dr.nibbles = (s.tile (x.shot c).tile).nibbles ∧ dr.endCyc = ((s.ctx o).startOf .a i).getD 0 + (x.shot c).kCycles + 88 ∧
      (∀ k v, (k, v) ∈ dr.acc ↔ (k * 4 + (x.shot c).tile, v) ∈ s.grid.acc) ∧
      t = { s with tbm := t.tbm, grid := { s.grid with tiles := t.grid.tiles, drains := t.grid.drains } }) ∧
  (∀ (s : State) (n : Nat) (ds : List Nat) (dr : Drain), s.grid.drains.find? (fun d => d.tile = n) = some dr →
    n < s.grid.tiles.length → (s.tile n).state = .drain → (∀ d ∈ s.grid.drains.erase dr, d.tile ≠ n) →
    (s.toDrainEnd dr).drainHits dr = [] → s.ports = [] → s.player.jobs = [] →
    ∃ t, exec (.drainEnd n ds) s = .next t ∧ t.grid.drains = s.grid.drains.erase dr ∧ (t.tile n).state = .idle ∧
      ((s.ctx dr.seg).begun = true → (s.ctx dr.seg).startTb = dr.startTb → s.tbm.counting = true → s.cycleTb dr.seg dr.endCyc < 2 ^ 64 →
        t.now = max s.now (s.cycleTb dr.seg dr.endCyc)) ∧
      t = { s with tbm := t.tbm, tiers := { s.tiers with f := t.tiers.f, fErr := t.tiers.fErr }, grid := t.grid, lanes := t.lanes,
                   tally := t.tally, regs := t.regs, ports := t.ports, ins := { s.ins with row := t.ins.row },
                   player := { s.player with ctx := t.player.ctx } }) ∧
  (∀ (s : State) (n : Nat) (ds : List Nat) (dr : Drain), s.grid.drains.find? (fun d => d.tile = n) = some dr → s.regsWf →
    (s.toDrainEnd dr).drainHits dr ≠ [] →
    ∃ t, exec (.drainEnd n ds) s = .next t ∧ t.regBit Reg.bnkStatus 2 = true)

/-- RUN, KAT and METER_SHOT. Where a V-track cue may start: RUN starts its program on every named unit that is not grey,
at the cue's cycle, at the first instruction, with S0-S7 holding the descriptor's arguments; KAT, while kat_en is 1
and the frame's target unit is not grey, starts the part on that unit and counts it; METER_SHOT runs the owner's METER
descriptors that wait, are eligible and have blocks left, in order of observation, within the cue's pairs (cut down by
its grey units: the model's choice, log entry 50), and does nothing where every unit that it names is grey. Units not
named keep their state. (07 R211, 07 R213, 07 R216, 07 R219, 07 Table 7.10) -/
def Obligations.VectorCuesStartTheirUnits : Prop :=
  (∀ (s : State) (o i start : Nat) (x : Sheet) (c : Cue), s.mayStart o .v i x c (fun d => d.f 0 1 = 1 && d.op = 1) start →
    s.vec.units.length = 32 →
    let s' := s.started o .v i c start
    ∃ t, exec (.run o i) s = .next t ∧
      (∀ u, u ∈ (x.shot c).unitList → s'.unitGrey u = false →
        (t.unit u).prog = some (x.shot c).prog ∧ (t.unit u).pc = 0 ∧ (t.unit u).nibble = 0 ∧ (t.unit u).cue = some (o, i) ∧
        (t.unit u).loops = [] ∧ (t.unit u).owner = o ∧ (t.unit u).cycle = start ∧
        (Sparse.wf (fun _ => (0 : Word)) (s'.unit u).s = true →
          ∀ k, k < 8 → (t.unit u).sReg k = BitVec.ofNat 32 ((x.shot c).arg k))) ∧
      (∀ u, u ∉ (x.shot c).unitList ∨ s'.unitGrey u = true → t.unit u = s'.unit u) ∧
      t = { s' with vec := t.vec }) ∧
  (∀ (s : State) (o i start : Nat) (x : Sheet) (c : Cue), s.mayStart o .v i x c (fun d => d.f 0 1 = 1 && d.op = 2) start →
    s.vec.units.length = 32 →
    let s' := s.started o .v i c start
    s'.regBit Reg.vecCtrl 0 = true → s'.unitGrey (s.fnNat % 32) = false →
    ∃ t, exec (.kat o i) s = .next t ∧ (t.unit (s.fnNat % 32)).prog = some (64 + (x.shot c).katPart) ∧
      (t.unit (s.fnNat % 32)).pc = 0 ∧ (t.unit (s.fnNat % 32)).cycle = start ∧ t.vec.katParts = s.vec.katParts + 1 ∧
      (∀ u, u ≠ s.fnNat % 32 → t.unit u = s'.unit u) ∧ t = { s' with vec := t.vec }) ∧
  (∀ (s : State) (o i start : Nat) (x : Sheet) (c : Cue), s.mayStart o .v i x c (fun d => d.f 0 1 = 1 && d.op = 3) start →
    let s' := s.started o .v i c start
    let es := s'.items.filter fun e => e.1.set = o && e.2.op = 0x21 && e.2.phase = .waiting && e.2.done.isNone && e.2.ready s'.tbm.fn &&
      decide (((s'.vec.meters.find? fun m => m.1 = e.1).map fun m => m.2.1).getD 0 < e.2.meterBlocks)
    let us := (x.shot c).unitList
    let cap := (x.shot c).pairs * (us.filter fun u => !s'.unitGrey u).length / max 1 us.length
    (cap = 0 → exec (.meterShot o i) s = .next s') ∧
    (cap ≠ 0 → exec (.meterShot o i) s =
      .next (s'.meterItems (s'.cycleT o start) (s'.cycleT o (start + c.dur)) cap (sortBy itemRank es))))

/-- KAT_VERDICT, VECTOR_FENCE_REQ and KAT_DISABLE. After part 11 the right signature records a pass of the frame's target
unit in VEC_KAT_PASSu; any other verdict of a part that has run records the unit, the part and the frame, sets
VEC_STATUS bit 0, stages a record and lets the unit turn grey at the next tick; where SAF_PROMOTE makes the class
dangerous the safe state follows. VECTOR_FENCE_REQ lets a unit that is not grey turn grey at the next tick.
KAT_DISABLE clears kat_en and stages a record while no partition is in the frame. (07 R216, 07 R217, 07 R218, 07 R221,
17 R478) -/
def Obligations.TheBuiltInTestPassesOrFencesItsUnit : Prop :=
  (∀ (s : State), s.vec.katResult = 2 → 11 < s.vec.katParts → (s.ctx 32).state ≠ .void → s.saf.safe = false →
    exec (.katVerdict Config.katSignature 11) s =
      .next { s with vec := { s.vec with katResult := 0, katPass := s.vec.katPass.set (s.fnNat % 32) (some s.tbm.fn) } }) ∧
  (∀ (s : State) (g : Digest) (p : Nat), s.regsWf → s.vec.katResult = 2 → p < s.vec.katParts → p ≤ 11 → (s.ctx 32).state ≠ .void →
    s.saf.safe = false → (p ≠ 11 ∨ g ≠ Config.katSignature) → s.promoted 0x02 = false →
    ∃ t, exec (.katVerdict g p) s = .next t ∧
      t.vec = { s.vec with katResult := 1, katUnit := s.fnNat % 32, katPart := p, katFn := s.tbm.fn,
                           greyNext := if s.vec.greyNext.contains (s.fnNat % 32) = true then s.vec.greyNext else s.vec.greyNext ++ [s.fnNat % 32] } ∧
      t.regBit Reg.vecStatus 0 = true ∧ s.regsBut t [Reg.vecStatus, Reg.clgStatus] ∧
      t = { s with vec := t.vec, regs := t.regs, clog := t.clog }) ∧
  (∀ (s : State) (g : Digest) (p : Nat), s.vec.katResult = 2 → p < s.vec.katParts → p ≤ 11 → (s.ctx 32).state ≠ .void →
    s.saf.safe = false → (p ≠ 11 ∨ g ≠ Config.katSignature) → s.promoted 0x02 = true →
    ∃ t, exec (.katVerdict g p) s = .next t ∧ t.saf.safe = true ∧ t.saf.causeClass = 0x02 ∧ t.vec.katResult = 1) ∧
  (∀ (s : State) (u : Nat), u < 32 → s.unitGrey u = false → u ∉ s.vec.greyNext →
    exec (.vectorFenceReq u) s = .next { s with vec := { s.vec with greyNext := s.vec.greyNext ++ [u] } }) ∧
  (∀ s : State, s.regsWf → s.locked .vec = false → s.anyActive = false → s.regBit Reg.vecCtrl 0 = true →
    ∃ t, exec .katDisable s = .next t ∧ t.regBit Reg.vecCtrl 0 = false ∧ s.regsBut t [Reg.vecCtrl, Reg.clgStatus] ∧
      t = { s with regs := t.regs, clog := t.clog })

/-- PROGRAM_LOAD, PROGRAM_LOAD_DONE and PROGRAM_SLOT_CLEAR. With no load in progress PROGRAM_LOAD takes slot, host address
and length from its operand and registers. A load that may proceed ends with the code of the first failing check of
Table 7.8; code 0 puts the program into its slot and any other leaves the store as it was; a failed host read ends it
with 0x0E. PROGRAM_SLOT_CLEAR empties a slot that no loaded sheet names, and otherwise sets VEC_STATUS.cfg_err. (07
R192, 07 R194, 07 R207, 07 R208, 07 R221 Table 7.8) -/
def Obligations.ProgramsAreLoadedCheckedAndCleared : Prop :=
  (∀ (s : State) (k : Nat), s.vec.load = none → k < 64 → s.regsWf →
    ∃ t, exec (.programLoad k) s = .next t ∧
      t.vec = { s.vec with load := some (k, s.reg64 Reg.vecPloadAddrLo Reg.vecPloadAddrHi, (s.reg Reg.vecPloadLen).toNat % 8192) } ∧
      s.regsBut t [Reg.vecPloadCtrl] ∧ t = { s with vec := t.vec, regs := t.regs }) ∧
  (∀ (s : State) (k n : Nat) (a : BitVec 64) (b : Blob) (p : Program), s.vec.load = some (k, a, n) → s.hostBulk = true →
    s.checkProgram k (slice b 0 (8 * n)) n = (0, some p) → Sparse.wf (fun _ => (none : Option Program)) s.vec.slots = true →
    ∃ t, exec (.programLoadDone (some b)) s = .next t ∧
      (∀ j, Sparse.get (fun _ => none) t.vec.slots j = if j = k then some p else Sparse.get (fun _ => none) s.vec.slots j) ∧
      t = { s with vec := { s.vec with load := none, loadCode := 0, slots := t.vec.slots } }) ∧
  (∀ (s : State) (k n c : Nat) (a : BitVec 64) (b : Blob), s.vec.load = some (k, a, n) → s.hostBulk = true →
    s.checkProgram k (slice b 0 (8 * n)) n = (c, none) →
    exec (.programLoadDone (some b)) s = .next { s with vec := { s.vec with load := none, loadCode := c } }) ∧
  (∀ (s : State) (k n : Nat) (a : BitVec 64), s.vec.load = some (k, a, n) → s.hostBulk = true →
    exec (.programLoadDone none) s = .next { s with vec := { s.vec with load := none, loadCode := 0x0E } }) ∧
  (∀ (s : State) (k : Nat), k < 64 → s.progInUse k = false → Sparse.wf (fun _ => (none : Option Program)) s.vec.slots = true →
    ∃ t, exec (.programSlotClear k) s = .next t ∧
      (∀ j, Sparse.get (fun _ => none) t.vec.slots j = if j = k then none else Sparse.get (fun _ => none) s.vec.slots j) ∧
      t = { s with vec := { s.vec with slots := t.vec.slots } }) ∧
  (∀ (s : State) (k : Nat), s.regsWf → k < 64 → s.progInUse k = true →
    ∃ t, exec (.programSlotClear k) s = .next t ∧ t.regBit Reg.vecStatus 4 = true ∧ s.regsBut t [Reg.vecStatus] ∧ t = { s with regs := t.regs })

/-- ARRAY_FENCE_REQ and CHECK_DISABLE. A fence request for a logical array, while a spare is free, turns its physical
array grey, once, counts the fence in SAF_FENCE_CNT and GRD_GREY_CNT, and lets the replacement wait for the next tick;
for a number that does not exist or with no free spare it sets GRD_STATUS.cfg_err. CHECK_DISABLE clears chk_en and
stages a record while no partition is in the frame, and otherwise sets cfg_err. (04 R113, 04 R115, 04 R137, 04 R139) -/
def Obligations.ArrayFencesAndTheCheckSwitch : Prop :=
  (∀ (s : State) (g : Nat), g ≤ 2559 → s.freeSpares ≠ [] → s.physState (s.physOf g) ≠ 2 →
    Sparse.wf (fun p => if p % 672 < 640 then 0 else 1) s.grid.phys = true →
    ∃ t, exec (.arrayFenceReq g) s = .next t ∧ g ∈ t.grid.fences ∧ (∀ h, h ≠ g → (h ∈ t.grid.fences ↔ h ∈ s.grid.fences)) ∧
      (∀ p, t.physState p = if p = s.physOf g then 2 else s.physState p) ∧ t.grid.greyCnt = s.grid.greyCnt + 1 ∧
      t.saf = { s.saf with fenceCnt := s.saf.fenceCnt.modify 0 fun n => satAdd 32 n 1 } ∧
      t = { s with grid := { s.grid with phys := t.grid.phys, greyCnt := t.grid.greyCnt, fences := t.grid.fences }, saf := t.saf,
                   regs := t.regs, sets := t.sets }) ∧
  (∀ (s : State) (g : Nat), g ≤ 2559 → s.freeSpares ≠ [] → s.physState (s.physOf g) = 2 →
    ∃ t, exec (.arrayFenceReq g) s = .next t ∧ g ∈ t.grid.fences ∧ t = { s with grid := { s.grid with fences := t.grid.fences } }) ∧
  (∀ (s : State) (g : Nat), s.regsWf → (2559 < g ∨ s.freeSpares = []) →
    ∃ t, exec (.arrayFenceReq g) s = .next t ∧ t.regBit Reg.grdStatus 4 = true ∧ s.regsBut t [Reg.grdStatus] ∧ t = { s with regs := t.regs }) ∧
  (∀ s : State, s.regsWf → s.locked .grd = false → s.anyActive = false → s.checking = true →
    ∃ t, exec .checkDisable s = .next t ∧ t.checking = false ∧ s.regsBut t [Reg.grdCtrl, Reg.clgStatus] ∧
      t = { s with regs := t.regs, clog := t.clog }) ∧
  (∀ s : State, s.regsWf → s.locked .grd = false → s.anyActive = true →
    ∃ t, exec .checkDisable s = .next t ∧ t.regBit Reg.grdStatus 4 = true ∧ s.regsBut t [Reg.grdStatus] ∧ t = { s with regs := t.regs })

/-- CUE_END. A cue that has started and not ended is ended once: it joins the segment's ended cues, and a segment in RUN
whose every selected non-anchored cue of the slipping tracks has ended or was skipped is DONE. On track A nothing else
changes but TB. On track V, with no result due, the units of a RUN or KAT cue are free again, and the nibbles of a RUN
cue's units join VEC_EXC_STATUS. On track M no transfer of the cue is in progress any longer, and a GATHER with a
transfer that has no end counts once in TIER_MOVE_LATE. (03 R104, 03 Table 3.6, 07 R206, 08 R235, 08 R236) -/
def Obligations.CuesEndOnTheirTracks : Prop :=
  (∀ (s : State) (o i start : Nat) (x : Sheet) (c : Cue), s.playing o = some x → x.cue? .a i = some c →
    (s.ctx o).startOf .a i = some start → (Track.a, i) ∉ (s.ctx o).ended → s.saf.safe = false →
    ∃ t, exec (.cueEnd o .a i) s = .next t ∧ (t.ctx o).ended = (s.ctx o).ended ++ [(.a, i)] ∧
      ((t.ctx o).state = .done ↔ (s.ctx o).state = .done ∨ ((s.ctx o).state = .run ∧ ∀ k ∈ slipTracks, ∀ e ∈ (x.track k).zipIdx,
        e.1.anchor = true ∨ (s.ctx o).selected e.1 = false ∨ (k, e.2) ∈ (s.ctx o).ended ∨ (k = .a ∧ e.2 = i) ∨ (k, e.2) ∈ (s.ctx o).skipped)) ∧
      (∀ p, p ≠ o → t.ctx p = s.ctx p) ∧ t = { s with tbm := t.tbm, player := { s.player with ctx := t.player.ctx } }) ∧
  (∀ (s : State) (o i start : Nat) (x : Sheet) (c : Cue), s.playing o = some x → x.cue? .v i = some c → (x.shot c).op = 1 →
    (s.ctx o).startOf .v i = some start → (Track.v, i) ∉ (s.ctx o).ended → s.saf.safe = false → s.vec.units.length = 32 → s.regsWf →
    (∀ u, (s.unit u).due = []) →
    ∃ t, exec (.cueEnd o .v i) s = .next t ∧ (Track.v, i) ∈ (t.ctx o).ended ∧
      (∀ u < 32, (s.unit u).cue = some (o, i) → (t.unit u).prog = none ∧ (t.unit u).cue = none) ∧
      (∀ u < 32, (s.unit u).cue ≠ some (o, i) → t.unit u = s.unit u) ∧
      t.reg Reg.vecExcStatus = s.reg Reg.vecExcStatus |||
        (((List.range 32).filter fun u => (s.unit u).cue = some (o, i)).foldl (fun (a : BitVec 4) u => a ||| (s.unit u).nibble) 0).setWidth 32 ∧
      s.regsBut t [Reg.vecExcStatus] ∧
      t = { s with tbm := t.tbm, player := { s.player with ctx := t.player.ctx }, vec := t.vec, tally := t.tally, regs := t.regs }) ∧
  (∀ (s : State) (o i start : Nat) (x : Sheet) (c : Cue), s.playing o = some x → x.cue? .v i = some c → (x.shot c).op = 2 →
    (s.ctx o).startOf .v i = some start → (Track.v, i) ∉ (s.ctx o).ended → s.saf.safe = false → s.vec.units.length = 32 →
    (∀ u, (s.unit u).due = []) →
    ∃ t, exec (.cueEnd o .v i) s = .next t ∧ (Track.v, i) ∈ (t.ctx o).ended ∧
      (∀ u < 32, (s.unit u).cue = some (o, i) → (t.unit u).prog = none ∧ (t.unit u).cue = none) ∧
      (∀ u < 32, (s.unit u).cue ≠ some (o, i) → t.unit u = s.unit u) ∧
      t = { s with tbm := t.tbm, player := { s.player with ctx := t.player.ctx }, vec := t.vec }) ∧
  (∀ (s : State) (o i start : Nat) (x : Sheet) (c : Cue), s.playing o = some x → x.cue? .m i = some c →
    (s.ctx o).startOf .m i = some start → (Track.m, i) ∉ (s.ctx o).ended → s.saf.safe = false →
    ∃ t, exec (.cueEnd o .m i) s = .next t ∧ (Track.m, i) ∈ (t.ctx o).ended ∧
      (∀ m ∈ t.tiers.running, ¬ (m.owner = o ∧ m.cue = i)) ∧
      (∀ m ∈ s.tiers.running, m.owner = o → m.cue = i → (x.shot c).op = MOp.gather → m.endTb = none →
        t.tiers.moveLate = satAdd 32 s.tiers.moveLate 1))

/-- REEL and LAYER_FETCH_DONE. In streamed mode a REEL cue whose reel has no buffer of the frame for its layer yet, and
whose layer the other reel does not present, takes the reel's freed buffer for the layer where its banks are open, and
fetches stripes first to first + count - 1 into it: from when every live stack is free and the house segment has
ended, for the fetch time of R241; the other buffers stay. LAYER_FETCH_DONE reads the stripes and writes the layer as
engine-ready tiles; with the digest of the manifest the layer is ready, and the fetch time stands in the register of
its reel. A first mismatch raises TIER_STATUS.digest_retry and fetches every stripe again, a second is dangerous. An
arrival may also make the layer's plate distribution go on (the model's choice of when, log entries 30 and 53). (08
R547, 08 R240, 08 R241, 08 R235, 08 R237, 01 R28) -/
def Obligations.ReelCuesFetchStripesOfTheNextLayer : Prop :=
  (∀ (s : State) (o i start : Nat) (x : Sheet) (c : Cue) (p : Plate), s.mayStart o .m i x c (fun d => d.f 0 1 = 2 && d.op = 1) start →
    let s' := s.started o .m i c start
    let d := x.shot c
    let l := s'.reelTarget d.mReverse
    let b := s'.reelBuffer d.mReverse
    let part := p.layers.getD l p.embed
    let from_ := max (s'.stacksFrom s'.liveStacks) s'.houseEnd
    s'.plate.plate = some p → p.resident = false → s'.reelTarget (!d.mReverse) ≠ l → s'.bufBegun b l = false →
    s'.accessBanks (s'.bufRun b part) = true → s'.ports = [] →
    s'.tiers.bufs.length = 4 → 1 ≤ d.mCount → d.mFirst + d.mCount ≤ part.stripes →
    ∃ t, exec (.reel o i) s = .next t ∧ (t.buf b).layer = some l ∧ (t.buf b).stripes = (List.range d.mCount).map (fun k => d.mFirst + k) ∧
      (t.buf b).ready = false ∧ (t.buf b).startTb = from_ ∧
      (t.buf b).endTb = from_ + s'.fetchNs d.mCount (packedSize part.fmt part.blk) ∧
      (∀ n, n ≠ b → t.buf n = s'.buf n) ∧
      t = { s' with tiers := { s'.tiers with bufs := t.tiers.bufs, stackFree := t.tiers.stackFree }, ports := t.ports }) ∧
  (∀ (s : State) (o i start : Nat) (x : Sheet) (c : Cue) (p : Plate), s.mayStart o .m i x c (fun d => d.f 0 1 = 2 && d.op = 1) start →
    (s.started o .m i c start).plate.plate = some p → p.resident = true → exec (.reel o i) s = .next (s.started o .m i c start)) ∧
  (∀ (s : State) (rev : Bool) (p : Plate) (i l : Nat), s.plate.plate = some p → s.arrived rev = some i → (s.buf i).layer = some l →
    let part := p.layers.getD l p.embed
    let r := ((s.advance (s.buf i).endTb).readStripes l part).writeLayer i l part
    r.saf.safe = false → r.tiers.bufs.length = 4 → sha512 (r.fetchedData l part) = part.digest →
    ∃ t, exec (.layerFetchDone rev false) s = .next t ∧ t.buf i = { s.buf i with ready := true } ∧
      (∀ n, n ≠ i → t.buf n = r.buf n) ∧
      (if rev = true then t.tiers.fetchRev else t.tiers.fetchFwd) = BitVec.ofNat 32 ((s.buf i).endTb - (s.buf i).startTb) ∧
      t = { r with reel := t.reel, tiers := { r.tiers with bufs := t.tiers.bufs, fetchRev := t.tiers.fetchRev,
                                                           fetchFwd := t.tiers.fetchFwd } }) ∧
  (∀ (s : State) (rev : Bool) (p : Plate) (i l : Nat), s.plate.plate = some p → s.arrived rev = some i →
    (s.buf i).layer = some l → (s.buf i).misses = 0 →
    let part := p.layers.getD l p.embed
    let r := ((s.advance (s.buf i).endTb).readStripes l part).writeLayer i l part
    r.regsWf → r.saf.safe = false → r.tiers.bufs.length = 4 → r.ports = [] → r.promoted 0x0E = false →
    ∃ t, exec (.layerFetchDone rev true) s = .next t ∧ t.regBit Reg.tierStatus 5 = true ∧
      r.regsBut t [Reg.tierStatus, Reg.clgStatus] ∧ (t.buf i).ready = (s.buf i).ready ∧ (t.buf i).misses = 1 ∧
      (t.buf i).stripes = List.range part.stripes ∧ (∀ n, n ≠ i → t.buf n = r.buf n) ∧
      t = { r with regs := t.regs, clog := t.clog, ports := t.ports,
                   tiers := { r.tiers with bufs := t.tiers.bufs, stackFree := t.tiers.stackFree } }) ∧
  (∀ (s : State) (rev : Bool) (p : Plate) (i l : Nat), s.plate.plate = some p → s.arrived rev = some i → (s.buf i).layer = some l →
    (s.buf i).misses ≠ 0 →
    let part := p.layers.getD l p.embed
    (((s.advance (s.buf i).endTb).readStripes l part).writeLayer i l part).saf.safe = false →
    ∃ t, exec (.layerFetchDone rev true) s = .next t ∧ t.saf.safe = true ∧ t.saf.causeClass = 0x0E)

/-- GATHER, SCATTER, MIGRATE, HOST, UPDATE, TINT. Where an M cue may start, its accesses are allowed, none is under way at
the port and no word it reads has an error: GATHER starts transfers of the KV tiles and embedding rows of its bay, cut
by first and count. SCATTER starts transfers and changes only objects, and at a passage's last layer the extents of
its sessions. MIGRATE starts transfers of at most count tiles of queued moves whose stacks it holds and that nothing
writes. HOST writes an exported area's bytes to the host from its address on, or its MX layout; an area that holds
weights leaves as the plate image or not at all (the model's reading, log entry 53); an import changes only its area;
a house cue writes out the dailies. UPDATE holds its stacks to the cue's end and lets a paused pass of them go on from
when they are free. TINT starts transfers of at most count tiles. What an import brings and a SCATTER writes is open
(log entry 3). A refused area fences the sheet. (08 R234, 08 R235, 08 R228, 08 R225, 08 R248, 08 R249, 08 R230, 12
R362, 11 R295, 11 R296, 13 R392) -/
def Obligations.MoversStartInTheirCues : Prop :=
  (∀ (s : State) (o i start : Nat) (x : Sheet) (c : Cue), s.mayStart o .m i x c (fun d => d.f 0 1 = 2 && d.op = 2) start →
    let s' := s.started o .m i c start
    let d := x.shot c
    let a := s'.mArea o c d
    (∀ b, s'.accessOk o true a.1 a.2 = true → s'.moveBinding o c d = some b → s'.ports = [] →
      ∃ (t : State) (ms : List Mover), exec (.gather o i) s = .next t ∧ t.tiers.running = s'.tiers.running ++ ms ∧
        (∀ m ∈ ms, m.owner = o ∧ m.cue = i ∧ m.op = 2 ∧ ∀ e ∈ m.tiles, (e.1, e.2.1) ∈ s'.gatherTiles o i x d b) ∧
        (∀ e ∈ s'.gatherTiles o i x d b, ((s'.tileCost e).1 = [] ∨ ∃ n ∈ (s'.tileCost e).1, n < 12) →
          ∃ m ∈ ms, ∃ f ∈ m.tiles, (f.1, f.2.1) = e) ∧
        t = { s' with tiers := { s'.tiers with running := t.tiers.running, stackFree := t.tiers.stackFree, hFree := t.tiers.hFree },
                      ports := t.ports }) ∧
    (s'.accessOk o true a.1 a.2 = true → s'.moveBinding o c d = none → exec (.gather o i) s = .next s') ∧
    (s'.accessOk o true a.1 a.2 = false → exec (.gather o i) s = .next (s'.fenceSheet o 4))) ∧
  (∀ (s : State) (o i start : Nat) (x : Sheet) (c : Cue), s.mayStart o .m i x c (fun d => d.f 0 1 = 2 && d.op = 3) start →
    let s' := s.started o .m i c start
    let d := x.shot c
    let a := s'.mArea o c d
    (∀ b, s'.accessOk o true a.1 a.2 = true → s'.moveBinding o c d = some b → s'.ports = [] → s'.tiers.fErr = [] →
      ∃ t, exec (.scatter o i) s = .next t ∧ (∃ ms, t.tiers.running = s'.tiers.running ++ ms ∧ ∀ m ∈ ms, m.owner = o ∧ m.cue = i ∧ m.op = 3) ∧
        (s'.isResident = false → s'.player.reelPos + 1 ≠ s'.layerCount → t.ses = s'.ses) ∧
        (∀ (k : ItemKey) (e : Item), s'.isResident = false → s'.player.reelPos + 1 = s'.layerCount → b.items = [k] → s'.item? k = some e →
          e.op = 1 → Sparse.wf (fun _ => Ses.init) s'.ses = true →
          (t.sesOf e.ctxNo).sExt =
            max (extentsAt ((s'.sesOf e.ctxNo).positions + 1)) ((s'.sesOf e.ctxNo).sExt + (s'.sesOf e.ctxNo).hExt) - (s'.sesOf e.ctxNo).hExt ∧
          (∀ n, n ≠ e.ctxNo → t.sesOf n = s'.sesOf n)) ∧
        t = { s' with ses := t.ses, free := t.free, ports := t.ports,
                      tiers := { s'.tiers with running := t.tiers.running, stackFree := t.tiers.stackFree, hFree := t.tiers.hFree,
                                               objs := t.tiers.objs } }) ∧
    (s'.accessOk o true a.1 a.2 = true → s'.moveBinding o c d = none → exec (.scatter o i) s = .next s') ∧
    (s'.accessOk o true a.1 a.2 = false → exec (.scatter o i) s = .next (s'.fenceSheet o 4))) ∧
  (∀ (s : State) (o i start : Nat) (x : Sheet) (c : Cue), s.mayStart o .m i x c (fun d => d.f 0 1 = 2 && d.op = 4) start →
    let s' := s.started o .m i c start
    let d := x.shot c
    ∃ (t : State) (ms : List Mover), exec (.migrate o i) s = .next t ∧ t.tiers.running = s'.tiers.running ++ ms ∧
      (∀ m ∈ ms, m.owner = o ∧ m.cue = i ∧ m.op = 4 ∧ m.tiles ≠ [] ∧ m.rate = s'.hRate o) ∧
      (ms.map fun m => m.tiles.length).sum ≤ d.mCount ∧
      (∀ m ∈ ms, ∀ e ∈ m.tiles,
        (∃ (ob : Obj) (mv : Move), (e.1, some ob) ∈ s'.tiers.objs ∧ ob.move = some mv ∧ mv.copied ≤ e.2.1 ∧ e.2.1 < ob.tiles.length ∧
          s'.beingWritten e.1 ob = false) ∨
        (∃ (n : Nat) (y : Ses), (n, y) ∈ s'.ses ∧ y.owner = o ∧ y.state = .opened ∧ (e.1, e.2.1) ∈ (s'.extentMoves y).1)) ∧
      ((∃ (h : Nat) (ob : Obj) (mv : Move), (h, some ob) ∈ s'.tiers.objs ∧ h / 67108864 = o ∧ ob.move = some mv ∧
        (∀ n ∈ ob.moveStacks mv, bitOf (BitVec.ofNat 12 d.mStacks) n = true) ∧ mv.copied < ob.tiles.length ∧ s'.beingWritten h ob = false ∧
        mv.target ≠ .h) → 1 ≤ d.mCount → ms ≠ []) ∧
      t = { s' with tiers := { s'.tiers with running := t.tiers.running, stackFree := t.tiers.stackFree, hFree := t.tiers.hFree } }) ∧
  (∀ (s : State) (o i start : Nat) (x : Sheet) (c : Cue), s.mayStart o .m i x c (fun d => d.f 0 1 = 2 && d.op = 5) start →
    let s' := s.started o .m i c start
    let d := x.shot c
    let a := s'.mArea o c d
    let out := if s'.holdsWeights (a.1.run a.2) = true then s'.plateExport.getD [] else s'.hostOut d a.1 a.2
    (s'.accessOk o true a.1 a.2 = false → exec (.host o i) s = .next (s'.fenceSheet o 4)) ∧
    (s'.accessOk o true a.1 a.2 = true → o ≠ 32 → a.2 = 0 → exec (.host o i) s = .next s') ∧
    (s'.accessOk o true a.1 a.2 = true → s'.memoryWf → s'.hostWf → s'.ports = [] → s'.tiers.fErr = [] →
      (o ≠ 32 → a.2 ≠ 0 → d.mExport = true → ∃ t, exec (.host o i) s = .next t ∧
        (∀ k, k < out.length → t.hostByte (d.mArg + k) = some (out.getD k 0)) ∧
        (∀ b, b < d.mArg ∨ d.mArg + out.length ≤ b → t.hostByte b = s'.hostByte b) ∧ t = { s' with host := t.host, ports := t.ports }) ∧
      (o ≠ 32 → a.2 ≠ 0 → d.mExport = false → ∃ t, exec (.host o i) s = .next t ∧ (∀ b, ¬ a.1.covers a.2 b → t.byteF b = s'.byteF b) ∧
        t = { s' with tiers := { s'.tiers with f := t.tiers.f, fErr := t.tiers.fErr }, free := t.free, ports := t.ports }) ∧
      (o = 32 → s'.sets.length = 33 → ∃ t, exec (.host o i) s = .next t ∧ (∀ k, k < 33 → (t.ringSet k).dailies.out = []) ∧
        t = { s' with tiers := { s'.tiers with f := t.tiers.f, fErr := t.tiers.fErr }, host := t.host, sets := t.sets, free := t.free,
                      ports := t.ports }))) ∧
  (∀ (s : State) (o i start : Nat) (x : Sheet) (c : Cue), s.mayStart o .m i x c (fun d => d.f 0 1 = 2 && d.op = 6) start →
    let s' := s.started o .m i c start
    let ns := (List.range 12).filter fun n => bitOf (BitVec.ofNat 12 (x.shot c).mStacks) n
    let from_ := s'.stacksFrom ns
    let until_ := s'.cycleTb o (start + c.dur)
    s'.tiers.stackFree.length = 12 → s'.upd.length = 12 →
    ∃ (t : State) (m : Mover), exec (.update o i) s = .next t ∧ t.tiers.running = s'.tiers.running ++ [m] ∧
      m.owner = o ∧ m.cue = i ∧ m.op = 6 ∧ m.onStacks = ns ∧ m.startTb = from_ ∧ m.endTb = some until_ ∧
      (∀ n, n < 12 → t.stackFree n = if n ∈ ns then max (s'.stackFree n) until_ else s'.stackFree n) ∧
      (∀ n k q, n < 12 → (s'.updOf n).queue = k :: q → (s'.updOf n).running = true → (s'.updOf n).paused = true → from_ < until_ →
        (∀ m ∈ updStacks n k, m ∈ ns) → t.updOf n = { s'.updOf n with paused := false, slotTb := some from_ }) ∧
      (∀ n, (s'.updOf n).paused = false ∨ until_ ≤ from_ → t.updOf n = s'.updOf n) ∧
      t = { s' with tiers := { s'.tiers with running := t.tiers.running, stackFree := t.tiers.stackFree }, upd := t.upd }) ∧
  (∀ (s : State) (o i start : Nat) (x : Sheet) (c : Cue), s.mayStart o .m i x c (fun d => d.f 0 1 = 2 && d.op = 7) start →
    let s' := s.started o .m i c start
    let d := x.shot c
    let ts : List Nat := if c.bay = 63 ∧ c.retake = false then (s'.tints.filter fun e => e.2.owner = o && e.2.state ≠ .free).map (·.1)
      else match s'.cueBinding o c with
        | some b => [b.tint]
        | none => []
    let runs := (ts.filter fun n => !(s'.tintWork n).isEmpty).filterMap s'.slotRun
    (s'.accessBanks runs = false → exec (.tint o i) s = .next (s'.fenceSheet o 4)) ∧
    (s'.accessBanks runs = true → s'.ports = [] →
      ∃ (t : State) (ms : List Mover), exec (.tint o i) s = .next t ∧ t.tiers.running = s'.tiers.running ++ ms ∧
        (∀ m ∈ ms, m.owner = o ∧ m.cue = i ∧ m.op = 7 ∧ m.tiles ≠ [] ∧ m.tint ∈ ts ∧ m.tiles.length ≤ (s'.tintWork m.tint).length) ∧
        (ms.map fun m => m.tiles.length).sum ≤ d.mCount ∧
        ((∃ n ∈ ts, s'.tintWork n ≠ []) → 1 ≤ d.mCount → ms ≠ []) ∧
        t = { s' with tiers := { s'.tiers with running := t.tiers.running, stackFree := t.tiers.stackFree }, ports := t.ports }))

/-- BANK_REQUEST, BANK_REQUEST_EFFECT, BANK_TRANSITION_DONE. A sound BNK_Bb write is kept for the next tick, one during a
shutdown changes its target at once, and a reserved request, a reserved owner, a grey bank, an owner none that is not
OFF, or shared_ro off the house only sets BNK_STATUS.cfg_err. A request that is due takes effect: OFF wakes for
238,454 ns, ON to RET takes 1,000 ns, RET to ON 2,000 ns, and OFF or a new owner of an ON or RET bank starts a
shutdown of 10,000 ns, with a request of ON or RET queued behind it. At its end a shutdown loses the bank's bytes and
leaves OFF, or wakes the bank for the queued request; a bank that has waked is in the requested state with its bytes
zero; other banks and bytes stay. (09 R256, 09 R257, 09 R258, 09 R259, 09 Table 9.2) -/
def Obligations.BankRequestsAreCheckedAndRunTheirSequences : Prop :=
  (∀ (s : State) (b o : Nat) (v : Word) (r : BankReq), b < 1536 → o = fld v 8 6 →
    (match fld v 0 2 with | 0 => some BankReq.off | 1 => some .on | 2 => some .ret | _ => none) = some r →
    (o ≤ 32 ∨ (o = 63 ∧ r = .off)) → (s.bank b).state ≠ .grey →
    (s.bankHeld b = false ∨ (o = (s.bank b).written.2 ∧ (r = (s.bank b).written.1 ∨ r = .on))) →
    (bitOf v 14 = true → (s.bank b).owner = 32 ∧ o = 32) →
    ((s.bank b).state ≠ .goingOff → (s.bank b).state ≠ .queuedOn →
      exec (.bankRequest b v) s = .next (s.setBank b { s.bank b with shared := bitOf v 14, next := some (r, o), due := false })) ∧
    ((s.bank b).state = .goingOff ∨ (s.bank b).state = .queuedOn →
      exec (.bankRequest b v) s = .next (s.setBank b { s.bank b with shared := bitOf v 14, owner := o, req := r, target := r,
                                                                     state := if r = .off then .goingOff else .queuedOn }))) ∧
  (∀ (s : State) (b : Nat) (v : Word), b < 1536 →
    (fld v 0 2 = 3 ∨ (33 ≤ fld v 8 6 ∧ fld v 8 6 ≤ 62) ∨ (fld v 8 6 = 63 ∧ fld v 0 2 ≠ 0) ∨ (s.bank b).state = .grey ∨
      (s.bankHeld b = true ∧ fld v 8 6 ≠ (s.bank b).written.2) ∨ (bitOf v 14 = true ∧ ((s.bank b).owner ≠ 32 ∨ fld v 8 6 ≠ 32))) →
    exec (.bankRequest b v) s = .next (s.raise Reg.bnkStatus 4)) ∧
  (∀ (s : State) (b o : Nat) (r : BankReq), (s.bank b).next = some (r, o) → (s.bank b).due = true → (s.bank b).endTb = none →
    (s.bank b).state ≠ .grey → Sparse.wf (fun _ => Bank.init) s.banks.bank = true →
    ∃ t, exec (.bankRequestEffect b) s = .next t ∧ (t.bank b).owner = o ∧ (t.bank b).req = r ∧ (t.bank b).next = none ∧
      ((s.bank b).state = .off → r ≠ .off →
        (t.bank b).state = .waking ∧ (t.bank b).target = r ∧ (t.bank b).endTb = some (s.now + 238454)) ∧
      ((s.bank b).owner = o → (s.bank b).state = .on → r = .ret →
        (t.bank b).state = .on ∧ (t.bank b).target = .ret ∧ (t.bank b).endTb = some (s.now + 1000) ∧ (t.bank b).usable = false) ∧
      ((s.bank b).owner = o → (s.bank b).state = .ret → r = .on →
        (t.bank b).state = .ret ∧ (t.bank b).target = .on ∧ (t.bank b).endTb = some (s.now + 2000)) ∧
      ((s.bank b).state = .on ∨ (s.bank b).state = .ret → r = .off →
        (t.bank b).state = .goingOff ∧ (t.bank b).endTb = some (s.now + 10000) ∧ (t.bank b).usable = false) ∧
      ((s.bank b).owner ≠ o → (s.bank b).state = .on ∨ (s.bank b).state = .ret → r ≠ .off →
        (t.bank b).state = .queuedOn ∧ (t.bank b).target = r ∧ (t.bank b).endTb = some (s.now + 10000) ∧ (t.bank b).usable = false) ∧
      (∀ n, n ≠ b → t.bank n = s.bank n) ∧ t = { s with banks := t.banks }) ∧
  (∀ (s : State) (b e : Nat), (s.bank b).endTb = some e → Sparse.wf (fun _ => Bank.init) s.banks.bank = true → s.memoryWf →
    (s.bank b).state ≠ .grey → ∃ t, exec (.bankTransitionDone b) s = .next t ∧
      ((s.bank b).state = .goingOff → (t.bank b).state = .off ∧ (t.bank b).endTb = none) ∧
      ((s.bank b).state = .queuedOn →
        (t.bank b).state = .waking ∧ (t.bank b).target = (s.bank b).target ∧ (t.bank b).endTb = some (e + 238454)) ∧
      ((s.bank b).state = .waking ∨ (s.bank b).state = .on ∨ (s.bank b).state = .ret →
        (t.bank b).state = (s.bank b).target.state ∧ (t.bank b).endTb = none) ∧
      (∀ a, t.byteF a = if a / 16777216 = b ∧ ((s.bank b).state = .goingOff ∨ (s.bank b).state = .queuedOn ∨ (s.bank b).state = .waking)
        then 0 else s.byteF a) ∧
      (∀ n, n ≠ b → t.bank n = s.bank n) ∧
      t = { s.advance e with tiers := { s.tiers with f := t.tiers.f, fErr := t.tiers.fErr }, banks := t.banks })

/-- PATROL_SCRUB. The scrubber of a bank that is ON reads its next word and goes on to the following one, past the last
one to the first. It finds the error that the word holds, or, in a sound word, what the command says. A corrected
error counts in the bank, up to 0xFFFF, and in the device, raises BNK_STATUS.ce and is repaired; at the correction
limit, where 0 counts as 1, the bank is to be fenced with cause 2; an uncorrectable one counts, raises BNK_STATUS.ue
and has the bank fenced with cause 1. BNK_ERR_REF holds the word's reference, unless a bank at its limit is corrected
once more. Other banks stay. (09 R264, 09 R265, 09 R266) -/
def Obligations.PatrolScrubCountsAndFencesItsBank : Prop :=
  ∀ (s : State) (b : Nat) (seen : EccResult), b < 1536 → (s.bank b).state = .on → Sparse.wf (fun _ => Bank.init) s.banks.bank = true →
    s.regsWf → (s.bank b).scrub < 524288 →
    let w := b * 524288 + (s.bank b).scrub
    let held := Sparse.get (fun _ => EccResult.clean) s.tiers.fErr w
    let found := if held = .clean then seen else held
    ∃ t, exec (.patrolScrub b seen) s = .next t ∧ (t.bank b).scrub = ((s.bank b).scrub + 1) % 524288 ∧
      (t.bank b).state = .on ∧ (∀ n, n ≠ b → t.bank n = s.bank n) ∧
      (found = .clean → t.regs = s.regs ∧ (t.bank b).ce = (s.bank b).ce ∧ (t.bank b).fence = (s.bank b).fence ∧
        t.banks.ceTotal = s.banks.ceTotal ∧ t.banks.ueTotal = s.banks.ueTotal) ∧
      (found = .corrected → Sparse.get (fun _ => EccResult.clean) t.tiers.fErr w = .clean ∧ (t.bank b).ce = min ((s.bank b).ce + 1) 0xFFFF ∧ t.banks.ceTotal = satAdd 32 s.banks.ceTotal 1 ∧
        t.banks.ueTotal = s.banks.ueTotal ∧ t.regBit Reg.bnkStatus 0 = true ∧ s.regsBut t [Reg.bnkStatus] ∧
        ((s.bank b).fence = 0 → (t.bank b).fence = if max 1 (s.regFld Reg.bnkCtrl 0 8) ≤ min ((s.bank b).ce + 1) 0xFFFF then 2 else 0) ∧
        ((s.bank b).fence ≠ 2 → t.banks.errRef = BitVec.ofNat 32 (b * 262144 + (s.bank b).scrub / 2))) ∧
      (found = .uncorrectable → (t.bank b).ce = (s.bank b).ce ∧ t.banks.ceTotal = s.banks.ceTotal ∧
        t.banks.ueTotal = satAdd 32 s.banks.ueTotal 1 ∧ t.regBit Reg.bnkStatus 1 = true ∧ s.regsBut t [Reg.bnkStatus] ∧
        t.banks.errRef = BitVec.ofNat 32 (b * 262144 + (s.bank b).scrub / 2) ∧ ((s.bank b).fence = 0 → (t.bank b).fence = 1)) ∧
      t = { s.advance ((s.bank b).scrubTb + 15000) with banks := t.banks, regs := t.regs, tiers := { s.tiers with fErr := t.tiers.fErr } } ∧
      (∀ k, k ≠ w → Sparse.get (fun _ => EccResult.clean) t.tiers.fErr k = Sparse.get (fun _ => EccResult.clean) s.tiers.fErr k)

/-- MAINTENANCE_ACCESS, TIER_S_PATROL, PATROL_LATE, ROW_RETIRE. In a gap of a live stack: a maintenance rewrite leaves the
list of waiting rewrites and repairs its granule; a reread counts and raises NMD_STATUS.link_retry; a read that finds
a corrected error counts it, notes its address and queues a rewrite; an uncorrectable one in a granule that holds
nothing counts, raises NMD_STATUS.ue and is class 0x04. A granule with an error of its own shows that. The patrol
reads its next granule and goes on by one; its last granule ends the pass and starts the next at 0. A pass past its
hours is late: a mark, NMD_STATUS.patrol_late and a log record. A row with corrected errors in four passes in a row is
retired: it is counted, no longer tracked, and logged. The other stacks stay. (09 R269, 09 R270, 09 R271, 09 R273, 09
R274) -/
def Obligations.StacksAreScrubbedInTheirGaps : Prop :=
  (∀ (s : State) (n addr : Nat) (found : EccResult), s.gap n 0 = true →
    exec (.maintenanceAccess n .rewrite addr found) s =
      .next (s.setNmd n { s.nmdOf n with rewrites := (s.nmdOf n).rewrites.erase addr,
                                         errs := Sparse.drop (s.nmdOf n).errs fun a => a = addr })) ∧
  (∀ (s : State) (n addr : Nat) (kind : Maint), s.gap n 0 = true → kind ≠ .rewrite → s.regsWf → s.nmd.length = 12 →
    let held := Sparse.get (fun _ => EccResult.clean) (s.nmdOf n).errs addr
    (held = .clean → ∃ t, exec (.maintenanceAccess n kind addr .clean) s = .next t ∧
      (t.nmdOf n).rereads = (if kind = .reread then satAdd 16 (s.nmdOf n).rereads 1 else (s.nmdOf n).rereads) ∧
      (kind = .reread → t.regBit Reg.nmdStatus 2 = true) ∧ s.regsBut t [Reg.nmdStatus] ∧ (∀ m, m ≠ n → t.nmdOf m = s.nmdOf m) ∧
      t = { s with regs := t.regs, nmd := t.nmd }) ∧
    (∀ seen, (if held = .clean then seen else held) = .corrected → ∃ t, exec (.maintenanceAccess n kind addr seen) s = .next t ∧ (t.nmdOf n).ceCnt = satAdd 32 (s.nmdOf n).ceCnt 1 ∧
      (t.nmdOf n).errAddr = BitVec.ofNat 32 addr ∧ addr ∈ (t.nmdOf n).rewrites ∧ (∀ a ∈ (s.nmdOf n).rewrites, a ∈ (t.nmdOf n).rewrites) ∧
      (t.nmdOf n).rereads = (if kind = .reread then satAdd 16 (s.nmdOf n).rereads 1 else (s.nmdOf n).rereads) ∧
      t.regBit Reg.nmdStatus 0 = true ∧ s.regsBut t [Reg.nmdStatus] ∧ (∀ m, m ≠ n → t.nmdOf m = s.nmdOf m) ∧
      t = { s with regs := t.regs, nmd := t.nmd }) ∧
    (∀ seen, (if held = .clean then seen else held) = .uncorrectable → kind = .patrol → s.heldAt n addr = .nothing →
      (s.nmdOf n).ueSpan + 1 < max 1 (s.regFld Reg.nmdCtrl 0 8) →
      exec (.maintenanceAccess n kind addr seen) s =
        .next (((s.setNmd n { s.nmdOf n with ueCnt := satAdd 32 (s.nmdOf n).ueCnt 1, errAddr := BitVec.ofNat 32 addr,
                                             ueSpan := (s.nmdOf n).ueSpan + 1 }).raise Reg.nmdStatus 1).detect 0x04 false 3 n))) ∧
  (∀ (s : State) (n : Nat), s.gap n 0 = true → s.nmd.length = 12 → (s.nmdOf n).patrol + 1 < 1610612736 →
    Sparse.get (fun _ => EccResult.clean) (s.nmdOf n).errs (s.nmdOf n).patrol = .clean →
    ∃ t, exec (.tierSPatrol n (s.nmdOf n).patrol .clean) s = .next t ∧ (t.nmdOf n).patrol = (s.nmdOf n).patrol + 1 ∧
      (t.nmdOf n).progress = BitVec.ofNat 10 (((s.nmdOf n).patrol + 1) * 1000 / 1610612736) ∧ (t.nmdOf n).rowSeen = (s.nmdOf n).rowSeen ∧
      t = { s with nmd := t.nmd }) ∧
  (∀ (s : State) (n : Nat), s.gap n 0 = true → s.nmd.length = 12 → (s.nmdOf n).patrol = 1610612735 →
    Sparse.get (fun _ => EccResult.clean) (s.nmdOf n).errs 1610612735 = .clean →
    ∃ t, exec (.tierSPatrol n 1610612735 .clean) s = .next t ∧ (t.nmdOf n).patrol = 0 ∧ (t.nmdOf n).progress = 0 ∧
      (t.nmdOf n).passTb = s.now ∧ (t.nmdOf n).patrolLate = false ∧ (t.nmdOf n).rowSeen = [] ∧
      (∀ r, (r ∈ (t.nmdOf n).rowRuns.map fun e => e.1) ↔ r ∈ (s.nmdOf n).rowSeen) ∧ t = { s with nmd := t.nmd }) ∧
  (∀ (s : State) (n : Nat), (s.nmdOf n).state = .live → (s.nmdOf n).patrolLate = false → s.nmd.length = 12 → s.regsWf → n < 12 →
    (s.nmdOf n).passTb + 3600000000000 * s.regFld Reg.nmdCtrl 8 5 < s.now →
    ∃ t, exec (.patrolLate n) s = .next t ∧ t.nmdOf n = { s.nmdOf n with patrolLate := true } ∧ t.regBit Reg.nmdStatus 3 = true ∧
      s.regsBut t [Reg.nmdStatus, Reg.clgStatus] ∧ (∀ m, m ≠ n → t.nmdOf m = s.nmdOf m) ∧
      t = { s with regs := t.regs, nmd := t.nmd, clog := t.clog }) ∧
  (∀ (s : State) (n row : Nat), (s.nmdOf n).state = .live → n < 12 → s.nmd.length = 12 →
    4 ≤ (((s.nmdOf n).rowRuns.find? fun e => e.1 = row).map fun e => e.2).getD 0 + (if row ∈ (s.nmdOf n).rowSeen then 1 else 0) →
    ∃ t, exec (.rowRetire n row) s = .next t ∧ (∀ m, m ≠ n → t.nmdOf m = s.nmdOf m) ∧
      t.nmdOf n = { s.nmdOf n with spprRows := satAdd 16 (s.nmdOf n).spprRows 1,
                                   rowRuns := (s.nmdOf n).rowRuns.filter fun e => e.1 ≠ row, rowSeen := (s.nmdOf n).rowSeen.erase row } ∧
      t = { s with regs := t.regs, nmd := t.nmd, clog := t.clog })

/-- DQ_OSC_CHECK, DQ_RETRAIN, RETRAIN_LATE, NMD_FENCE_REQ, STACK_LOST. Drift of a live stack in a frame divisible by 1,024
makes a retrain wait. In a gap of at least 50,000 ns a waiting retrain runs and is counted; one that fails fences the
NMD. A retrain that has waited more than 1,024 frames is late: a mark, NMD_STATUS.retrain_late and a log record. The
first fence of an NMD makes it GREY, takes its stack from the live ones, starts rebuild mode and notes it as the first
lost; a fence of a second one is the safe state with class 0x04. A request above 11 only sets NMD_STATUS.cfg_err. At
STACK_LOST a grey NMD's update engine holds no command, each tint with its home on the stack has the stack six further
on as its home, and a session with its home there is no longer open. The frame of the oscillator check is the model's
choice (log entry 43). (09 R272, 09 R274, 08 R244, 08 R245, 08 R246) -/
def Obligations.StacksRetrainAndAreFencedAndLost : Prop :=
  (∀ (s : State) (n : Nat), (s.nmdOf n).state = .live → s.tbm.running = true → s.fnNat % 1024 = 0 → (s.nmdOf n).retrainWait = none →
    exec (.dqOscCheck n true) s = .next (s.setNmd n { s.nmdOf n with retrainWait := some 0 }) ∧
    exec (.dqOscCheck n false) s = .next s) ∧
  (∀ (s : State) (n w gapNs : Nat), s.gap n gapNs = true → (s.nmdOf n).retrainWait = some w → 50000 ≤ gapNs →
    exec (.dqRetrain n gapNs true) s = .next (s.setNmd n { s.nmdOf n with retrain := satAdd 32 (s.nmdOf n).retrain 1,
                                                                          retrainWait := none, retrainLate := false })) ∧
  (∀ (s : State) (n w gapNs : Nat), s.gap n gapNs = true → (s.nmdOf n).retrainWait = some w → 50000 ≤ gapNs → s.tiers.anyLost = false →
    s.nmd.length = 12 → s.regsWf → s.promoted 0x04 = false →
    ∃ t, exec (.dqRetrain n gapNs false) s = .next t ∧ (t.nmdOf n).state = .grey ∧ t.stackLive n = false ∧ t.tiers.rebuild = true ∧
      t.tiers.firstLost = n ∧ t.tiers.anyLost = true ∧ t.saf.safe = false) ∧
  (∀ (s : State) (n w : Nat), (s.nmdOf n).retrainWait = some w → 1024 < w → (s.nmdOf n).retrainLate = false → s.regsWf → n < 12 →
    s.nmd.length = 12 →
    ∃ t, exec (.retrainLate n) s = .next t ∧ t.nmdOf n = { s.nmdOf n with retrainLate := true } ∧ t.regBit Reg.nmdStatus 4 = true ∧
      s.regsBut t [Reg.nmdStatus, Reg.clgStatus] ∧ t = { s with regs := t.regs, nmd := t.nmd, clog := t.clog }) ∧
  (∀ (s : State) (n : Nat), n < 12 → (s.nmdOf n).state ≠ .grey → s.tiers.anyLost = false → s.nmd.length = 12 →
    s.promoted 0x04 = false → s.regsWf →
    ∃ t, exec (.nmdFenceReq n) s = .next t ∧ (t.nmdOf n).state = .grey ∧ t.stackLive n = false ∧
      (∀ m, m ≠ n → t.stackLive m = s.stackLive m ∧ t.nmdOf m = s.nmdOf m) ∧ t.tiers.rebuild = true ∧
      t.tiers.firstLost = n ∧ t.tiers.anyLost = true ∧ t.regBit Reg.nmdStatus 5 = true ∧ t.regBit Reg.tierStatus 1 = true ∧
      t.saf.safe = s.saf.safe) ∧
  (∀ (s : State) (n : Nat), n < 12 → (s.nmdOf n).state ≠ .grey → s.tiers.anyLost = true → s.saf.safe = false →
    ∃ t, exec (.nmdFenceReq n) s = .next t ∧ t.saf.safe = true ∧ t.saf.causeClass = 0x04 ∧ t.tiers.firstLost = s.tiers.firstLost) ∧
  (∀ (s : State) (n : Nat), 11 < n → exec (.nmdFenceReq n) s = .next (s.raise Reg.nmdStatus 6)) ∧
  (∀ (s : State) (n : Nat), n < 12 → (s.nmdOf n).state = .grey → s.upd.length = 12 →
    Sparse.wf (fun _ => Tint.init) s.tints = true → Sparse.wf (fun _ => Ses.init) s.ses = true →
    ∃ t, exec (.stackLost n) s = .next t ∧ (t.updOf n).queue = [] ∧ (t.updOf n).running = false ∧ (t.updOf n).result = none ∧
      (∀ k, (s.tintOf k).state ≠ .free → (s.tintOf k).stack = n → (t.tintOf k).stack = (n + 6) % 12) ∧
      (∀ k, (s.sesOf k).home = n → (s.sesOf k).state = .opened → (t.sesOf k).state ≠ .opened) ∧
      t = { s with regs := t.regs, tiers := t.tiers, tints := t.tints, ses := t.ses, upd := t.upd, sets := t.sets, items := t.items,
                   saf := t.saf, clog := t.clog, mbx := t.mbx, free := t.free } ∧ t.saf.safe = s.saf.safe ∧ t.tiers.live = s.tiers.live)

/-- PASS1, PASS2, DROP, UPDATE_PASS_DONE, UPDATE_DEADLINE. The front command of a live NMD starts in an UPDATE cue that
holds its stacks, when its step's pass is placed in the frame and the house retake window is over: the engine runs
from the present time, pass 1 will return its partials and their number, and the step's next statistics, and pass 2
its next parameters, are those of the pass. A malformed command gets status BAD and leaves the queue with the engine
idle. DROP frees the matrix's next copies, ends with DONE and leaves the queue. A pass that has had its time inside
its cue writes its words and their count into the result area and status DONE, the step's partials are its words, and
the next command is at the front. An unread slice ends the pass with the command gone and counts one abandoned step.
At the commit point and the frame's end no engine holds a pass of a step that is late. (12 R347, 12 R352, 12 R357, 12
R360, 12 R361, 12 R362, 12 R364, 12 R363) -/
def Obligations.UpdateEnginesRunTheirCommands : Prop :=
  (∀ (s : State) (n : Nat) (k : UpdCmd) (m : Mat), n < 12 → s.frontCmd n 1 = some k → s.cmdOk n k = true →
    s.passMayStart (updF k 2 2) .pass1 (updStacks n k) = true → s.cmdMat k = some m → s.upd.length = 12 →
    Sparse.wf (fun _ => Tint.init) s.tints = true →
    let r := pass1 m (s.objTiles m.stats) (s.sliceObjs m) (BitVec.ofNat 32 (updF k 0x20 4)) (updF k 4 4)
    ∃ t, exec (.pass1 n) s = .next t ∧ t.nextTiles (updF k 2 2) m.stats = r.1 ∧
      t.updOf n = { s.updOf n with running := true, paused := false, startTb := s.now, doneNs := 0, slotTb := some s.now,
                                   result := some (r.2, r.2.length) } ∧
      (∀ i, i ≠ n → t.updOf i = s.updOf i) ∧ (∀ i, i ≠ updF k 2 2 → t.tintOf i = s.tintOf i) ∧
      t = { s with upd := t.upd, tints := t.tints }) ∧
  (∀ (s : State) (n : Nat) (k : UpdCmd) (m : Mat) (o : Obj), n < 12 → s.frontCmd n 2 = some k → s.cmdOk n k = true →
    s.passMayStart (updF k 2 2) .pass2 (updStacks n k) = true → s.cmdMat k = some m → s.obj m.param = some o →
    s.upd.length = 12 → Sparse.wf (fun _ => Tint.init) s.tints = true →
    let r := pass2 m o (s.nextTiles (updF k 2 2) m.stats) (s.sliceObjs m) (BitVec.ofNat 32 (updF k 0x20 4)) (BitVec.ofNat 32 (updF k 0x24 4))
      (BitVec.ofNat 32 (updF k 0x28 4)) (updF k 4 4) (updF k 0x32 1) (fun i => (Config.free32 (s.free + i)).toNat % 65536)
    ∃ t, exec (.pass2 n) s = .next t ∧ t.nextTiles (updF k 2 2) m.param = r.tiles ∧ (t.updOf n).running = true ∧
      (t.updOf n).result = some (r.pairs, r.kept) ∧ (t.updOf n).startTb = s.now ∧ (t.updOf n).queue = (s.updOf n).queue ∧
      (∀ i, i ≠ n → t.updOf i = s.updOf i) ∧ (∀ i, i ≠ updF k 2 2 → t.tintOf i = s.tintOf i) ∧
      t = { s with upd := t.upd, tints := t.tints, free := t.free }) ∧
  (∀ (s : State) (n op : Nat) (k : UpdCmd), n < 12 → s.frontCmd n op = some k → s.cmdOk n k = false → s.upd.length = 12 → s.memoryWf →
    updF k 0x2C 4 < 2147483648 → op = 1 ∨ op = 2 ∨ op = 3 →
    ∃ t, exec (if op = 1 then .pass1 n else if op = 2 then .pass2 n else .drop n) s = .next t ∧
      (t.updOf n).queue = (s.updOf n).queue.drop 1 ∧ (t.updOf n).running = false ∧
      t.readF (64 * updF k 0x2C 4) 4 = leBytes 4 4 ∧
      (∀ a, (a < 64 * updF k 0x2C 4 ∨ 64 * updF k 0x2C 4 + 4 ≤ a) → t.byteF a = s.byteF a) ∧
      t = { s with upd := t.upd, tiers := { s.tiers with f := t.tiers.f, fErr := t.tiers.fErr } }) ∧
  (∀ (s : State) (n : Nat) (k : UpdCmd), n < 12 → s.frontCmd n 3 = some k → s.cmdOk n k = true → s.upd.length = 12 → s.memoryWf →
    updF k 0x2C 4 < 2147483648 → Sparse.wf (fun _ => Tint.init) s.tints = true →
    ∃ t, exec (.drop n) s = .next t ∧ (t.updOf n).queue = (s.updOf n).queue.drop 1 ∧ (t.updOf n).running = false ∧
      (∀ e, e ∈ (t.tintOf (updF k 2 2)).train.cur.next ↔
        e ∈ (s.tintOf (updF k 2 2)).train.cur.next ∧ e.1 ≠ updF k 8 4 ∧ e.1 ≠ updF k 0x0C 4) ∧
      t.readF (64 * updF k 0x2C 4) 4 = leBytes 4 1 ∧
      (∀ a, (a < 64 * updF k 0x2C 4 ∨ 64 * updF k 0x2C 4 + 4 ≤ a) → t.byteF a = s.byteF a) ∧
      t = { s with upd := t.upd, tints := t.tints, tiers := { s.tiers with f := t.tiers.f, fErr := t.tiers.fErr } }) ∧
  (∀ (s : State) (n : Nat) (k : UpdCmd) (q : List UpdCmd) (ws : List Word) (count t0 e : Nat), n < 12 → (s.updOf n).queue = k :: q →
    (s.updOf n).result = some (ws, count) → (s.updOf n).slotTb = some t0 → (s.updOf n).running = true → (s.updOf n).paused = false →
    s.updCueEnd (updStacks n k) = some e → t0 + (s.passNs k - (s.updOf n).doneNs) ≤ e → s.saf.safe = false → s.upd.length = 12 →
    s.ports = [] → s.memoryWf → s.regsWf → updF k 0x2C 4 < 2147483648 → Sparse.wf (fun _ => Tint.init) s.tints = true →
    ∃ t, exec (.updatePassDone n false) s = .next t ∧ (t.updOf n).queue = q ∧ (t.updOf n).running = false ∧ (t.updOf n).result = none ∧
      t.readF (64 * updF k 0x2C 4) 4 = leBytes 4 1 ∧ t.readF (64 * updF k 0x2C 4 + 4) 4 = leBytes 4 count ∧
      t.readF (64 * updF k 0x2C 4 + 8) (4 * ws.length) = ws.flatMap (fun w => leBytes 4 w.toNat) ∧
      (∀ a, (a < 64 * updF k 0x2C 4 ∨ 64 * updF k 0x2C 4 + 8 + 4 * ws.length ≤ a) → t.byteF a = s.byteF a) ∧
      t.partialsOf (updF k 2 2) (updF k 8 4) = ws ∧ s.regsBut t [Reg.nmdUpdStatus] ∧ (updF k 0 1 = 1 → t.regs = s.regs) ∧
      t = { s with tbm := t.tbm, ports := t.ports, upd := t.upd, tints := t.tints, regs := t.regs, tiers := { s.tiers with f := t.tiers.f, fErr := t.tiers.fErr } }) ∧
  (∀ (s : State) (n : Nat) (k : UpdCmd) (q : List UpdCmd) (r : List Word × Nat) (t0 e : Nat), n < 12 → (s.updOf n).queue = k :: q →
    (s.updOf n).result = some r → (s.updOf n).slotTb = some t0 → (s.updOf n).running = true → (s.updOf n).paused = false →
    s.updCueEnd (updStacks n k) = some e → t0 + (s.passNs k - (s.updOf n).doneNs) ≤ e → s.saf.safe = false → s.upd.length = 12 → s.regsWf →
    ∃ t, exec (.updatePassDone n true) s = .next t ∧ (∀ i < 12, ∀ c ∈ (t.updOf i).queue, updF c 2 2 = updF k 2 2 → updF c 0 1 = 3) ∧
      t.regBit Reg.nmdUpdStatus 3 = true ∧ t.regBit Reg.nmdUpdStatus 1 = true ∧
      t.reg Reg.nmdUpdAbandonCnt = satAdd 32 (s.reg Reg.nmdUpdAbandonCnt) 1) ∧
  (∀ (s : State) (n : Nat), n < 12 → s.saf.safe = false → s.tbm.cpPassed = true → s.upd.length = 12 →
    ∃ t, exec (.updateDeadline n) s = .next t ∧
      (∀ i < 12, ∀ c ∈ (t.updOf i).queue, updF c 0 1 = 1 → c ∈ (s.updOf i).queue ∧ updF c 2 2 ∉ s.tintsWith n 1) ∧
      t = { s with regs := t.regs, tints := t.tints, upd := t.upd, tiers := { s.tiers with f := t.tiers.f, fErr := t.tiers.fErr }, clog := t.clog, free := t.free })

/-- PLATE_LOAD, PLATE_PART_ARRIVED, PLATE_LOAD_END, PLATE_UNLOAD, DIST_TIMEOUT. A load is refused with cfg_err while
sheets may be played, ends with detail PRESENT where a plate is loaded, with a read failure where the host's manifest
did not come, and with the first failing check's detail; a sound manifest becomes the load in progress, in streamed or
resident mode by TIER_CTRL, or ends with RESIDENT or SPACE. From the host each part in order joins the parts done when
its digest matches, is noted at a first mismatch and ends the load with DIGEST at the second. When every part is done
and the plate's banks are ON, the load ends with code 0, the plate is loaded and the DORMANT tints of its digest are
COLD. An unload ends a running load with ABORTED; else it takes the plate away, empties the sheet store and frees the
window. An answer of a neighbour that has not come in 1 s ends a load with SOURCE and a bulk transfer with
NOT_PERMITTED. Where the banks lie is a free choice (log entry 3). (10 R282, 10 R283, 10 R284, 10 R285, 10 R286, 10
Table 10.3, 15 R441, 15 R445) -/
def Obligations.PlatesAreLoadedCheckedAndUnloaded : Prop :=
  (∀ (s : State) (m : Option Blob), s.plate.load = none → s.plate.asking = none → s.regBit Reg.shtCtrl 0 = true →
    exec (.plateLoad m) s = .next (s.raise Reg.tntStatus 4)) ∧
  (∀ (s : State) (m : Option Blob), s.plate.load = none → s.plate.asking = none → s.regBit Reg.shtCtrl 0 = false → s.regsWf →
    (s.plate.plate.isSome = true ∨ (s.regBit Reg.tntPlateCtrl 2 = false ∧ (m = none ∨ ∃ b, m = some b ∧ s.judgeManifest b true ≠ 0))) →
    ∃ t, exec (.plateLoad m) s = .next t ∧
      t.plate.detail = (if s.plate.plate.isSome = true then 1 else match m with | none => 8 | some b => BitVec.ofNat 8 (s.judgeManifest b true)) ∧
      t.plate.code = BitVec.ofNat 8 (plateStatus t.plate.detail.toNat) ∧ t.plate.plate = s.plate.plate ∧ t.plate.load = none ∧
      t.regBit Reg.tntPlateCtrl 0 = false ∧ s.regsBut t [Reg.tntPlateCtrl] ∧ t = { s with plate := t.plate, regs := t.regs }) ∧
  (∀ (s : State) (b : Blob), s.plate.load = none → s.plate.asking = none → s.regBit Reg.shtCtrl 0 = false → s.plate.plate = none →
    s.regBit Reg.tntPlateCtrl 2 = false → s.judgeManifest b true = 0 → s.regsWf →
    ∃ t, exec (.plateLoad (some b)) s = .next t ∧ t.plate.plate = none ∧
      ((t.plate.load = some { plate := parseManifest b (s.regBit Reg.tierCtrl 0), port := none, done := [], missed := [] } ∧
          t.regBit Reg.tntPlateCtrl 0 = true) ∨
        (t.plate.load = none ∧ (t.plate.detail = 5 ∨ t.plate.detail = 6) ∧ t.regBit Reg.tntPlateCtrl 0 = false)) ∧
      (s.regBit Reg.tierCtrl 0 = true → 1184 < (parseManifest b true).runs.sum → t.plate.detail = 5) ∧
      t = { s with plate := t.plate, regs := t.regs, tiers := t.tiers, banks := t.banks, free := t.free }) ∧
  (∀ (s : State) (l : PlateLoad) (k : BitVec 256) (bs : Blob) (ts : List Blob), s.plate.load = some l → l.port = none →
    l.done.length < l.plate.layers.length + 2 → l.done.length ∉ l.done → s.sec.plateKey = some (k, l.plate.digest) →
    openPart k (l.plate.partStream l.done.length) (l.plate.part (l.plate.partStream l.done.length)).tiles
      (packedSize (l.plate.part (l.plate.partStream l.done.length)).fmt (l.plate.part (l.plate.partStream l.done.length)).blk) bs = some ts →
    (sha512 ts.flatten = (l.plate.part (l.plate.partStream l.done.length)).digest →
      ∃ (t : State) (l' : PlateLoad), exec (.platePartArrived l.done.length (some bs)) s = .next t ∧ t.plate.load = some l' ∧
        l'.done = l.done ++ [l.done.length] ∧ l'.plate = l.plate.putPart l.done.length ts ∧ l'.missed = l.missed ∧
        t = { s with plate := t.plate }) ∧
    (sha512 ts.flatten ≠ (l.plate.part (l.plate.partStream l.done.length)).digest → l.done.length ∉ l.missed →
      exec (.platePartArrived l.done.length (some bs)) s =
        .next { s with plate := { s.plate with load := some { l with missed := l.missed ++ [l.done.length] } } }) ∧
    (sha512 ts.flatten ≠ (l.plate.part (l.plate.partStream l.done.length)).digest → l.done.length ∈ l.missed →
      ∃ t, exec (.platePartArrived l.done.length (some bs)) s = .next t ∧ t.plate.load = none ∧ t.plate.detail = 7)) ∧
  (∀ (s : State) (l : PlateLoad), s.plate.load = some l → l.plate.layers.length + 2 ≤ l.done.length → s.plateBanksOn l.plate = true →
    Sparse.wf (fun _ => Tint.init) s.tints = true → s.fullParam = none → s.regsWf →
    ∃ t, exec .plateLoadEnd s = .next t ∧ t.plate.plate = some l.plate ∧ t.plate.load = none ∧ t.plate.code = 0 ∧ t.plate.detail = 0 ∧
      t.regBit Reg.tntPlateCtrl 0 = false ∧
      (∀ k, t.tintOf k = if (s.tintOf k).state = .dormant ∧ (s.tintOf k).plate = l.plate.digest then { s.tintOf k with state := .cold }
        else s.tintOf k) ∧
      t = { s with plate := t.plate, regs := t.regs, tiers := { s.tiers with f := t.tiers.f, fErr := t.tiers.fErr }, tints := t.tints, reel := t.reel }) ∧
  (∀ (s : State), s.regBit Reg.shtCtrl 0 = true ∨ s.anyActive = true → exec .plateUnload s = .next (s.raise Reg.tntStatus 4)) ∧
  (∀ (s : State), s.regBit Reg.shtCtrl 0 = false → s.anyActive = false → (s.plate.load.isSome = true ∨ s.plate.asking.isSome = true) →
    ∃ t, exec .plateUnload s = .next t ∧ t.plate.load = none ∧ t.plate.asking = none ∧ t.plate.detail = 10 ∧ t.plate.code = 0x32 ∧
      t.plate.plate = s.plate.plate) ∧
  (∀ (s : State) (p : Plate), s.regBit Reg.shtCtrl 0 = false → s.anyActive = false → s.plate.load = none → s.plate.asking = none →
    s.plate.plate = some p →
    ∃ t, exec .plateUnload s = .next t ∧ t.plate.plate = none ∧ (∀ o k, t.sheet o k = none) ∧ t.tiers.winBanks = 0 ∧ t.tiers.headBanks = 0 ∧
      t.tbm = s.tbm ∧ t.saf = s.saf ∧ t.regs = s.regs ∧ t.prt = s.prt) ∧
  (∀ (s : State) (n b0 : Nat) (d : Dist), (s.port n).dist = some d → d.since = some b0 → d.receiver = true →
    ∃ t, exec (.distTimeout n) s = .next t ∧ t.plate.load = none ∧ t.plate.asking = none ∧ t.plate.detail = 9) ∧
  (∀ (s : State) (n b0 : Nat) (k : Bulk), (s.port n).dist = none → (s.port n).bulk = some k → k.since = some b0 → s.regsWf →
    s.reel.port.length = 8 → n < 8 →
    ∃ t, exec (.distTimeout n) s = .next t ∧ t.reel.bulkCode = 0x31 ∧ (t.port n).bulk = none ∧ (t.port n).use = .free ∧
      t.regBit Reg.reelBulkCtrl 31 = false ∧ s.regsBut t [Reg.reelBulkCtrl] ∧ t = { s with tbm := t.tbm, reel := t.reel, regs := t.regs })

/-- TINT_REGISTER to WITHDRAW_COMPLETE. TINT_REGISTER of a free tint of the partition with an import key gives the
descriptor the status of the first check that fails, and then changes no tint, or makes the tint REGISTERING with the
image's digest and one component for each it holds; its end makes it COLD and completes with OK. TINT_LOAD, TINT_PIN
and the director's claim of a COLD tint that the claim rule gives a slot make it LOADING in that slot, whose
generation rises; a refused load completes with the refusal's status; a load or pin of a HOT tint completes with OK.
The first tick after the last tile makes a LOADING tint HOT. A request to evict or withdraw is noted, and waits for
the commit point later than its observation; at its tick a HOT tint is EVICTING, a withdrawal makes any tint
WITHDRAWING and not pinned; when no item is in passage an eviction leaves the tint at rest without its slot, whose
bytes are zero, and at its end a withdrawn tint's entry is FREE. Other tints stay. (10 R286, 10 R290, 10 R293, 10
R294, 10 R295, 10 R297, 10 R298, 10 R299, 10 R312, 10 Table 10.7) -/
def Obligations.TintsAreRegisteredLoadedEvictedAndWithdrawn : Prop :=
  (∀ (s : State) (k : ItemKey) (i : Item) (w img : Option Blob), s.fresh k 0x10 = some i → s.tintInRange k.set (i.field 0x10 2) = true →
    (s.tintOf (i.field 0x10 2)).state = .free → k.set < 32 → (∃ p m, s.sec.part[k.set]? = some p ∧ p.imp = some m) →
    Sparse.wf (fun _ => Tint.init) s.tints = true →
    ∃ t, exec (.tintRegister k w img) s = .next t ∧ (∀ n, n ≠ i.field 0x10 2 → t.tintOf n = s.tintOf n) ∧
      t = { s with saf := t.saf, items := t.items, tints := t.tints, tiers := t.tiers, free := t.free } ∧
      match ({ s with saf := t.saf } : State).judgeTint k.set (i.field 0x10 2) (i.field 0x20 8) w img with
      | .error e => t.completed k e ∧ t.tints = s.tints ∧ t.tiers = s.tiers
      | .ok b => t.uncompleted k ∧ (t.tintOf (i.field 0x10 2)).state = .registering ∧ (t.tintOf (i.field 0x10 2)).owner = k.set ∧
          (t.tintOf (i.field 0x10 2)).digest = sha512 b ∧ (t.tintOf (i.field 0x10 2)).regItem = some k ∧
          (t.tintOf (i.field 0x10 2)).comps.length = leAt b 6 2) ∧
  (∀ (s : State) (n : Nat) (k : ItemKey), (s.tintOf n).regItem = some k → (s.tintOf n).state = .registering → s.uncompleted k →
    Sparse.wf (fun _ => Tint.init) s.tints = true →
    ∃ t, exec (.tintRegisterDone n) s = .next t ∧ t.tintOf n = { s.tintOf n with state := .cold, regItem := none } ∧ t.completed k 0 ∧
      (∀ m, m ≠ n → t.tintOf m = s.tintOf m) ∧ t = { s with tints := t.tints, items := t.items }) ∧
  (∀ (s : State) (c : Instr) (n h : Nat) (named : Option Nat) (g : BitVec 16), (s.tintOf n).state = .cold →
    s.claimSlot n named g = .ok h → Sparse.wf (fun _ => Tint.init) s.tints = true → Sparse.wf (fun _ => HotSlot.init) s.slots = true →
    ((∃ k i, c = .tintLoad k ∧ s.fresh k 0x11 = some i ∧ n = i.field 0x10 2 ∧ s.registered k.set n = true ∧
        s.earlier k i (fun op => op = 0x11 || op = 0x12) = false ∧ g = BitVec.ofNat 16 (i.field 0x14 2) ∧
        named = if i.field 0x12 2 = 0xFFFF then none else some (i.field 0x12 2)) ∨
      (∃ k i, c = .tintPin k ∧ s.fresh k 0x12 = some i ∧ n = i.field 0x10 2 ∧ s.registered k.set n = true ∧
        s.earlier k i (fun op => op = 0x11 || op = 0x12) = false ∧ i.field 0x12 1 % 2 = 1 ∧ named = none) ∨
      (c = .directorClaim n named ∧ s.saf.safe = false ∧ ∀ x, named = some x → g = (s.slotOf x).gen)) →
    ∃ t, exec c s = .next t ∧ (t.tintOf n).state = .loading ∧ (t.tintOf n).slot = some h ∧ (t.tintOf n).moved = 0 ∧
      ((∃ k, c = .tintPin k) → (t.tintOf n).pinned = true) ∧
      (t.slotOf h).tint = some n ∧ (t.slotOf h).gen = (s.slotOf h).gen + 1 ∧ (∀ m, m ≠ n → t.tintOf m = s.tintOf m) ∧
      (∀ x, x ≠ h → t.slotOf x = s.slotOf x) ∧ t = { s with tints := t.tints, slots := t.slots, items := t.items }) ∧
  (∀ (s : State) (k : ItemKey) (i : Item) (e : Nat), s.fresh k 0x11 = some i → s.registered k.set (i.field 0x10 2) = true →
    s.earlier k i (fun op => op = 0x11 || op = 0x12) = false → (s.tintOf (i.field 0x10 2)).state = .cold →
    s.claimSlot (i.field 0x10 2) (if i.field 0x12 2 = 0xFFFF then none else some (i.field 0x12 2)) (BitVec.ofNat 16 (i.field 0x14 2)) = .error e →
    ∃ t, exec (.tintLoad k) s = .next t ∧ t.completed k e ∧ t = { s with items := t.items, regs := t.regs }) ∧
  (∀ (s : State) (k : ItemKey) (i : Item) (op : Nat) (c : Instr), s.fresh k op = some i → (op = 0x11 ∧ c = .tintLoad k ∨ op = 0x12 ∧ c = .tintPin k) →
    s.registered k.set (i.field 0x10 2) = true → s.earlier k i (fun op => op = 0x11 || op = 0x12) = false →
    (s.tintOf (i.field 0x10 2)).state = .hot → Sparse.wf (fun _ => Tint.init) s.tints = true →
    ∃ t, exec c s = .next t ∧ t.completed k 0 ∧ (t.tintOf (i.field 0x10 2)).state = .hot ∧
      (t.tintOf (i.field 0x10 2)).pinned = (if op = 0x11 then (s.tintOf (i.field 0x10 2)).pinned else decide (i.field 0x12 1 % 2 = 1)) ∧
      t = { s with tints := t.tints, items := t.items, free := t.free }) ∧
  (∀ (s : State) (n : Nat), (s.tintOf n).state = .loading → (s.tintOf n).hotDue = true → Sparse.wf (fun _ => Tint.init) s.tints = true →
    ∃ t, exec (.tintHot n) s = .next t ∧ t.tintOf n = { s.tintOf n with state := .hot, hotDue := false, loadItem := none } ∧
      (∀ m, m ≠ n → t.tintOf m = s.tintOf m) ∧ t = { s with tints := t.tints, items := t.items, free := t.free }) ∧
  (∀ (s : State) (k : ItemKey) (i : Item), s.registered k.set (i.field 0x10 2) = true → (s.tintOf (i.field 0x10 2)).state ≠ .withdrawing →
    Sparse.wf (fun _ => Tint.init) s.tints = true →
    (s.fresh k 0x13 = some i → (s.tintOf (i.field 0x10 2)).evict = none → ∃ t, exec (.tintEvict k) s = .next t ∧
      t.tintOf (i.field 0x10 2) = { s.tintOf (i.field 0x10 2) with
                                    evict := some (s.waitFrom i.obs.toNat), evictItems := (s.tintOf (i.field 0x10 2)).evictItems ++ [k] } ∧
      t = { s with tints := t.tints, items := t.items }) ∧
    (s.fresh k 0x14 = some i → (s.tintOf (i.field 0x10 2)).withdraw = none → ∃ t, exec (.tintWithdraw k) s = .next t ∧
      t.tintOf (i.field 0x10 2) = { s.tintOf (i.field 0x10 2) with
                                    withdraw := some (s.waitFrom i.obs.toNat), withdrawItems := (s.tintOf (i.field 0x10 2)).withdrawItems ++ [k] } ∧
      t = { s with tints := t.tints, items := t.items })) ∧
  (∀ (s : State) (n : Nat), (s.tintOf n).evict = some .due → (s.tintOf n).withdraw ≠ some .due → (s.tintOf n).state = .hot →
    s.saf.safe = false → Sparse.wf (fun _ => Tint.init) s.tints = true → Sparse.wf (fun _ => Ses.init) s.ses = true →
    ∃ t, exec (.evictionEffect n) s = .next t ∧ t.tintOf n = { s.tintOf n with evict := s.nextEvict ((s.tintOf n).evictItems.filter fun k => !s.inEffect k),
                                                                                 pinned := false, state := .evicting } ∧
      (∀ c ∈ s.leases (s.tintOf n).owner n, (t.sesOf c).reloadDue = true) ∧ t = { s with tints := t.tints, ses := t.ses }) ∧
  (∀ (s : State) (n h : Nat), (s.tintOf n).state = .evicting → (s.tintOf n).slot = some h → (s.tintOf n).queued = none →
    (s.tintOf n).evict = none → s.inPassageWith (s.tintOf n).owner n = false → s.saf.safe = false → s.memoryWf →
    Sparse.wf (fun _ => Tint.init) s.tints = true → Sparse.wf (fun _ => HotSlot.init) s.slots = true →
    ∃ t, exec (.evictionComplete n) s = .next t ∧ (t.tintOf n).state = s.restState n ∧ (t.tintOf n).slot = none ∧
      t.slotOf h = { s.slotOf h with tint := none } ∧
      (∀ a, t.byteF a = if (s.slotOf h).base ≤ a / 16777216 ∧ a / 16777216 < (s.slotOf h).base + (s.part (s.tintOf n).owner).alloc.slotBanks
        then 0 else s.byteF a) ∧ (∀ m, m ≠ n → t.tintOf m = s.tintOf m) ∧
      t = { s with tints := t.tints, slots := t.slots, items := t.items,
                   tiers := { s.tiers with f := t.tiers.f, fErr := t.tiers.fErr, running := t.tiers.running } }) ∧
  (∀ (s : State) (n : Nat), (s.tintOf n).withdraw = some .due → s.saf.safe = false → Sparse.wf (fun _ => Tint.init) s.tints = true →
    ∃ t, exec (.withdrawEffect n) s = .next t ∧ (t.tintOf n).state = .withdrawing ∧ (t.tintOf n).pinned = false ∧
      (t.tintOf n).withdraw = none ∧ (t.tintOf n).slot = (s.tintOf n).slot ∧ (∀ m, m ≠ n → t.tintOf m = s.tintOf m) ∧
      (∀ m ∈ t.tiers.running, ¬ (m.op = 7 ∧ m.tint = n))) ∧
  (∀ (s : State) (n : Nat), (s.tintOf n).state = .withdrawing → Sparse.wf (fun _ => Tint.init) s.tints = true →
    ∃ t, exec (.withdrawComplete n) s = .next t ∧ t.tintOf n = Tint.init ∧ (∀ m, m ≠ n → t.tintOf m = s.tintOf m) ∧
      t = { s with tints := t.tints, slots := t.slots, items := t.items,
                   tiers := { s.tiers with f := t.tiers.f, fErr := t.tiers.fErr, objs := t.tiers.objs, hPlaces := t.tiers.hPlaces } })

/-- SESSION_OPEN, SESSION_CLOSE, SESSION_CLOSE_EFFECT, SESSION_SCRUB_DONE, SERVE_STEP, SERVE_PREFILL. SESSION_OPEN of a
free context of the partition for a registered tint, where tier S has room, opens it at position 0 with one extent in
tier S, a home stack among those with room and the placement's extent count, and completes with OK; which of those
stacks is a free choice (log entry 33). SESSION_CLOSE of an open context is noted and waits for the commit point later
than its observation; at its tick the context is CLOSING, keeps no extents, and each of its open items is completed;
after the scrub it is FREE and its close descriptors are completed. A serve item that its checks let in waits, unless
it runs next and may not write its positions; a step past the last position completes with POSITION_LIMIT and raises
SES_STATUS.pos_limit; one whose next extent has no room with NOT_PERMITTED; a prefill whose tokens did not come
completes with UNCORRECTABLE. For a bay bound to a tint, router slot s below E is expert s of the plate, slot E + j
the added expert j of the tint for the layer, and any other slot's logit is minus infinity. That 16,777,216 positions
may be held is the model's reading (log entry 9). Other contexts stay. (10 R303, 10 R304, 10 R305, 10 R306, 10 R307,
10 R308, 10 R309, 10 R310, 10 R311, 08 R231, 08 R232, 08 R233) -/
def Obligations.SessionsOpenServeAndClose : Prop :=
  (∀ (s : State) (k : ItemKey) (i : Item), s.fresh k 0x18 = some i → s.sessionPlacement k.set 0xFFFF (i.field 0x14 4) = none →
    s.mayLease k.set (i.field 0x12 2) = true → s.sessionRoom k.set = true → i.field 0x10 2 ≠ 0xFFFF → s.ctxInRange k.set (i.field 0x10 2) = true →
    (s.sesOf (i.field 0x10 2)).state = .free → Sparse.wf (fun _ => Ses.init) s.ses = true →
    ∃ t, exec (.sessionOpen k) s = .next t ∧ t.completed k 0 ∧ (t.sesOf (i.field 0x10 2)).state = .opened ∧
      (t.sesOf (i.field 0x10 2)).tint = i.field 0x12 2 ∧ (t.sesOf (i.field 0x10 2)).owner = k.set ∧
      (t.sesOf (i.field 0x10 2)).positions = 0 ∧ (t.sesOf (i.field 0x10 2)).sExt = 1 ∧ (t.sesOf (i.field 0x10 2)).hExt = 0 ∧
      (t.sesOf (i.field 0x10 2)).sExtents = plExtents (i.field 0x14 4) ∧
      (t.sesOf (i.field 0x10 2)).home ∈ s.stacksWith s.openBytes ∧
      (∀ n, n ≠ i.field 0x10 2 → t.sesOf n = s.sesOf n) ∧ t = { s with ses := t.ses, items := t.items, saf := t.saf, tiers := t.tiers, free := t.free }) ∧
  (∀ (s : State) (k : ItemKey) (i : Item), s.fresh k 0x18 = some i →
    (s.sessionPlacement k.set 0xFFFF (i.field 0x14 4) = none ∧ (s.mayLease k.set (i.field 0x12 2) = false ∨ s.sessionRoom k.set = false)) →
    ∃ t, exec (.sessionOpen k) s = .next t ∧ t.completed k 0x31 ∧ t = { s with items := t.items }) ∧
  (∀ (s : State) (k : ItemKey) (i : Item), s.fresh k 0x19 = some i → s.ctxInRange k.set i.ctxNo = true → (s.sesOf i.ctxNo).state = .opened →
    (s.sesOf i.ctxNo).close = none → Sparse.wf (fun _ => Ses.init) s.ses = true →
    ∃ t, exec (.sessionClose k) s = .next t ∧ t.uncompleted k ∧
      t.sesOf i.ctxNo = { s.sesOf i.ctxNo with close := some (s.waitFrom i.obs.toNat), closeItems := (s.sesOf i.ctxNo).closeItems ++ [k] } ∧
      (∀ n, n ≠ i.ctxNo → t.sesOf n = s.sesOf n) ∧ t = { s with ses := t.ses, items := t.items }) ∧
  (∀ (s : State) (c : Nat), (s.sesOf c).close = some .due → (s.sesOf c).state = .opened → s.saf.safe = false →
    Sparse.wf (fun _ => Ses.init) s.ses = true →
    ∃ t, exec (.sessionCloseEffect c) s = .next t ∧ (t.sesOf c).state = .closing ∧ (t.sesOf c).sExt = 0 ∧ (t.sesOf c).hExt = 0 ∧
      (t.sesOf c).inPassage = false ∧ (t.sesOf c).closeItems = (s.sesOf c).closeItems ∧
      (∀ e ∈ t.items, ofSession (s.sesOf c).owner c e.1 e.2 = true → e.2.done.isSome = true) ∧
      (∀ n, n ≠ c → t.sesOf n = s.sesOf n) ∧ t = { s with ses := t.ses, items := t.items, tiers := t.tiers }) ∧
  (∀ (s : State) (c : Nat), (s.sesOf c).state = .closing → (s.sesOf c).queued = none → Sparse.wf (fun _ => Ses.init) s.ses = true →
    ∃ t, exec (.sessionScrubDone c) s = .next t ∧ t.sesOf c = Ses.init ∧
      (∀ k ∈ (s.sesOf c).closeItems, ∀ i, t.item? k = some i → i.done.isSome = true) ∧
      (∀ n, n ≠ c → t.sesOf n = s.sesOf n) ∧ t = { s with ses := t.ses, items := t.items }) ∧
  (∀ (s : State) (k : ItemKey) (i : Item) (n : Nat), s.fresh k 1 = some i → s.sessionEarlier k i = false → s.serveCheck k i = .ok n →
    s.tokenOk n (i.field 0x14 4) = true → Sparse.wf (fun _ => Ses.init) s.ses = true →
    let room := (s.place i.ctxNo (i.field 0x18 4)).growRoom i.ctxNo ((s.sesOf i.ctxNo).positions + 1)
    (s.sessionHead k.set i.ctxNo ≠ some k ∨ ((s.sesOf i.ctxNo).positions < 16777216 ∧ room = true) →
      ∃ t, exec (.serveStep k) s = .next t ∧ t.item? k = some { i with phase := .waiting } ∧
        (t.sesOf i.ctxNo).positions = (s.sesOf i.ctxNo).positions ∧
        (plMode (i.field 0x18 4) ≠ 0 → (t.sesOf i.ctxNo).sExtents = plExtents (i.field 0x18 4)) ∧
        t = { s with ses := t.ses, items := t.items, regs := t.regs }) ∧
    (s.sessionHead k.set i.ctxNo = some k → (s.sesOf i.ctxNo).positions < 16777216 → room = false →
      ∃ t, exec (.serveStep k) s = .next t ∧ t.completed k 0x31 ∧ t = { s with ses := t.ses, items := t.items }) ∧
    (s.sessionHead k.set i.ctxNo = some k → 16777216 ≤ (s.sesOf i.ctxNo).positions → s.regsWf →
      ∃ t, exec (.serveStep k) s = .next t ∧ t.completed k 0x13 ∧ t.regBit Reg.sesStatus 0 = true ∧ s.regsBut t [Reg.sesStatus])) ∧
  (∀ (s : State) (k : ItemKey) (i : Item) (n : Nat) (bs : Blob), s.fresh k 2 = some i → s.sessionEarlier k i = false → s.serveCheck k i = .ok n →
    (∀ j < i.field 0x1C 4, s.tokenOk n (leAt bs (4 * j) 4) = true) → Sparse.wf (fun _ => Ses.init) s.ses = true →
    (s.sessionHead k.set i.ctxNo = some k →
      i.field 0x14 4 % 16777216 = (s.sesOf i.ctxNo).positions ∧ (s.sesOf i.ctxNo).positions + i.field 0x1C 4 ≤ 16777216 ∧
      (s.place i.ctxNo (i.field 0x18 4)).growRoom i.ctxNo ((s.sesOf i.ctxNo).positions + i.field 0x1C 4) = true) →
    ∃ t, exec (.servePrefill k (some bs)) s = .next t ∧
      t.item? k = some { i with phase := .waiting, ids := (List.range (i.field 0x1C 4)).map fun j => leAt bs (4 * j) 4 } ∧
      t = { s with ses := t.ses, items := t.items, regs := t.regs }) ∧
  (∀ (s : State) (k : ItemKey) (i : Item) (n : Nat), s.fresh k 2 = some i → s.sessionEarlier k i = false → s.serveCheck k i = .ok n →
    ∃ t, exec (.servePrefill k none) s = .next t ∧ t.completed k 0x21 ∧ t = { s with items := t.items }) ∧
  (∀ (s : State) (p : Plate) (n layer : Nat) (rows : List Word), s.plate.plate = some p →
    ∀ (slot : Nat) (w : Word), rows[slot]? = some w → (s.routerLogits n layer rows)[slot]? = some
      (if slot < p.experts ∨ (slot < p.experts + p.spareRouter ∧ ∃ c ∈ (s.tintOf n).comps, c.kind = 3 ∧ c.layer = layer ∧ p.experts + c.index = slot)
       then w else 0xFF800000))

/-- INSERT_PIN, INSERT_PIN_DONE, INSERT_UNPIN, INSERT, INSERT_WINDOW, INSERT_COMPLETE. A pin request is taken while no
pinning runs. A sound image of an existing partition, for a free slot and in banks it owns, is written to tier F at
its place and pinned with code 0; where the image did not come the code is 0x0E and no pin changes; the busy bit
clears either way. A slot without queued programs is unpinned. INSERT of the partition's pinned program, in the format
and size it takes, while the cadence is on, queues and waits; with no program in the slot it completes with
NOT_PERMITTED. At a cadence point of a running segment that leaves 37 ns the window is counted and opens; the front
program, allowed its banks, which meet no other access and hold no error, starts its first step on the lane there.
When the last step has drained, the program leaves the lane and completes with OK, its row going to the descriptor's
address. (10 R313, 10 R314, 10 R315, 10 R316, 10 R317, 10 Table 10.11, 02 R56, 02 R57, 04 R126, 13 R383) -/
def Obligations.InsertProgramsArePinnedAndRunInTheirWindows : Prop :=
  (∀ (s : State) (n o : Nat), s.ins.pinning = none → s.regsWf →
    ∃ t, exec (.insertPin n o) s = .next t ∧ t.ins = { s.ins with pinning := some (n % 64, o % 64) } ∧ t.regBit Reg.sesInsCtrl 31 = true ∧
      t.regFld Reg.sesInsCtrl 0 6 = n % 64 ∧ t.regFld Reg.sesInsCtrl 6 6 = o % 64 ∧ s.regsBut t [Reg.sesInsCtrl] ∧
      t = { s with ins := t.ins, regs := t.regs }) ∧
  (∀ (s : State) (n o : Nat) (b : Blob), s.ins.pinning = some (n, o) → o < 32 → s.ownerExists o = true →
    insertImageOk (slice b 0 (s.reg Reg.sesInsLen).toNat) (s.reg Reg.sesInsLen).toNat = true → s.pin n = none →
    (∀ k ∈ (64 * s.regFld Reg.sesInsRef 0 31 / 16777216) :: banksOf (64 * s.regFld Reg.sesInsRef 0 31) (s.reg Reg.sesInsLen).toNat,
      k < 1536 ∧ (s.bank k).owner = o) → s.regsWf → s.memoryWf → Sparse.wf (fun _ => none) s.ins.pins = true →
    ∃ (t : State) (p : Pin), exec (.insertPinDone (some b)) s = .next t ∧ t.ins.code = 0 ∧ t.ins.pinning = none ∧ t.pin n = some p ∧
      p.owner = o ∧ p.ref = s.regFld Reg.sesInsRef 0 31 ∧ p.digest = sha512 (slice b 0 (s.reg Reg.sesInsLen).toNat) ∧
      (∀ m, m ≠ n → t.pin m = s.pin m) ∧
      t.readF (64 * s.regFld Reg.sesInsRef 0 31) (slice b 0 (s.reg Reg.sesInsLen).toNat).length = slice b 0 (s.reg Reg.sesInsLen).toNat ∧
      (∀ a, a < 64 * s.regFld Reg.sesInsRef 0 31 ∨ 64 * s.regFld Reg.sesInsRef 0 31 + (slice b 0 (s.reg Reg.sesInsLen).toNat).length ≤ a →
        t.byteF a = s.byteF a) ∧
      t.regBit Reg.sesInsCtrl 31 = false ∧ s.regsBut t [Reg.sesInsCtrl] ∧
      t = { s with ins := t.ins, regs := t.regs, tiers := { s.tiers with f := t.tiers.f, fErr := t.tiers.fErr } }) ∧
  (∀ (s : State) (n o : Nat), s.ins.pinning = some (n, o) → s.regsWf →
    ∃ t, exec (.insertPinDone none) s = .next t ∧ t.ins = { s.ins with pinning := none, code := 0x0E } ∧
      t.regBit Reg.sesInsCtrl 31 = false ∧ s.regsBut t [Reg.sesInsCtrl] ∧ t = { s with ins := t.ins, regs := t.regs }) ∧
  (∀ (s : State) (n : Nat), Sparse.wf (fun _ => none) s.ins.pins = true →
    (s.pinBusy n = true → exec (.insertUnpin n) s = .next (s.raise Reg.sesStatus 2)) ∧
    (s.pinBusy n = false → ∃ t, exec (.insertUnpin n) s = .next t ∧ t.pin n = none ∧ (∀ m, m ≠ n → t.pin m = s.pin m) ∧
      t = { s with ins := { s.ins with pins := t.ins.pins } })) ∧
  (∀ (s : State) (k : ItemKey) (i : Item) (p : Pin), s.fresh k 0x20 = some i → s.pin (i.field 0x10 1) = some p → s.cadenceCycles ≠ 0 →
    p.owner = k.set → i.field 0x11 1 = p.inFmt → i.field 0x12 1 = p.inK →
    fld i.raw (8 * 0x20 + fmtBits p.inFmt * p.inK) (256 - fmtBits p.inFmt * p.inK) = 0 →
    ∃ t, exec (.insert k) s = .next t ∧ (∀ x, x ∈ t.ins.queue ↔ x ∈ s.ins.queue ∨ x = k) ∧
      (0 < s.ins.step → t.ins.queue.head? = if s.ins.queue = [] then some k else s.ins.queue.head?) ∧
      t.item? k = some { i with phase := .waiting } ∧ t = { s with ins := { s.ins with queue := t.ins.queue }, items := t.items }) ∧
  (∀ (s : State) (k : ItemKey) (i : Item), s.fresh k 0x20 = some i → s.pin (i.field 0x10 1) = none →
    ∃ t, exec (.insert k) s = .next t ∧ t.completed k 0x31 ∧ t = { s with items := t.items }) ∧
  (∀ (s : State) (o : Nat), s.cadenceCycles ≠ 0 → s.tbm.running = true → (s.ctx o).begun = true → s.saf.safe = false →
    s.cycleTb o ((s.ctx o).winK * s.cadenceCycles) + 37 ≤ (s.ctx o).endTb → o < s.player.ctx.length →
    ∃ t, exec (.insertWindow o) s = .next t ∧ (t.ctx o).winK = (s.ctx o).winK + 1 ∧ t.ins.lastOpen.isSome = true ∧
      (∀ k i p, s.ins = { s.ins with queue := [k], step := 0, row := none, last := none, lastOpen := none, draining := false } →
        s.laneDrain = none → s.ports = [] → s.tiers.fErr = [] → s.item? k = some i → s.pin (i.field 0x10 1) = some p → (s.part k.set).state ≠ .frozen →
        (∀ r ∈ (Shot.dataRuns (p.steps.getD 0 0)),
          s.accessOk p.owner false (.at_ (64 * p.ref + 64 + 64 * p.steps.length + r.1)) r.2 = true) →
        t.ins.queue = [k] ∧ t.ins.step = 1 ∧ t.laneDrain.isSome = true ∧ t.ins.draining = decide (p.steps.length ≤ 1))) ∧
  (∀ (s : State) (k : ItemKey) (i : Item) (q : List ItemKey) (r : List Nat × List Nat × BitVec 4) (p : Pin),
    let u := s.endLane
    s.saf.safe = false → s.ins.draining = true → u.ins.draining = true → u.ins.queue = k :: q → u.ins.row = some r → u.item? k = some i →
    i.done = none → (k.set < 32 → (u.part k.set).alloc.checked = false) → u.pin (i.field 0x10 1) = some p →
    ∃ t, exec .insertComplete s = .next t ∧ t.completed k 0 ∧ t.ins.queue = q ∧ t.ins.step = 0 ∧ t.ins.row = none ∧ t.ins.draining = false ∧
      (∃ (j : Item) (c : Done), t.item? k = some j ∧ j.done = some c ∧
        c.outs = [(i.field 0x18 8, padTo 128 (packCodes (Shot.outFmt (p.steps.getLastD 0)) r.1))]) ∧
      t = { u with ins := t.ins, tally := t.tally, items := t.items })

/-- TRAIN_SAMPLE, METER, SNAPSHOT, RESTORE, ROLLBACK and what goes with them. A sound TRAIN_SAMPLE of a registered tint
that is not paused waits with its number of targets, and joins the open batch if it names it, closing it where end is
set; one of the next batch only waits; one whose tokens did not come completes with UNCORRECTABLE. METER over two
tensors of the partition of its rows and columns waits if both are in tier F and its fields are in range, and else
completes with BAD_DESCRIPTOR. A SNAPSHOT with no placement of its own, while no batch is in flight, and an automatic
one that is due add a snapshot of the tint's generation when tier S has room; without room the descriptor completes
with NOT_PERMITTED and the failure is noted. Snapshots whose objects stand are copied. RESTORE of a copied snapshot
waits and clears the replay log; ROLLBACK of an affected tint with a clean snapshot abandons its batch and names that
snapshot. A held completion is released once its last frame is checked. The eighth retaken pass in a row holds its
level; sixteen excursions pause a tint and, where none of its waiting samples carries resume, end them all. (11 R321,
11 R322, 11 R324, 11 R326, 11 R337, 11 R339, 11 R340, 11 R341, 11 R342, 11 R343, 06 R184) -/
def Obligations.SamplesJoinBatchesAndSnapshotsAreKept : Prop :=
  (∀ (s : State) (k : ItemKey) (i : Item) (a b : Blob) (joins : Bool), s.fresh k 3 = some i → s.sampleEarlier k i = false →
    s.registered k.set i.tTint = true → (s.tintOf i.tTint).state ≠ .withdrawing → blockOk i.tBlock = true → i.tLen ≠ 0 →
    (s.tintOf i.tTint).train.paused = false → (s.tintOf i.tTint).train.place i = .ok joins →
    (∀ j < i.tLen, s.tokenOk i.tTint (leAt a (4 * j) 4) = true) → (∀ x ∈ targetIds i b, s.tokenOk i.tTint x = true) →
    Sparse.wf (fun _ => Tint.init) s.tints = true →
    ∃ t, exec (.trainSample k (some a) (some b)) s = .next t ∧
      t.item? k = some { i with phase := .waiting, aux := (targetIds i b).length, ids := (List.range i.tLen).map fun j => leAt a (4 * j) 4 } ∧
      (t.tintOf i.tTint).train.cur = (if joins = true then { (s.tintOf i.tTint).train.cur with
          samples := (s.tintOf i.tTint).train.cur.samples ++ [k], closed := (s.tintOf i.tTint).train.cur.closed || i.tEnd,
          params := some (blockCore i.tBlock), targets := (s.tintOf i.tTint).train.cur.targets + (targetIds i b).length }
        else (s.tintOf i.tTint).train.cur) ∧
      (∀ n, n ≠ i.tTint → t.tintOf n = s.tintOf n) ∧ t = { s with tints := t.tints, items := t.items }) ∧
  (∀ (s : State) (k : ItemKey) (i : Item) (b : Option Blob) (joins : Bool), s.fresh k 3 = some i → s.sampleEarlier k i = false →
    s.registered k.set i.tTint = true → (s.tintOf i.tTint).state ≠ .withdrawing → blockOk i.tBlock = true → i.tLen ≠ 0 →
    (s.tintOf i.tTint).train.paused = false → (s.tintOf i.tTint).train.place i = .ok joins →
    ∃ t, exec (.trainSample k none b) s = .next t ∧ t.completed k 0x21 ∧ t = { s with tints := t.tints, items := t.items }) ∧
  (∀ (s : State) (k : ItemKey) (i : Item) (x y : Obj), s.fresh k 0x21 = some i → s.obj (i.field 0x10 4) = some x → s.obj (i.field 0x14 4) = some y →
    i.field 0x10 4 / 67108864 = k.set → i.field 0x14 4 / 67108864 = k.set →
    (∀ d, s.objShape (i.field 0x10 4) = some d → d = (i.meterRows, i.meterCols)) →
    (∀ d, s.objShape (i.field 0x14 4) = some d → d = (i.meterRows, i.meterCols)) →
    x.tiles.length = cdiv i.meterRows 64 * cdiv i.meterCols 64 → y.tiles.length = x.tiles.length →
    zpOk x.fmt (i.field 0x28 1) = true → zpOk y.fmt (i.field 0x29 1) = true →
    (if s.inF (i.field 0x10 4) x = true ∧ s.inF (i.field 0x14 4) y = true ∧ 1 ≤ i.field 0x1C 1 ∧ i.field 0x1C 1 ≤ 4 ∧ i.field 0x1D 1 ≤ 1 ∧ (fpBF16.value (i.field 0x1E 2)).isFin = true ∧
        0 < (fpBF16.value (i.field 0x1E 2)).cmp (.fin false 0 0) then
      ∃ t, exec (.meter k) s = .next t ∧ t.item? k = some { i with phase := .waiting } ∧ t = { s with items := t.items }
    else ∃ t, exec (.meter k) s = .next t ∧ t.completed k 0x30 ∧ t = { s with items := t.items })) ∧
  (∀ (s : State) (k : ItemKey) (i : Item), s.fresh k 0x28 = some i → i.field 0x14 4 % 4 = 0 → s.registered k.set (i.field 0x10 2) = true →
    (s.tintOf (i.field 0x10 2)).state ≠ .withdrawing → (s.tintOf (i.field 0x10 2)).train.cur.inFlight = false →
    Sparse.wf (fun _ => Tint.init) s.tints = true →
    (s.snapRoom (i.field 0x10 2) .s = true → ∃ (t : State) (y : Snap), exec (.snapshot k) s = .next t ∧
      (t.tintOf (i.field 0x10 2)).train.snaps = (s.tintOf (i.field 0x10 2)).train.snaps ++ [y] ∧
      y.gen = (s.tintOf (i.field 0x10 2)).gen ∧ y.sigma = (s.tintOf (i.field 0x10 2)).train.sigma ∧ y.copied = false ∧ y.auto = false ∧
      t.item? k = some { i with phase := .busy, aux := y.handle } ∧
      t = { s with tints := t.tints, items := t.items, tiers := { s.tiers with objs := t.tiers.objs }, free := t.free }) ∧
    (s.snapRoom (i.field 0x10 2) .s = false → ∃ t, exec (.snapshot k) s = .next t ∧ t.completed k 0x31 ∧
      (t.tintOf (i.field 0x10 2)).train.snapFailed = true ∧ (t.tintOf (i.field 0x10 2)).train.snaps = (s.tintOf (i.field 0x10 2)).train.snaps)) ∧
  (∀ (s : State) (n : Nat), (s.tintOf n).train.snapDue = true → (s.tintOf n).state = .cold → s.saf.safe = false →
    (s.tintOf n).train.snapTier = .s → s.snapRoom n .s = true → Sparse.wf (fun _ => Tint.init) s.tints = true →
    ∃ (t : State) (y : Snap), exec (.autoSnapshot n) s = .next t ∧ (t.tintOf n).train.snaps = (s.tintOf n).train.snaps ++ [y] ∧
      y.gen = (s.tintOf n).gen ∧ y.auto = true ∧ (t.tintOf n).train.snapDue = false ∧
      t = { s with tints := t.tints, tiers := { s.tiers with objs := t.tiers.objs }, free := t.free }) ∧
  (∀ (s : State) (n : Nat) (y : Snap), y ∈ (s.tintOf n).train.snaps → y.copied = false → s.snapCopied (s.tintOf n).owner y.handle = true →
    s.saf.safe = false → Sparse.wf (fun _ => Tint.init) s.tints = true →
    ∃ t, exec (.snapshotCopyDone n) s = .next t ∧ { y with copied := true } ∈ (t.tintOf n).train.snaps ∧
      (t.tintOf n).train.snaps.length = (s.tintOf n).train.snaps.length ∧ t = { s with tints := t.tints, items := t.items }) ∧
  (∀ (s : State) (k : ItemKey) (i : Item) (y : Snap), s.fresh k 0x29 = some i → s.registered k.set (i.field 0x10 2) = true →
    (s.tintOf (i.field 0x10 2)).state ≠ .withdrawing → y ∈ (s.tintOf (i.field 0x10 2)).train.snaps → y.copied = true →
    y.handle = i.field 0x14 4 → Sparse.wf (fun _ => Tint.init) s.tints = true →
    ∃ t, exec (.restore k) s = .next t ∧ (t.tintOf (i.field 0x10 2)).train.restore = some (y.handle, false) ∧
      (t.tintOf (i.field 0x10 2)).train.replay = [] ∧ t.item? k = some { i with phase := .waiting, aux := y.handle } ∧
      t = { s with tints := t.tints, items := t.items }) ∧
  (∀ (s : State) (n : Nat) (y : Snap), (s.tintOf n).train.affected = true → s.saf.safe = false → s.cleanSnap n = some y →
    ((s.tintOf n).train.snaps.map fun z => z.handle).Nodup → Sparse.wf (fun _ => Tint.init) s.tints = true →
    ∃ t, exec (.rollback n) s = .next t ∧ (t.tintOf n).train.affected = false ∧ (t.tintOf n).train.restore = some (y.handle, true) ∧
      (t.tintOf n).train.cur = Batch.init ∧ y ∈ (t.tintOf n).train.snaps ∧ (∀ m, m ≠ n → t.tintOf m = s.tintOf m)) ∧
  (∀ (s : State) (k : ItemKey) (i : Item), s.item? k = some i → i.phase = .held → s.checkedAfter i.lastFn i.units false = true →
    s.saf.safe = false → ∃ t, exec (.completionRelease k) s = .next t ∧ t.item? k = some { i with phase := .done } ∧ t = { s with items := t.items }) ∧
  (∀ (s : State) (n layer level c : Nat), (layer, level, c) ∈ (s.tintOf n).train.retakes → 8 ≤ c → (s.tintOf n).train.hold ≠ some level →
    s.saf.safe = false → Sparse.wf (fun _ => Tint.init) s.tints = true →
    ∃ t, exec (.retakeHold n layer level) s = .next t ∧ (t.tintOf n).train.hold = some level ∧ (∀ m, m ≠ n → t.tintOf m = s.tintOf m) ∧
      t = { s with tints := t.tints, regs := t.regs, clog := t.clog, sets := t.sets }) ∧
  (∀ (s : State) (n : Nat), 16 ≤ (s.tintOf n).train.excursions → (s.tintOf n).train.paused = false → s.saf.safe = false →
    Sparse.wf (fun _ => Tint.init) s.tints = true →
    (s.items.map fun e => e.1).Nodup → (∀ e ∈ s.items, e.1.set = (s.tintOf n).owner → e.2.op = 3 → e.2.tTint = n → e.2.phase = .waiting → blockResume e.2.tBlock = false) →
    ∃ t, exec (.trainingPause n) s = .next t ∧ (t.tintOf n).train.paused = true ∧
      (∀ e ∈ t.items, e.1.set = (s.tintOf n).owner → e.2.op = 3 → e.2.tTint = n → e.2.phase ≠ .waiting ∨ e.2.done.isSome = true) ∧
      t = { s with tints := t.tints, items := t.items, regs := t.regs, clog := t.clog, sets := t.sets })

/-- SQ_ENABLE to DAILIES_ARM, UCL_PORT_FENCE. A ring that is off is enabled with empty pointers and its new configuration
where its line fits; en = 1 over the watch share only sets cfg_err. A disabled SQ drains, or is off at once with
nothing pending, and a draining one is off with its last item; a CQ that no pending descriptor names is off. An
observed word of a line that one ring names: a pointer of the ring is its new tail with its time, which is that of its
fetch while the pending store is full, or a CQ's new head; any other changed word halts the ring. The descriptor at
the head joins the pending store as the next observed item, completed where a check failed, and the head goes on. A
completion that may be written goes to the tail of its CQ as 32 bytes, the tail goes on, and the item leaves; without
space cq_full is set. DAILIES_ARM waits for the tick, unless it was observed before the present frame's, and completes
with OK; a failed UCL port is noted for its fence. (13 R371, 13 R372, 13 R373, 13 R374, 13 R376, 13 R377, 13 R378, 13
R380, 13 R386, 13 R388, 13 R389, 13 R396) -/
def Obligations.RingsFetchDescriptorsAndWriteCompletions : Prop :=
  (∀ (s : State) (k n : Nat) (v w : Word), k ≤ 32 → n ≤ 15 → s.saf.safe = false → ((s.ringSet k).sqOf n).mode = .off →
    s.ringCfg k n (v ||| 1) = some w → s.sets.length = 33 → (s.ringSet k).sq.length = 16 → s.regsWf →
    (s.watchFull k n = false → ∃ t, exec (.sqEnable k n v) s = .next t ∧ (t.ringSet k).sqOf n = { SubRing.init with mode := .on } ∧
      t.reg (sqCfgKey k n) = w &&& 0x7F ∧ s.regsBut t [sqCfgKey k n] ∧ (∀ m, m ≠ n → (t.ringSet k).sqOf m = (s.ringSet k).sqOf m) ∧
      (∀ j, j ≠ k → t.ringSet j = s.ringSet j) ∧ t = { s with sets := t.sets, regs := t.regs }) ∧
    (s.watchFull k n = true → exec (.sqEnable k n v) s = .next (s.raise (queStatusKey k) 4))) ∧
  (∀ (s : State) (k n : Nat), k ≤ 32 → n ≤ 15 → (((s.ringSet k).sqOf n).mode = .on ∨ ((s.ringSet k).sqOf n).mode = .halted) →
    s.sets.length = 33 → (s.ringSet k).sq.length = 16 → s.regsWf →
    ∃ t, exec (.sqDisable k n) s = .next t ∧ ((t.ringSet k).sqOf n).mode = (if s.sqItems k n = true then .draining else .off) ∧
      t.regBit (sqCfgKey k n) 0 = false ∧ s.regsBut t [sqCfgKey k n] ∧ t = { s with sets := t.sets, regs := t.regs }) ∧
  (∀ (s : State) (k n : Nat), ((s.ringSet k).sqOf n).mode = .draining → s.sqItems k n = false → k < s.sets.length →
    n < (s.ringSet k).sq.length → ∃ t, exec (.sqDrainDone k n) s = .next t ∧ ((t.ringSet k).sqOf n).mode = .off ∧ t = { s with sets := t.sets }) ∧
  (∀ (s : State) (k n : Nat) (v w : Word), k ≤ 32 → n ≤ 15 → ((s.ringSet k).cqOf n).mode = .off →
    wakeReserved (16 + n) v = false → s.ringCfg k (16 + n) (v ||| 1) = some w → s.watchFull k (16 + n) = false → s.sets.length = 33 → (s.ringSet k).cq.length = 16 → s.regsWf →
    ∃ t, exec (.cqEnable k n v) s = .next t ∧ (t.ringSet k).cqOf n = { CompRing.init with mode := .on } ∧
      t.reg (cqCfgKey k n) = w &&& 0xFF ∧ s.regsBut t [cqCfgKey k n] ∧ t = { s with sets := t.sets, regs := t.regs }) ∧
  (∀ (s : State) (k n : Nat), k ≤ 32 → n ≤ 15 → ((s.ringSet k).cqOf n).mode = .on → s.sets.length = 33 → (s.ringSet k).cq.length = 16 →
    s.regsWf →
    (s.cqNamed k n = true → exec (.cqDisable k n) s = .next (s.raise (queStatusKey k) 4)) ∧
    (s.cqNamed k n = false → ∃ t, exec (.cqDisable k n) s = .next t ∧ ((t.ringSet k).cqOf n).mode = .off ∧
      t.regBit (cqCfgKey k n) 0 = false ∧ s.regsBut t [cqCfgKey k n] ∧ t = { s with sets := t.sets, regs := t.regs })) ∧
  (∀ (s : State) (line k r : Nat) (ws : List Word), k ≤ 32 → r < 32 → s.ringMode k r = .on → s.ringLine k r = line →
    (∀ k' r', k' ≤ 32 → r' < 32 → (k', r') ≠ (k, r) → s.ringMode k' r' = .off ∨ s.ringLine k' r' ≠ line) →
    ws.getD (s.ringWord k r) 0 ≠ Sparse.get (fun _ => 0x10000) (s.ringSet k).lastRead (16 * line + s.ringWord k r) →
    s.sets.length = 33 → (s.ringSet k).sq.length = 16 → (s.ringSet k).cq.length = 16 →
    (∀ p, r < 16 → ptrWord (ws.getD (s.ringWord k r) 0) (s.ringLog k r) = some p →
      ringDist (s.ringLog k r) ((s.ringSet k).sqOf r).head p ≤ 2 ^ s.ringLog k r →
      (s.pendUsed k < s.pendShare k → ∃ t, exec (.doorbellObserved line ws) s = .next t ∧
        (t.ringSet k).sqOf r = { (s.ringSet k).sqOf r with tail := p, seen := ((s.ringSet k).sqOf r).seen ++ [(p, some s.tbm.tb)] } ∧
        t = { s with sets := t.sets }) ∧
      (s.pendShare k ≤ s.pendUsed k → s.regsWf → ∃ t, exec (.doorbellObserved line ws) s = .next t ∧
        ((t.ringSet k).sqOf r).tail = p ∧ (∀ e ∈ ((t.ringSet k).sqOf r).seen, e.2 = none) ∧ t.regBit (queStatusKey k) 3 = true ∧
        s.regsBut t [queStatusKey k] ∧ t = { s with sets := t.sets, regs := t.regs })) ∧
    (∀ p, 16 ≤ r → ptrWord (ws.getD (s.ringWord k r) 0) (s.ringLog k r) = some p →
      ∃ t, exec (.doorbellObserved line ws) s = .next t ∧ (t.ringSet k).cqOf (r - 16) = { (s.ringSet k).cqOf (r - 16) with head := p } ∧
        t = { s with sets := t.sets }) ∧
    (ptrWord (ws.getD (s.ringWord k r) 0) (s.ringLog k r) = none → s.regsWf →
      ∃ t, exec (.doorbellObserved line ws) s = .next t ∧ t.ringMode k r = .halted ∧ t.regBit (queStatusKey k) 0 = true ∧
        s.regsBut t [queStatusKey k, Reg.clgStatus] ∧ t = { s with sets := t.sets, regs := t.regs, clog := t.clog })) ∧
  (∀ (s : State) (k n : Nat) (bs : Blob), k ≤ 32 → n ≤ 15 → s.saf.safe = false → s.fetchable k n = true → s.insertFirst = false →
    s.pendUsed k < s.pendShare k → s.sets.length = 33 → (s.ringSet k).sq.length = 16 →
    let x := (s.ringSet k).sqOf n
    let obs := match x.seen.find? fun e => decide (ringDist (s.ringLog k n) x.head e.1 ≠ 0) with | some e => e.2.getD s.tbm.tb | none => s.tbm.tb
    let i := { Item.fetched (BitVec.ofNat 512 (leNat (bs.take 64))) obs (obsOrder obs.toNat n s.observed) with
      eligible := if s.tbm.cpPassed && s.inFrames && !s.pastCp obs.toNat then some (s.tbm.fn + 1) else none }
    let key : ItemKey := { set := k, sq := n, idx := x.head.index.toNat }
    ((s.ringSet k).cqOf i.cq).mode ≠ .off →
    ∃ t, exec (.descriptorFetch k n (some bs)) s = .next t ∧ ((t.ringSet k).sqOf n).head = x.head.next (s.ringLog k n) ∧
      ((t.ringSet k).sqOf n).tail = x.tail ∧ t.observed = s.observed + 1 ∧ t.items.map (fun e => e.1) = s.items.map (fun e => e.1) ++ [key] ∧
      (match (i.fetchCheck k x.head (s.regBit (sqCfgKey k n) 1)).1 with
        | none => t.item? key = some i
        | some e => t.completed key e) ∧
      ((i.fetchCheck k x.head (s.regBit (sqCfgKey k n) 1)).2 = false → s.pendUsed k + 1 < s.pendShare k → t.regs = s.regs) ∧
      t = { s with sets := t.sets, tally := t.tally, observed := t.observed, items := t.items, regs := t.regs }) ∧
  (∀ (s : State) (k n : Nat) (bs : Option Blob), k ≤ 32 → n ≤ 15 → s.saf.safe = false → s.fetchable k n = true → s.insertFirst = false →
    s.pendShare k ≤ s.pendUsed k → s.regsWf → (∃ q ∈ (s.ringSet k).sq, q.seen ≠ []) →
    ∃ t, exec (.descriptorFetch k n bs) s = .next t ∧ t.regBit (queStatusKey k) 3 = true ∧ s.regsBut t [queStatusKey k] ∧ t.items = s.items) ∧
  (∀ (s : State) (k : ItemKey) (i : Item) (d : Done), s.item? k = some i → s.writable k i = true → k.replayed = false → i.done = some d →
    ((s.ringSet k.set).cqOf i.cq).mode = .on → k.set < s.sets.length → i.cq < (s.ringSet k.set).cq.length → s.hostWf → s.regsWf →
    let x := (s.ringSet k.set).cqOf i.cq
    let m := s.ringLog k.set (16 + i.cq)
    let a := s.ringBase k.set (16 + i.cq) + 32 * x.tail.index.toNat
    (ringDist m x.head x.tail < 2 ^ m → s.wakes k.set i.cq i = false → d.outs = [] →
      ∃ t, exec (.completionWrite k) s = .next t ∧
        (∀ j, j < 32 → t.hostByte (a + j) = some ((completionBytes k i d x.tail.phase s.fnNat).getD j 0)) ∧
        (∀ b, b < a ∨ a + 32 ≤ b → t.hostByte b = s.hostByte b) ∧ ((t.ringSet k.set).cqOf i.cq).tail = x.tail.next m ∧
        ((t.ringSet k.set).cqOf i.cq).head = x.head ∧ t.items = s.items.filter (fun e => e.1 ≠ k) ∧
        t = { s with host := t.host, sets := t.sets, tally := t.tally, items := t.items }) ∧
    (ringDist m x.head x.tail < 2 ^ m → s.wakes k.set i.cq i = true →
      ∃ t, exec (.completionWrite k) s = .next t ∧ t.items = s.items.filter (fun e => e.1 ≠ k) ∧
        (∀ j, j < 8 → t.hostByte ((s.reg64 (ringKey k.set (16 + i.cq) + 0x18) (ringKey k.set (16 + i.cq) + 0x1C)).toNat + j) =
          some ((wakeBytes (x.tail.next m) s.fnNat).getD j 0))) ∧
    (2 ^ m ≤ ringDist m x.head x.tail → exec (.completionWrite k) s = .next (s.raise (queStatusKey k.set) 2))) ∧
  (∀ (s : State) (k : ItemKey) (i : Item), s.fresh k 0x30 = some i → s.tbm.running = true → i.obs.toNat < s.tbm.tLast.toNat →
    ∃ t, exec (.dailiesArm k) s = .next t ∧ t.completed k 0) ∧
  (∀ (s : State) (k : ItemKey) (i : Item), s.fresh k 0x30 = some i → k.set < s.sets.length →
    (s.tbm.running = true → s.tbm.tLast.toNat ≤ i.obs.toNat) →
    ∃ t, exec (.dailiesArm k) s = .next t ∧ t.completed k 0 ∧
      (t.ringSet k.set).dailies = { (s.ringSet k.set).dailies with
        pending := some (decide (i.field 0x10 1 = 1), i.field 0x11 1, BitVec.ofNat 64 (i.field 0x18 8)) } ∧
      t = { s with sets := t.sets, items := t.items }) ∧
  (∀ (s : State) (n : Nat), n ≤ 1 → (s.uclPort n).grey = false → s.ucl.length = 2 →
    ∃ t, exec (.uclPortFence n) s = .next t ∧ t.uclPort n = { s.uclPort n with failed := true } ∧ t.uclPort (1 - n) = s.uclPort (1 - n) ∧
      t = { s with ucl := t.ucl })

/-- CREATE to TEARDOWN_DONE. With no wipe running, CREATE of a FREE partition with custody and a healthy random source
gives PRT_CMD_STATUS the first failed check, or OK: the partition is CREATING on its staged resources, its banks are
handed over, its slots laid, its ring set fresh, and it has keys; in TEARING it is queued on. Once every bank of its
run is ready, it is READY with seeded lane states, or after a RESIZE with those it had, or FROZEN where LOAD_IMAGE
made it. RESIZE of a READY partition does the same with its difference. ACTIVATE, DEACTIVATE and TEARDOWN in their
states are noted; in others PRT_CMD_STATUS says so. At its tick an activated partition is ACTIVE, a frozen one with
its FN offset and its descriptors observed anew; a deactivated one is READY, its items in passage pending again; a
torn down one is TEARING with its open descriptors ABORTED, its tints, contexts and slots free, its banks handed back
and the mailboxes it received on aborted; after the last step it is FREE, and a CREATE that was queued runs. How a
command in a wrong state is told rests on log entry 1. (14 R399, 14 R400, 14 R401, 14 R402, 14 R403, 14 R404, 14 R405,
14 R406, 14 R407, 14 R411, 14 R416) -/
def Obligations.PartitionsAreCreatedPlayedAndTornDown : Prop :=
  (∀ (s : State) (p : Nat), p < 32 → s.wiping = false → (s.part p).state = .free → s.sec.custody ≠ .none → s.sec.rngFail = false →
    s.prt.part.length = 32 → s.sets.length = 33 → s.sec.part.length = 32 → Sparse.wf (fun _ => Bank.init) s.banks.bank = true →
    Sparse.wf (fun _ => HotSlot.init) s.slots = true →
    let a := s.staged p
    let d := s.checkAlloc p a Alloc.init (s.stagedShares p).1 (s.stagedShares p).2
    (d ≠ 0 → exec (.create p) s = .next { s with prt := { s.prt with code := 0x31, detail := BitVec.ofNat 8 d } }) ∧
    (d = 0 → ∃ t, exec (.create p) s = .next t ∧ t.part p = { Partition.init with state := .creating, alloc := a, seed := s.stagedSeed p } ∧
      t.prt.code = 0 ∧ t.prt.detail = 0 ∧ (∀ q, q ≠ p → t.part q = s.part q) ∧
      (∀ b, t.bank b = if b ∈ a.run then { (s.bank b).hand p .on s.now with shared := false } else s.bank b) ∧
      (∀ h, t.slotOf h = if h ∈ a.slots then { HotSlot.init with base := a.fBase + (h - a.slotFirst) * a.slotBanks } else s.slotOf h) ∧
      t.ringSet p = { RingSet.init with watches := (s.stagedShares p).1, pend := (s.stagedShares p).2 } ∧
      (∀ k, k ≠ p → t.ringSet k = s.ringSet k) ∧
      t.sec.part[p]? = some { imp := none, generating := true, tierH := some (Config.newKey s.free) } ∧
      t = { s with prt := t.prt, banks := t.banks, slots := t.slots, sets := t.sets, sec := { s.sec with part := t.sec.part },
                   free := s.free + 1, saf := { s.saf with greyParts := t.saf.greyParts } })) ∧
  (∀ (s : State) (p : Nat), p < 32 → s.wiping = false →
    ((s.part p).state = .tearing ∨ (s.part p).state = .queuedOn → s.prt.part.length = 32 → ∃ t, exec (.create p) s = .next t ∧
      t.part p = { s.part p with state := .queuedOn } ∧ t.prt.code = 0 ∧ t.prt.detail = 0 ∧ (∀ q, q ≠ p → t.part q = s.part q) ∧
      t = { s with prt := t.prt }) ∧
    ((s.part p).state ≠ .free ∧ (s.part p).state ≠ .tearing ∧ (s.part p).state ≠ .queuedOn ∨
        (s.part p).state = .free ∧ (s.sec.custody = .none ∨ s.sec.rngFail = true) →
      exec (.create p) s = .next { s with prt := { s.prt with code := 0x31, detail := 1 } })) ∧
  (∀ (s : State) (p : Nat), p < 32 → (s.part p).state = .creating → s.runReady p = true → s.prt.part.length = 32 → s.lanes.length = 33 →
    ∃ t, exec (.createDone p) s = .next t ∧ (t.part p).state = (if (s.part p).loading = true then .frozen else .ready) ∧
      (t.part p).loading = false ∧ (t.part p).resizing = false ∧ (∀ q, q ≠ p → t.part q = s.part q) ∧
      t.lanes[p]? = (if (s.part p).resizing = true ∨ (s.part p).loading = true then s.lanes[p]? else some (LaneSet.init (s.part p).seed)) ∧
      ((s.part p).loading = false → t = { s with prt := t.prt, lanes := t.lanes }) ∧
      ((s.part p).loading = true → (∀ q, q ≠ p → (s.part q).loading = false) → ∀ k i, s.item? k = some i → i.op = 0x3A → i.phase = .busy →
        i.done = none → t.completed k 0)) ∧
  (∀ (s : State) (p : Nat), p < 32 → s.wiping = false → (s.part p).state = .ready → s.prt.part.length = 32 → s.sets.length = 33 →
    Sparse.wf (fun _ => Bank.init) s.banks.bank = true → Sparse.wf (fun _ => HotSlot.init) s.slots = true →
    let a := s.staged p
    let x := s.part p
    let d := s.checkAlloc p a x.alloc (s.stagedShares p).1 (s.stagedShares p).2
    let held := s.segInUse p a x.alloc = true ∨ ∃ b ∈ x.alloc.run, b ∉ a.run ∧ s.bankNamed p b = true
    (d ≠ 0 → exec (.resize p) s = .next { s with prt := { s.prt with code := 0x31, detail := BitVec.ofNat 8 d } }) ∧
    (d = 0 → held → exec (.resize p) s = .next { s with prt := { s.prt with code := 0x31, detail := 0x0C } }) ∧
    (d = 0 → ¬ held → ∃ t, exec (.resize p) s = .next t ∧ t.part p = { x with state := .creating, resizing := true, alloc := a } ∧
      t.prt.code = 0 ∧ t.prt.detail = 0 ∧ (∀ q, q ≠ p → t.part q = s.part q) ∧
      (∀ b, b ∈ a.run → b ∉ x.alloc.run → t.bank b = { (s.bank b).hand p .on s.now with shared := false }) ∧
      (∀ b, b ∉ a.run → b ∈ x.alloc.run → (s.bank b).state ≠ .grey → t.bank b = { (s.bank b).hand 63 .off s.now with shared := false }) ∧
      (∀ b, (b ∈ a.run ↔ b ∈ x.alloc.run) → t.bank b = s.bank b) ∧
      t.ringSet p = { s.ringSet p with watches := (s.stagedShares p).1, pend := (s.stagedShares p).2 } ∧
      t = { s with prt := t.prt, banks := t.banks, slots := t.slots, sets := t.sets })) ∧
  (∀ (s : State) (p : Nat), p < 32 → s.wiping = false → s.prt.part.length = 32 →
    let x := s.part p
    let fb := s.reg (Reg.shtFb + 4 * p)
    let ps := (List.range 32).filter fun q => decide (q = p) || (!(s.part q).leaves && (s.frameParts.contains q || (s.part q).activate.isSome))
    let code := if x.state ≠ .ready ∧ x.state ≠ .frozen then 0x01 else if x.saved = true then 0x0B
      else if bitOf fb 31 = false ∨ s.fallbacksOk p fb = false then 0x09 else if s.frameFits ps = false then 0x02 else 0
    (code ≠ 0 → exec (.activate p) s = .next { s with prt := { s.prt with code := 0x31, detail := BitVec.ofNat 8 code } }) ∧
    (code = 0 → ∃ t, exec (.activate p) s = .next t ∧ t.part p = { x with activate := some (x.activate.getD (s.waitFrom s.now)) } ∧
      t.prt.code = 0 ∧ t.prt.detail = 0 ∧ (∀ q, q ≠ p → t.part q = s.part q) ∧ t = { s with prt := t.prt })) ∧
  (∀ (s : State) (p : Nat), p < 32 → (s.part p).activate = some .due → s.saf.safe = false → s.prt.part.length = 32 →
    ((s.part p).state = .ready → exec (.activateEffect p) s = .next (s.setPart p { s.part p with state := .active, activate := none })) ∧
    ((s.part p).state = .frozen → ∃ t, exec (.activateEffect p) s = .next t ∧ (t.part p).state = .active ∧ (t.part p).activate = none ∧
      (t.part p).fnOff = (if (s.part p).restored = true then s.tbm.fn - (s.part p).fnFreeze else 0) ∧ (∀ q, q ≠ p → t.part q = s.part q) ∧
      (∀ k i, s.item? k = some i → k.set = p → k.replayed = false → i.done = none → t.item? k =
        some { i.shiftDue (s.tbm.fn - (s.part p).fnFreeze) with
          obs := s.tbm.tb, eligible := none,
          order := obsOrder s.now 0 (s.items.filter fun e => e.1.set = p && decide (e.2.order < i.order)).length }) ∧
      (∀ k, k.set ≠ p ∨ k.replayed = true → t.item? k = s.item? k) ∧ t = { s with prt := t.prt, items := t.items })) ∧
  (∀ (s : State) (p : Nat), p < 32 → s.wiping = false → s.prt.part.length = 32 →
    ((s.part p).state = .active → ∃ t, exec (.deactivate p) s = .next t ∧ t.prt.code = 0 ∧ t.prt.detail = 0 ∧
      t.part p = { s.part p with deactivate := some ((s.part p).deactivate.getD (s.waitFrom s.now)) } ∧ (∀ q, q ≠ p → t.part q = s.part q) ∧
      t = { s with prt := t.prt }) ∧
    ((s.part p).state ≠ .active → exec (.deactivate p) s = .next { s with prt := { s.prt with code := 0x31, detail := 1 } }) ∧
    ((s.part p).state = .creating ∨ (s.part p).state = .ready ∨ (s.part p).state = .active ∨ (s.part p).state = .frozen →
      ∃ t, exec (.teardown p) s = .next t ∧ t.prt.code = 0 ∧ t.prt.detail = 0 ∧
        t.part p = { s.part p with teardown := some ((s.part p).teardown.getD (s.waitFrom s.now)) } ∧ (∀ q, q ≠ p → t.part q = s.part q) ∧
        t = { s with prt := t.prt }) ∧
    ((s.part p).state = .queuedOn → ∃ t, exec (.teardown p) s = .next t ∧ t.prt.code = 0x32 ∧ t.part p = { s.part p with state := .tearing } ∧
      t = { s with prt := t.prt }) ∧
    ((s.part p).state = .free ∨ (s.part p).state = .tearing →
      exec (.teardown p) s = .next { s with prt := { s.prt with code := 0x31, detail := 1 } })) ∧
  (∀ (s : State) (p : Nat) (c : Instr), p < 32 → s.wiping = true → c = .create p ∨ c = .resize p ∨ c = .activate p ∨ c = .deactivate p ∨ c = .teardown p →
    exec c s = .next { s with prt := { s.prt with code := 0x31, detail := 1 } }) ∧
  (∀ (s : State) (p : Nat), p < 32 → (s.part p).deactivate = some .due → (s.part p).state = .active → s.saf.safe = false →
    s.prt.part.length = 32 → s.player.ctx.length = 34 →
    ∃ t, exec (.deactivateEffect p) s = .next t ∧ t.part p = { s.part p with state := .ready, deactivate := none } ∧
      (∀ q, q ≠ p → t.part q = s.part q) ∧ t.ctx p = { PlayCtx.init with lastHeld := (s.ctx p).lastHeld } ∧
      (∀ k i, s.item? k = some i → k.set = p → i.phase = .passage → i.done = none → t.item? k = some { i with phase := .waiting, layers := 0 }) ∧
      (∀ k, k.set ≠ p → t.item? k = s.item? k) ∧
      t = { s with prt := t.prt, items := t.items, ses := t.ses, player := { s.player with ctx := t.player.ctx } }) ∧
  (∀ (s : State) (p : Nat), p < 32 → (s.part p).teardown = some .due → s.saf.safe = false →
    ((s.part p).state = .creating ∨ (s.part p).state = .ready ∨ (s.part p).state = .active ∨ (s.part p).state = .frozen) →
    s.prt.part.length = 32 → s.mbx.length = 64 → s.regsWf → Sparse.wf (fun _ => Bank.init) s.banks.bank = true →
    Sparse.wf (fun _ => Tint.init) s.tints = true → Sparse.wf (fun _ => Ses.init) s.ses = true → Sparse.wf (fun _ => HotSlot.init) s.slots = true →
    ∃ t, exec (.teardownEffect p) s = .next t ∧ (t.part p).state = .tearing ∧ (t.part p).teardown = none ∧
      (∀ q, q ≠ p → t.part q = { s.part q with freezeItems := (s.part q).freezeItems.filter fun j => !(s.part p).freezeItems.contains j }) ∧
      (∀ k i, s.item? k = some i → k.set = p → k.replayed = false → k ∉ (s.part p).captured → i.done = none → t.completed k 0x32) ∧
      (∀ k, k.set = p → k ∈ (s.part p).captured → t.item? k = none) ∧
      (∀ n, (s.tintOf n).owner = p → t.tintOf n = Tint.init) ∧ (∀ n, (s.tintOf n).owner ≠ p → t.tintOf n = s.tintOf n) ∧
      (∀ n, (s.sesOf n).owner = p → (s.sesOf n).state ≠ .free → t.sesOf n = Ses.init) ∧
      (∀ h ∈ (s.part p).alloc.slots, t.slotOf h = HotSlot.init) ∧
      (∀ b, b ∈ (s.part p).alloc.run → (s.bank b).state ≠ .grey → t.bank b = { (s.bank b).hand 63 .off s.now with shared := false }) ∧
      (∀ b, b ∉ (s.part p).alloc.run → t.bank b = s.bank b) ∧
      (∀ c, c < 64 → t.chan c = if s.isReceiver (0x40 + p) c = true then { state := .aborted, data := List.replicate 16 0, abort := true, resetTb := some s.now }
        else s.chan c)) ∧
  (∀ (s : State) (p : Nat), p < 32 → (s.part p).teardown = some .due → s.tornDown p = true →
    s.prt.part.length = 32 → s.sets.length = 33 → s.sec.part.length = 32 →
    let g := { s with prt := { s.prt with part := s.prt.part.set p Partition.init }, sets := s.sets.set p RingSet.init,
                      items := s.items.filter fun e => decide (e.1.set ≠ p),
                      sec := { s.sec with part := s.sec.part.set p { imp := none, generating := false, tierH := none } } }
    let f := g.dropWrites p
    ((s.part p).state = .tearing → exec (.teardownDone p) s = .next f) ∧
    ((s.part p).state = .queuedOn → s.wiping = false → exec (.teardownDone p) s = exec (.create p) f))

/-- FREEZE, FREEZE_EFFECT, FREEZE_DONE, SAVE and LOAD_IMAGE. FREEZE of a partition that is not ACTIVE completes with
NOT_PERMITTED; else it is noted and waits. At its tick the partition is FROZEN and not saved, its fn_freeze and epoch
are those of the tick, its items in passage are pending again and it runs no mover; in another state a FREEZE of the
partition completes with NOT_PERMITTED, and one of the device goes on with the others. Once all is captured FREEZE
completes with OK. SAVE of a partition that is not FROZEN, or is saved, or without CDK, destination or random source
completes with NOT_PERMITTED; it waits until the partition's state is captured and for its host window; then it writes
the image to the buffer, if that is long enough, marks the partition saved and its descriptors without an outcome
captured, and completes with OK. LOAD_IMAGE of a partition that is not FREE completes with NOT_PERMITTED, a failed
host read with UNCORRECTABLE, a malformed image or a failed tag with BAD_DESCRIPTOR, an image of another plate with
NOT_PERMITTED; else the partition is made, to be FROZEN when its banks are ready. What an image's sections hold
besides its lane states is log entry 3. (14 R404, 14 R412, 14 R413, 14 R414, 14 R415, 16 R454, 16 R463, 05 R173) -/
def Obligations.PartitionsFreezeAndAreSavedAndLoaded : Prop :=
  (∀ (s : State) (k : ItemKey) (i : Item), s.fresh k 0x38 = some i → i.field 0x10 1 < 32 → s.prt.part.length = 32 →
    ((s.part (i.field 0x10 1)).state ≠ .active → ∃ t, exec (.freeze k) s = .next t ∧ t.completed k 0x31 ∧ t = { s with items := t.items }) ∧
    ((s.part (i.field 0x10 1)).state = .active → ∃ t, exec (.freeze k) s = .next t ∧ t.item? k = some { i with phase := .waiting } ∧
      (let x := s.part (i.field 0x10 1)
       t.part (i.field 0x10 1) =
         { x with freeze := some (x.freeze.getD (s.waitFrom i.obs.toNat)), freezeItems := (x.freezeItems.filter fun j => decide (j ≠ k)) ++ [k] }) ∧
      (∀ q, q ≠ i.field 0x10 1 → t.part q = { s.part q with freezeItems := (s.part q).freezeItems.filter fun j => decide (j ≠ k) }) ∧ (∀ j, j ≠ k → t.item? j = s.item? j) ∧
      t = { s with prt := t.prt, items := t.items })) ∧
  (∀ (s : State) (k : ItemKey) (i : Item), s.fresh k 0x38 = some i → 32 ≤ i.field 0x10 1 → s.prt.part.length = 32 →
    (∀ q, q < 32 → (s.part q).state ≠ .creating ∧ (s.part q).state ≠ .tearing ∧ (s.part q).state ≠ .queuedOn) →
    ∃ t, exec (.freeze k) s = .next t ∧ t.item? k = some { i with phase := .waiting } ∧
      (∀ q, q < 32 → let fs := (s.part q).freezeItems.filter fun j => decide (j ≠ k)
        t.part q = if (s.part q).state = .active then
          { s.part q with freeze := some ((s.part q).freeze.getD (s.waitFrom i.obs.toNat)), freezeItems := fs ++ [k] } else { s.part q with freezeItems := fs }) ∧
      t = { s with prt := t.prt, items := t.items }) ∧
  (∀ (s : State) (p : Nat), p < 32 → (s.part p).freeze = some .due → s.saf.safe = false → s.prt.part.length = 32 →
    ((s.part p).state ≠ .active → ∃ t, exec (.freezeEffect p) s = .next t ∧
      t.part p = { s.part p with freeze := none, freezeItems := [] } ∧
      (∀ k i, k ∈ (s.part p).freezeItems → s.item? k = some i → i.op = 0x38 → i.phase = .waiting → i.done = none →
        if i.field 0x10 1 = p then t.completed k 0x31 else t.item? k = some i) ∧ t = { s with prt := t.prt, items := t.items }) ∧
    ((s.part p).state = .active → s.player.ctx.length = 34 → ∃ t, exec (.freezeEffect p) s = .next t ∧
      t.part p = { s.part p with state := .frozen, freeze := none, saved := false, fnFreeze := s.tbm.fn, epochFreeze := s.tbm.epoch } ∧
      (∀ q, q ≠ p → t.part q = s.part q) ∧ (∀ m ∈ t.tiers.running, m.owner ≠ p) ∧ t.ctx p = { PlayCtx.init with lastHeld := (s.ctx p).lastHeld } ∧
      (∀ k i, s.item? k = some i → k.set = p → i.phase = .passage → i.done = none → t.item? k = some { i with phase := .waiting, layers := 0 }) ∧
      (∀ k, k.set ≠ p → t.item? k = s.item? k))) ∧
  (∀ (s : State) (k : ItemKey) (i : Item), s.item? k = some i → i.op = 0x38 → i.phase = .waiting → i.done = none → s.prt.part.length = 32 →
    (∀ q, q < 32 → k ∈ (s.part q).freezeItems → s.capturedAll q = true) →
    ∃ t, exec (.freezeDone k) s = .next t ∧ t.completed k 0 ∧
      (∀ q, q < 32 → t.part q = { s.part q with freezeItems := (s.part q).freezeItems.filter fun j => decide (j ≠ k) }) ∧
      t = { s with prt := t.prt, items := t.items }) ∧
  (∀ (s : State) (k : ItemKey) (i : Item), s.fresh k 0x39 = some i → i.field 0x10 1 < 32 → s.prt.part.length = 32 →
    let p := i.field 0x10 1
    ((s.part p).state ≠ .frozen ∨ (s.part p).saved = true ∨ s.sec.rngFail = true ∨ s.sec.cdk = none ∨ allZero s.destDigest = true →
      ∃ t, exec (.save k) s = .next t ∧ t.completed k 0x31 ∧ t = { s with items := t.items }) ∧
    (∀ c, (s.part p).state = .frozen → (s.part p).saved = false → s.sec.rngFail = false → s.sec.cdk = some c → allZero s.destDigest = false →
      (s.capturedAll p = false ∨ s.hostBulk = false → exec (.save k) s = .next s) ∧
      (s.capturedAll p = true → s.hostBulk = true → s.hostWf → ∃ t, exec (.save k) s = .next t ∧
        if (s.image c [p] false).length ≤ i.field 0x20 8 then
          t.completed k 0 ∧ (t.part p).saved = true ∧ (t.part p).captured = (s.items.filter fun e => decide (e.1.set = p) && e.2.done.isNone).map (fun e => e.1) ∧
          (∀ q, q ≠ p → t.part q = s.part q) ∧
          (∀ a, t.hostByte a = if i.field 0x18 8 ≤ a ∧ a < i.field 0x18 8 + (s.image c [p] false).length then
            (s.image c [p] false)[a - i.field 0x18 8]? else s.hostByte a) ∧
          t = { s with prt := t.prt, items := t.items, host := t.host }
        else t.completed k 0x31 ∧ t = { s with items := t.items }))) ∧
  (∀ (s : State) (k : ItemKey) (i : Item) (img : Option Blob), s.fresh k 0x3A = some i → i.field 0x10 1 < 32 →
    (s.part (i.field 0x10 1)).state ≠ .free ∨ s.sec.rngFail = true ∨ s.wiping = true →
    ∃ t, exec (.loadImage k img) s = .next t ∧ t.completed k 0x31 ∧ t = { s with items := t.items }) ∧
  (∀ (s : State) (k : ItemKey) (i : Item), s.fresh k 0x3A = some i → i.field 0x10 1 < 32 → (s.part (i.field 0x10 1)).state = .free →
    s.sec.rngFail = false → s.wiping = false → s.prt.part.length = 32 →
    (∀ img, s.hostBulk = false → exec (.loadImage k img) s = .next s) ∧
    (s.hostBulk = true → (∃ t, exec (.loadImage k none) s = .next t ∧ t.completed k 0x21 ∧ t = { s with items := t.items }) ∧
      ∀ bs c, s.sec.cdk = some c →
        (imageLayout bs (i.field 0x20 8) false = false → ∃ t, exec (.loadImage k (some bs)) s = .next t ∧ t.completed k 0x30 ∧
          t = { s with items := t.items }) ∧
        (imageLayout bs (i.field 0x20 8) false = true → ∃ t, exec (.loadImage k (some bs)) s = .next t ∧
          match openImage c bs with
          | none => t.completed k 0x30 ∧ t = { s with items := t.items }
          | some secs => match partOf secs (leAt bs 7 1) (i.field 0x10 1) with
            | none => t.completed k 0x30 ∧ t = { s with items := t.items }
            | some x => if s.plate.plate.map (fun y => y.digest) ≠ some (digestOf (slice bs 0x40 64)) then
                t.completed k 0x31 ∧ t = { s with items := t.items }
              else match s.loadPart (i.field 0x10 1) (BitVec.ofNat 32 (leAt bs 8 4)) (BitVec.ofNat 16 (leAt bs 0x0C 2)) x.1 x.2 with
                | none => t.completed k 0x31 ∧ t = { s with items := t.items }
                | some _ => (t.part (i.field 0x10 1)).state = .creating ∧ (t.part (i.field 0x10 1)).loading = true ∧
                    (t.part (i.field 0x10 1)).saved = false ∧ (t.part (i.field 0x10 1)).restored = true ∧
                    (t.part (i.field 0x10 1)).fnFreeze = BitVec.ofNat 32 (leAt bs 8 4))))

/-- MBX_BIND_WRITE to MBX_DENIED_READ: R410, and what each access does in its turn. R410: every write to a channel by a
master that it is not bound to has no effect but MBX_STATUS.deny in that master's copy; a read by such a master
returns zero and sets it too; a sender's write of a data register or of go while the channel is FULL, and a receiver's
write of done while it is not, have no effect but MBX_STATUS.order. Beside it, what the accesses do in their turn
(R408, R409, R411): the sender's word below the message length is stored while the channel is EMPTY or ABORTED; go
makes it FULL and clears abort, unless its receiver was reset at that time; done clears the data and makes it EMPTY; a
write of abort clears abort and makes an ABORTED channel EMPTY. With MBX_LOCK clear a binding that names masters of
Table 14.4 is stored, its length only from 8 to 16; one that is valid and names another master sets cfg_err alone. (14
R410) -/
def Obligations.MailboxAccessesFollowTheBindingAndTheProtocol : Prop :=
  (∀ (s : State) (m c : Nat) (x : Instr), s.isSender m c = false → s.isReceiver m c = false → s.regsWf →
    (∃ w v, x = .mbxDataWrite m c w v) ∨ x = .mbxSend m c ∨ x = .mbxDone m c ∨ x = .mbxAbortClear m c →
    ∃ t, exec x s = .next t ∧ t.regBit (mbxStatusKey m) 0 = true ∧
      (∀ i, i ≠ 0 → t.regBit (mbxStatusKey m) i = s.regBit (mbxStatusKey m) i) ∧ s.regsBut t [mbxStatusKey m] ∧ t = { s with regs := t.regs }) ∧
  (∀ (s : State) (m c off : Nat), s.isSender m c = false → s.isReceiver m c = false → s.regsWf → off % 4 = 0 →
    ∃ t, exec (.mbxDeniedRead m c off) s = .next t ∧ t.uclResp = .data 0 ∧ t.regBit (mbxStatusKey m) 0 = true ∧
      s.regsBut t [mbxStatusKey m] ∧ t = { s with regs := t.regs, uclResp := t.uclResp }) ∧
  (∀ (s : State) (m c : Nat) (x : Instr), s.regsWf →
    (s.isSender m c = true ∧ (s.chan c).state = .full ∧ ((∃ w v, x = .mbxDataWrite m c w v) ∨ x = .mbxSend m c)) ∨
      (s.isReceiver m c = true ∧ (s.chan c).state ≠ .full ∧ x = .mbxDone m c) →
    ∃ t, exec x s = .next t ∧ t.regBit (mbxStatusKey m) 1 = true ∧ (∀ i, i ≠ 1 → t.regBit (mbxStatusKey m) i = s.regBit (mbxStatusKey m) i) ∧
      s.regsBut t [mbxStatusKey m] ∧ t = { s with regs := t.regs }) ∧
  (∀ (s : State) (m c w : Nat) (v : Word), s.isSender m c = true → (s.chan c).state ≠ .full → w < s.mbxWords c → s.mbx.length = 64 →
    ∃ t, exec (.mbxDataWrite m c w v) s = .next t ∧ t.chan c = { s.chan c with data := (s.chan c).data.set w v } ∧
      (∀ d, d ≠ c → t.chan d = s.chan d) ∧ t = { s with mbx := t.mbx }) ∧
  (∀ (s : State) (m c : Nat), s.isSender m c = true → (s.chan c).state ≠ .full → (s.chan c).resetTb = some s.now →
    exec (.mbxSend m c) s = .next s) ∧
  (∀ (s : State) (m c : Nat), s.isSender m c = true → (s.chan c).state ≠ .full → (s.chan c).resetTb ≠ some s.now → s.mbx.length = 64 →
    ∃ t, exec (.mbxSend m c) s = .next t ∧ t.chan c = { s.chan c with state := .full, abort := false } ∧
      (∀ d, d ≠ c → t.chan d = s.chan d) ∧ t = { s with mbx := t.mbx }) ∧
  (∀ (s : State) (m c : Nat), s.isReceiver m c = true → (s.chan c).state = .full → s.mbx.length = 64 →
    ∃ t, exec (.mbxDone m c) s = .next t ∧ t.chan c = { s.chan c with state := .empty, data := List.replicate 16 0 } ∧
      (∀ d, d ≠ c → t.chan d = s.chan d) ∧ t = { s with mbx := t.mbx }) ∧
  (∀ (s : State) (m c : Nat), s.isSender m c = true → s.mbx.length = 64 →
    ∃ t, exec (.mbxAbortClear m c) s = .next t ∧ (t.chan c).abort = false ∧ (t.chan c).data = (s.chan c).data ∧
      (t.chan c).state = (if (s.chan c).state = .aborted then .empty else (s.chan c).state) ∧
      (∀ d, d ≠ c → t.chan d = s.chan d) ∧ t = { s with mbx := t.mbx }) ∧
  (∀ (s : State) (c : Nat) (v : Word), c < 64 → s.locked .mbx = false → s.regsWf →
    (bitOf v 31 = false ∨ masterOk (fld v 0 8) = true ∧ masterOk (fld v 8 8) = true → ∃ t, exec (.mbxBindWrite c v) s = .next t ∧
      fld (t.reg (bindKey c)) 0 16 = fld v 0 16 ∧ t.regBit (bindKey c) 31 = bitOf v 31 ∧
      t.mbxWords c = (if 8 ≤ fld v 16 5 ∧ fld v 16 5 ≤ 16 then fld v 16 5 else s.mbxWords c) ∧ fld (t.reg (bindKey c)) 21 10 = 0 ∧
      s.regsBut t [bindKey c] ∧ t = { s with regs := t.regs }) ∧
    (bitOf v 31 = true → masterOk (fld v 0 8) = false ∨ masterOk (fld v 8 8) = false → ∃ t, exec (.mbxBindWrite c v) s = .next t ∧
      t.regBit Reg.mbxStatus 2 = true ∧ s.regsBut t [Reg.mbxStatus] ∧ t = { s with regs := t.regs })) ∧
  (∀ (s : State) (c : Nat) (v : Word), s.locked .mbx = true → exec (.mbxBindWrite c v) s = .next s)

/-- SEND, RECV, PASS, VERDICT, DATA_FLIT, VOID_FLIT, TAG, IDLE_FLIT, CUE_END on track L, TINT_DIVERGED. A SEND whose reads
are allowed, and find no error, transmits its data under the group key, 240 bytes a flit, and its TAG; RECV and PASS
open a transfer on their port; a VERDICT begins its pass, and its origin sends the flit. In a fenced segment, and in
the safe state, a transmitting cue sends one VOID with reason 1, and in a fenced segment a RECV accepts its flits but
writes nothing. Each flit that an UP port hears is counted. A DATA flit of an open transfer is kept, with a wrong fn
it makes the transfer bad, and a PASS relays it; a flit with a wrong CRC is relayed and counts with its transfer, or
counts at once against the port; a DATA flit that matches nothing is stray. A verdict flit gathers T and ok in the
first pass and records them in the second. A VOID and a TAG are noted in their transfer; an IDLE flit does nothing. At
its cue's end a transfer closes: good data is written, a failed one breaks its bay, and void, missing and CRC counts
stand against the port. A tint whose second pass was lost is diverged and paused, and its waiting training samples
complete with NOT_PERMITTED. (15 R421, 15 R422, 15 R426, 15 R428, 15 R429, 15 R432, 15 R433, 15 R434, 15 R435, 15
R439, 15 R440, 16 R461) -/
def Obligations.ScheduledTransfersAreSentReceivedAndJudged : Prop :=
  (∀ (s : State) (o i : Nat) (x : Sheet) (c : Cue) (k : GroupKey), s.lPlays o i x c 1 → s.tiers.fErr = [] → (s.lStarted o i c).accessOk o true
      ((s.lStarted o i c).resolve ((s.lStarted o i c).cueBinding o c) (x.shot c).lRef) (x.shot c).lBytes = true → s.sec.gk = some k →
    (s.port (x.shot c).portOut).carries = true → s.reel.port.length = 8 →
    ∃ t, exec (.send o i) s = .next t ∧
      (let d := x.shot c
       let n := cdiv d.lBytes 240
       let e := gcmSeal k.key (s.sendIv o k) (linkAad d.stream s.fnNat d.lBytes)
         (padTo (240 * n) ((s.lStarted o i c).readAt ((s.lStarted o i c).resolve ((s.lStarted o i c).cueBinding o c) d.lRef) d.lBytes))
       let fs := ((List.range n).map fun q => mkFlit 1 (b2n (decide (q = 0))) d.stream q s.fnNat (slice e.1 (240 * q) 240)) ++
         [mkFlit 5 2 d.stream n s.fnNat (leBytes 1 0x10 ++ leBytes 1 k.gen.toNat ++ s.sendIv o k ++ e.2)]
       t.port d.portOut = { s.port d.portOut with sent := fs.reverse ++ (s.port d.portOut).sent,
                                                  tx := (s.port d.portOut).tx + BitVec.ofNat 52 (n + 1) } ∧
       (∀ m, m ≠ d.portOut → t.port m = s.port m)) ∧ t.reel.sends = s.reel.sends + 1 ∧ t = { s.lStarted o i c with reel := t.reel }) ∧
  (∀ (s : State) (o i op : Nat) (x : Sheet) (c : Cue), s.lPlays o i x c op → op = 2 ∨ op = 3 → s.reel.port.length = 8 →
    (let w := decide (op = 2) || (x.shot c).lLocal
     let place := (s.lStarted o i c).resolve ((s.lStarted o i c).cueBinding o c) (x.shot c).lRef
     (w = true → (s.lStarted o i c).accessOk o true place (x.shot c).lBytes = true) →
     ∃ t, exec (if op = 2 then .recv o i else .pass o i) s = .next t ∧
      t.port (x.shot c).portIn = { s.port (x.shot c).portIn with xfers := (s.port (x.shot c).portIn).xfers ++
        [{ owner := o, cue := i, stream := BitVec.ofNat 16 (x.shot c).stream, bytes := (x.shot c).lBytes,
           dest := if w = true then (match place with | .at_ a => some a | .inSlot a _ => some a | .unbound => none) else none,
           out := if op = 2 then none else some (x.shot c).portOut, bay := (x.shot c).lBay, got := [], crcs := 0, bad := false,
           void := false, sealed := true, held := [], tag := none }] } ∧
      (∀ m, m ≠ (x.shot c).portIn → t.port m = s.port m) ∧ t = { s.lStarted o i c with reel := t.reel })) ∧
  (∀ (s : State) (o i : Nat) (x : Sheet) (c : Cue), s.lPlays o i x c 4 → s.reel.port.length = 8 →
    ∃ t, exec (.verdict o i) s = .next t ∧
      (let d := x.shot c
       let v := s.verdictOf d.lTint
       (t.verdictOf d.lTint).cues = v.cues + 1 ∧ (t.verdictOf d.lTint).seen = false ∧
       (v.cues % 2 = 0 → (t.verdictOf d.lTint).own = !s.reel.badTints.contains d.lTint ∧ (t.verdictOf d.lTint).recorded = false ∧
         (t.verdictOf d.lTint).lost = false) ∧
       (d.lOrigin = true → v.cues % 2 = 1 → (t.verdictOf d.lTint).recorded = true ∧ (t.verdictOf d.lTint).ok = (v.ok && v.recorded)) ∧
       (d.lOrigin = false → t.port d.portOut = s.port d.portOut) ∧
       (d.lOrigin = true → (s.port d.portOut).carries = true →
         (t.port d.portOut).sent = verdictFlit d.stream s.fnNat (t.verdictOf d.lTint) :: (s.port d.portOut).sent ∧
         (v.cues % 2 = 0 → (t.verdictOf d.lTint).t = BitVec.ofNat 32 (s.tintOf d.lTint).train.cur.targets ∧
           (t.verdictOf d.lTint).ok = !s.reel.badTints.contains d.lTint))) ∧
      t = { s.lStarted o i c with reel := t.reel }) ∧
  (∀ (s : State) (o i : Nat) (x : Sheet) (c : Cue) (a : Instr), s.playing o = some x → x.cue? .l i = some c →
    (s.ctx o).state = .void ∨ (s.saf.safe = true ∧ (s.ctx o).state ≠ .idle) →
    (s.ctx o).gone .l i = false → (s.ctx o).selected c = true →
    ((x.shot c).lOp = 1 ∧ a = .send o i) ∨ ((x.shot c).lOp = 3 ∧ a = .pass o i) ∨ ((x.shot c).lOp = 4 ∧ a = .verdict o i) →
    (s.port (x.shot c).portOut).carries = true → s.reel.port.length = 8 → o < s.player.ctx.length →
    ∃ t, exec a s = .next t ∧ (t.port (x.shot c).portOut).sent = s.voidFlit (x.shot c).stream 1 :: (s.port (x.shot c).portOut).sent ∧
      t.ctx o = { s.ctx o with skipped := (s.ctx o).skipped ++ [(.l, i)] } ∧
      t = { s with tbm := t.tbm, reel := { s.reel with port := t.reel.port }, player := { s.player with ctx := t.player.ctx } }) ∧
  (∀ (s : State) (o i : Nat) (x : Sheet) (c : Cue), s.playing o = some x → x.cue? .l i = some c → (s.ctx o).state = .void → s.saf.safe = false →
    (s.ctx o).gone .l i = false → (s.ctx o).selected c = true → (x.shot c).lOp = 2 → o < s.player.ctx.length → s.reel.port.length = 8 →
    ∃ (t : State) (tr : Transfer), exec (.recv o i) s = .next t ∧
      t.port (x.shot c).portIn = { s.port (x.shot c).portIn with xfers := (s.port (x.shot c).portIn).xfers ++ [tr] } ∧
      tr.owner = o ∧ tr.cue = i ∧ tr.stream = BitVec.ofNat 16 (x.shot c).stream ∧ tr.dest = none ∧ t = { s.lStarted o i c with reel := t.reel }) ∧
  (∀ (s : State) (n : Nat) (f : Blob) (tr : Transfer), s.hears n 1 f → s.xfer n (flitStream f) = some tr → flitSeq f < cdiv tr.bytes 240 →
    ∃ t, exec (.dataFlit n f) s = .next t ∧
      t.xfer n (flitStream f) = some (if flitFn f = s.fnNat then
        { tr with got := if flitSeq f ∈ tr.got then tr.got else tr.got ++ [flitSeq f],
                  held := (tr.held.filter fun h => decide (h.1 ≠ flitSeq f)) ++ [(flitSeq f, flitPayload f)] }
        else { tr with bad := true }) ∧
      (t.port n).rx = (s.port n).rx + 1 ∧ (∀ p, tr.out = some p → p ≠ n → (s.port p).carries = true → (t.port p).sent = f :: (s.port p).sent) ∧
      t = { s with reel := { s.reel with port := t.reel.port } }) ∧
  (∀ (s : State) (n : Nat) (f : Blob) (tr : Transfer), n < 8 → (s.port n).state = .up → s.reel.port.length = 8 → flitCrcOk f = false →
    s.xfer n (flitStream f) = some tr → ∃ t, exec (.dataFlit n f) s = .next t ∧
      t.xfer n (flitStream f) = some { tr with crcs := tr.crcs + 1, bad := true } ∧
      (∀ p, tr.out = some p → p ≠ n → (s.port p).carries = true → (t.port p).sent = f :: (s.port p).sent) ∧ (t.port n).rx = (s.port n).rx + 1 ∧
      t = { s with reel := { s.reel with port := t.reel.port } }) ∧
  (∀ (s : State) (n : Nat) (f : Blob) (c : Instr), c = .dataFlit n f ∨ c = .idleFlit n f ∨ c = .voidFlit n f ∨ c = .tag n f → n < 8 →
    (s.port n).state = .up → s.reel.port.length = 8 → flitCrcOk f = false → s.xfer n (flitStream f) = none → s.promoted 0x0B = false → s.regsWf →
    ∃ t, exec c s = .next t ∧ (∀ m, m ≠ n → t.port m = s.port m) ∧
      t.port n = { s.heard n with crc := satAdd 32 (s.port n).crc 1,
                                  winCrc := if (s.port n).use = .free then satAdd 16 (s.port n).winCrc 1 else (s.port n).winCrc } ∧
      t.regBit Reg.reelStatus 0 = true ∧ s.regsBut t [Reg.reelStatus] ∧
      t = { s with reel := { s.reel with port := t.reel.port }, regs := t.regs }) ∧
  (∀ (s : State) (n : Nat) (f : Blob), s.hears n 1 f → s.regsWf → s.openL 4 n (flitStream f) = [] →
    (∃ tr, s.xfer n (flitStream f) = some tr ∧ cdiv tr.bytes 240 ≤ flitSeq f) ∨
      (s.xfer n (flitStream f) = none ∧ (s.port n).dist = none ∧ (s.port n).bulk = none) →
    ∃ t, exec (.dataFlit n f) s = .next t ∧ t.port n = { s.heard n with stray := satAdd 32 (s.port n).stray 1 } ∧
      (∀ m, m ≠ n → t.port m = s.port m) ∧ t.regBit Reg.reelStatus 3 = true ∧ s.regsBut t [Reg.reelStatus] ∧
      t = { s with reel := { s.reel with port := t.reel.port }, regs := t.regs }) ∧
  (∀ (s : State) (n : Nat) (f : Blob) (d : Shot) (ds : List Shot), s.hears n 1 f → s.xfer n (flitStream f) = none →
    s.openL 4 n (flitStream f) = d :: ds → leAt (flitPayload f) 0 2 = d.lTint → leAt (flitPayload f) 2 4 = (s.verdictOf d.lTint).k.toNat →
    (s.verdictOf d.lTint).seen = false →
    ∃ t, exec (.dataFlit n f) s = .next t ∧
      (let v := s.verdictOf d.lTint
       let total := BitVec.ofNat 32 (leAt (flitPayload f) 6 4)
       let ok := decide (leAt (flitPayload f) 10 1 = 1)
       t.verdictOf d.lTint = (if d.lOrigin = true then
           (if v.cues % 2 = 1 then { v with t := total, ok := ok, recorded := true, seen := true } else { v with seen := true })
         else if v.cues % 2 = 1 then
           { v with t := total + BitVec.ofNat 32 (s.tintOf d.lTint).train.cur.targets, ok := ok && v.own, seen := true }
         else { v with t := total, ok := ok, recorded := true, seen := true })) ∧
      (d.lOrigin = false → d.portOut ≠ n → (s.port d.portOut).carries = true →
        (t.port d.portOut).sent = verdictFlit d.stream s.fnNat (t.verdictOf d.lTint) :: (s.port d.portOut).sent) ∧
      t = { s with reel := t.reel }) ∧
  (∀ (s : State) (n : Nat) (f : Blob) (tr : Transfer), s.xfer n (flitStream f) = some tr →
    (s.hears n 2 f → ∃ t, exec (.voidFlit n f) s = .next t ∧ t.xfer n (flitStream f) = some { tr with void := true } ∧
      (t.port n).rx = (s.port n).rx + 1 ∧ t = { s with reel := { s.reel with port := t.reel.port } }) ∧
    (s.hears n 5 f → leAt (flitPayload f) 0 1 = 0x10 → allZero ((flitPayload f).drop 30) = true → tr.out ≠ some n →
      ∃ t, exec (.tag n f) s = .next t ∧
        t.xfer n (flitStream f) = some (if flitFn f = s.fnNat then { tr with tag := some (slice (flitPayload f) 1 29) } else { tr with bad := true }) ∧
        (∀ p, tr.out = some p → (s.port p).carries = true → (t.port p).sent = f :: (s.port p).sent) ∧
        t = { s with reel := { s.reel with port := t.reel.port } })) ∧
  (∀ (s : State) (n : Nat) (f : Blob), s.hears n 0 f → exec (.idleFlit n f) s = .next (s.setPort n (s.heard n))) ∧
  (∀ (s : State) (o i op start : Nat) (x : Sheet) (c : Cue) (tr : Transfer), s.playing o = some x → x.cue? .l i = some c → (x.shot c).lOp = op →
    op = 2 ∨ op = 3 → (s.ctx o).startOf .l i = some start → (Track.l, i) ∉ (s.ctx o).ended → s.saf.safe = false → (s.ctx o).state ≠ .void →
    (s.port (x.shot c).portIn).xfers.find? (fun t => decide (t.owner = o) && decide (t.cue = i)) = some tr → s.promoted 0x0B = false →
    s.promoted 0x0C = false → s.reel.port.length = 8 → s.memoryWf → o < s.player.ctx.length →
    ∃ t, exec (.cueEnd o .l i) s = .next t ∧ (Track.l, i) ∈ (t.ctx o).ended ∧
      (let d := x.shot c
       let p := s.port d.portIn
       let all := (List.range (cdiv tr.bytes 240)).all tr.got.contains
       let good := if tr.void = true ∨ all = false ∨ tr.bad = true then none else tr.tag.bind (s.openTransfer tr)
       (t.port d.portIn).xfers = p.xfers.filter (fun t => !(decide (t.owner = o) && decide (t.cue = i))) ∧
       (t.port d.portIn).void = (if tr.void = true then satAdd 32 p.void 1 else p.void) ∧
       (t.port d.portIn).miss = (if tr.void = false ∧ all = false then satAdd 32 p.miss 1 else p.miss) ∧
       (t.port d.portIn).crc = (if tr.void = false ∧ 0 < tr.crcs then satAdd 32 p.crc tr.crcs else p.crc) ∧
       (∀ q, tr.out = some q → q ≠ d.portIn → (s.port q).carries = true → (t.port q).sent =
         if good.isSome = true then (s.port q).sent else s.voidFlit d.stream 2 :: (s.port q).sent) ∧
       match good with
       | some bs => (t.ctx o).broken = (s.ctx o).broken ∧ ∀ a, t.byteF a = match tr.dest with
           | some b => if b ≤ a ∧ a < b + bs.length then bs.getD (a - b) 0 else s.byteF a
           | none => s.byteF a
       | none => t.tiers = s.tiers ∧ (d.lBay ≠ 63 → d.lBay ∈ (t.ctx o).broken))) ∧
  (∀ (s : State) (o i start : Nat) (x : Sheet) (c : Cue), s.playing o = some x → x.cue? .l i = some c → (x.shot c).lOp = 4 →
    (s.ctx o).startOf .l i = some start → (Track.l, i) ∉ (s.ctx o).ended → s.saf.safe = false →
    (let v := s.verdictOf (x.shot c).lTint
     v.cues % 2 = 0 ∧ 0 < v.cues ∧ v.recorded = false ∧ v.own = true) →
    ∃ t, exec (.cueEnd o .l i) s = .next t ∧ t.verdictOf (x.shot c).lTint = { s.verdictOf (x.shot c).lTint with lost := true }) ∧
  (∀ (s : State) (n : Nat), (s.verdictOf n).lost = true → (s.verdictOf n).own = true → (s.tintOf n).state ≠ .free → (s.tintOf n).diverged = false →
    s.saf.safe = false → Sparse.wf (fun _ => Tint.init) s.tints = true → s.regsWf →
    ∃ t, exec (.tintDiverged n) s = .next t ∧ (t.tintOf n).diverged = true ∧ (t.tintOf n).train.paused = true ∧
      (t.tintOf n).state = (s.tintOf n).state ∧ (∀ m, m ≠ n → t.tintOf m = s.tintOf m) ∧ t.regBit Reg.reelStatus 6 = true ∧
      (∀ k i, s.item? k = some i → k.set = (s.tintOf n).owner → i.op = 3 → i.tTint = n → i.phase = .waiting → i.done = none → t.completed k 0x31) ∧
      t = { s with tints := t.tints, clog := t.clog, sets := t.sets, regs := t.regs, items := t.items })

/-- PORT_TRAIN_RETRY to BULK_ABORT_WRITE, DELAY_EXCHANGE, DELAY_FLIT, PLATE_REQ to ABORT. A DOWN port trains, a trained
one enters ALIGN and asks for the delay exchange, an aligning one that has its delay is UP; a request is answered with
its two times, a reply gives the one-way delay. A fence turns the port GREY and is counted; a bulk transfer on it ends
with ABORTED. A request for the plate that this device can pass on, on the port that distributes, is acknowledged; the
receiver that gets the acknowledgement waits no more. A NACK is served at once where its part is ready, else kept;
DONE frees the sender's port; an ABORT ends what runs on the port. A bulk transfer begins on a free UP port, TX with
its offer, and is NOT_PERMITTED elsewhere; an offer is taken if it fits the capacity; the sender sends its data when
accepted; a bulk flit reaches the host buffer; the answers end both sides with their codes; writing abort ends each
running transfer with ABORTED. (02 R64, 15 R423, 15 R424, 15 R425, 15 R436, 15 R441, 15 R442, 15 R443, 15 R444, 15
R445, 15 R447, 17 R485) -/
def Obligations.PortsTrainFenceAndCarryPlatesAndBuffers : Prop :=
  (∀ (s : State) (n : Nat), n < 8 → ((s.port n).mayTrain s.now = true → exec (.portTrainRetry n) s =
      .next (s.setPort n { s.port n with state := .training, trainTb := some s.now })) ∧
    (∀ l : BitVec 4, (s.port n).state = .training → l.toNat ≤ 8 → (s.port n).trainOver s.now = false →
      exec (.portTrained n l) s = .next (State.setPort { s with tbm := { s.tbm with
          bcnDelay := s.tbm.bcnDelay.set n ((s.tbm.bcnDelay.getD n (0, false)).1, false) } } n
          { s.port n with state := .align, lanes := l, requestDue := true, askedFn := none })) ∧
    ((s.port n).carries = true → (s.port n).askAgain s.tbm.fn = true → exec (.delayExchange n) s = .next (s.setPort n { s.port n with requestDue := true }))) ∧
  (∀ (s : State) (n : Nat) (f : Blob) (at_ : BitVec 64), s.hears n 4 f ∨ (n < 8 ∧ (s.port n).state = .align ∧ s.reel.port.length = 8 ∧
      flitCrcOk f = true ∧ flitKind f = 4 ∧ flitFlags f < 4) →
    let t1 := leAt (flitPayload f) 0 8
    let t2 := leAt (flitPayload f) 8 8
    let t3 := leAt (flitPayload f) 16 8
    ∃ t, exec (.delayFlit n f at_) s = .next t ∧ (∀ m, m ≠ n → t.port m = s.port m) ∧
      (t2 = 0 ∧ t3 = 0 → (t.port n).t1 = BitVec.ofNat 64 t1 ∧ (t.port n).t2 = at_ ∧ (t.port n).replyDue = true ∧ (t.port n).state = (s.port n).state ∧
        t = { s with reel := { s.reel with port := t.reel.port } }) ∧
      (¬ (t2 = 0 ∧ t3 = 0) → (t.port n).state = .up ∧
        t = { s with reel := { s.reel with port := t.reel.port },
                     tbm := { s.tbm with
                       bcnDelay := s.tbm.bcnDelay.set n (BitVec.ofInt 16 (oneWayDelay t1 t2 t3 at_.toNat), true),
                       bcnOffset := s.tbm.bcnOffset.set n ((t2 : Int) - t1 - oneWayDelay t1 t2 t3 at_.toNat) } })) ∧
  (∀ (s : State) (n : Nat) (c : Instr), n < 8 → (c = .reelPortFence n ∧ (s.port n).state = .up) ∨ (c = .reelFenceReq n ∧ (s.port n).state ≠ .grey) →
    s.reel.port.length = 8 → s.saf.fenceCnt.length = 11 → s.regsWf → (s.port n).dist = none →
    ∃ t, exec c s = .next t ∧ (t.port n).state = .grey ∧ (t.port n).replyDue = false ∧ (t.port n).requestDue = false ∧ (t.port n).bulk = none ∧
      (∀ m, m ≠ n → t.port m = s.port m) ∧ t.regBit Reg.reelStatus 4 = true ∧ t.regBit Reg.safStatus 3 = true ∧
      t.saf.fenceCnt[4]? = (s.saf.fenceCnt[4]?).map (fun x => satAdd 32 x 1) ∧
      t.reel.bulkCode = (if (s.port n).bulk.isSome = true then 0x32 else s.reel.bulkCode) ∧
      t = { s with reel := t.reel, regs := t.regs, clog := t.clog, saf := { s.saf with fenceCnt := t.saf.fenceCnt }, sets := t.sets }) ∧
  (∀ (s : State) (n : Nat) (f : Blob) (d : Digest) (l : Nat), s.controls n 1 68 f → s.passOn n = some (d, l) → s.regBit Reg.reelDist 0 = true →
    s.regFld Reg.reelDist 1 3 = n → (s.port n).use = .free → s.scheduled n = false → leAt (flitPayload f) 1 1 = 1 → leAt (flitPayload f) 2 2 = 0 →
    digestOf (slice (flitPayload f) 4 64) = d →
    ∃ t fs, exec (.plateReq n f) s = .next t ∧ (t.port n).use = .dist ∧ (t.port n).dist.map (fun x => x.receiver) = some false ∧
      (t.port n).sent = fs ++ controlFlit 0 s.fnNat (leBytes 1 2 ++ [0, 0, 0] ++ digestBytes d ++ leBytes 2 l) :: (s.port n).sent ∧
      (∀ m, m ≠ n → t.port m = s.port m) ∧ t = { s with reel := { s.reel with port := t.reel.port } }) ∧
  (∀ (s : State) (n : Nat) (f : Blob) (d : Dist) (key : BitVec 256) (k : Digest), s.controls n 2 70 f → (s.port n).dist = some d → d.receiver = true →
    s.plate.asking = some n → s.sec.plateKey = some (key, k) → leAt (flitPayload f) 1 3 = 0 → digestOf (slice (flitPayload f) 4 64) = k →
    exec (.plateAck n f) s = .next (s.setPort n { s.heard n with dist := some { d with since := none } })) ∧
  (∀ (s : State) (n : Nat) (f : Blob), s.controls n 3 (4 + 8 * leAt (flitPayload f) 1 1) f → 1 ≤ leAt (flitPayload f) 1 1 →
    leAt (flitPayload f) 1 1 ≤ 29 →
    let st := leAt (flitPayload f) 2 2
    let rs := nackRanges (flitPayload f)
    (∀ d p, (s.port n).dist = some d → d.receiver = false → s.plate.plate = some p →
      (s.streamReady p st = true → exec (.nack n f) s = .next (s.setPort n
        (s.answered n (markLast (rs.flatMap fun e => streamFlits st s.fnNat (s.distBytes p st) e.1 e.2))))) ∧
      (s.streamReady p st = false → exec (.nack n f) s = .next (s.setPort n
        { s.heard n with dist := some { d with resend := d.resend ++ rs.map fun e => (st, e.1, e.2) } }))) ∧
    (∀ b bs, (s.port n).dist = none → (s.port n).bulk = some b → b.data = some bs → b.tx = true → b.accepted = true →
      exec (.nack n f) s = .next (s.setPort n
        (s.answered n (markLast (rs.flatMap fun e => streamFlits strBulk s.fnNat bs e.1 e.2)))))) ∧
  (∀ (s : State) (n : Nat) (f : Blob) (d : Dist), (s.port n).dist = some d → d.receiver = false →
    (s.controls n 4 68 f ∧ leAt (flitPayload f) 2 2 = 0 → exec (.done n f) s = .next (s.setPort n { s.heard n with dist := none, use := .free })) ∧
    (s.controls n 8 2 f ∧ 1 ≤ leAt (flitPayload f) 1 1 ∧ leAt (flitPayload f) 1 1 ≤ 3 →
      exec (.abort n f) s = .next (s.setPort n { s.heard n with dist := none, use := .free }))) ∧
  (∀ (s : State) (n : Nat) (f : Blob), s.controls n 8 2 f → 1 ≤ leAt (flitPayload f) 1 1 → leAt (flitPayload f) 1 1 ≤ 3 → s.regsWf →
    (∀ d, (s.port n).dist = some d → d.receiver = true → ∃ t, exec (.abort n f) s = .next t ∧ t.plate.load = none ∧ t.plate.asking = none ∧
      t.plate.detail = 10 ∧ t.regBit Reg.tntPlateCtrl 0 = false) ∧
    (∀ b, (s.port n).dist = none → (s.port n).bulk = some b → ∃ t, exec (.abort n f) s = .next t ∧ t.reel.bulkCode = 0x32 ∧
      t.port n = { s.heard n with bulk := none, use := .free } ∧ t.regBit Reg.reelBulkCtrl 31 = false ∧ s.regsBut t [Reg.reelBulkCtrl] ∧
      t = { s with reel := t.reel, regs := t.regs })) ∧
  (∀ (s : State) (n : Nat) (tx : Bool) (data : Option Blob), n < 8 → s.bulkBusy = false → s.reel.port.length = 8 → s.regsWf →
    (s.bulkFree n = true → ∃ t, exec (if tx = true then .bulkTx n data else .bulkRx n) s = .next t ∧ (t.port n).use = .bulk ∧
      (∃ b, (t.port n).bulk = some b ∧ b.tx = tx ∧ b.accepted = false ∧ b.len = 64 * (s.reg Reg.reelBulkLen).toNat ∧ b.got = [] ∧
        b.offered = (if tx = true then some b.len else none) ∧
        b.addr.toNat = (s.reg64 Reg.reelBulkAddrLo Reg.reelBulkAddrHi).toNat / 64 * 64 ∧
        (t.port n).sent = (if tx = true then [controlFlit strBulk s.fnNat (leBytes 1 5 ++ [0, 0, 0] ++ leBytes 8 b.len)] else []) ++ (s.port n).sent) ∧
      (∀ m, m ≠ n → t.port m = s.port m) ∧ t.regBit Reg.reelBulkCtrl 31 = true ∧ s.regsBut t [Reg.reelBulkCtrl] ∧ t.reel.bulkDone = 0 ∧
      t = { s with reel := { s.reel with port := t.reel.port, bulkDone := 0 }, regs := t.regs }) ∧
    (s.bulkFree n = false → ∃ t, exec (if tx = true then .bulkTx n data else .bulkRx n) s = .next t ∧ t.reel.bulkCode = 0x31 ∧
      s.regsBut t [Reg.reelBulkCtrl] ∧ t = { s with reel := { s.reel with bulkCode := 0x31 }, regs := t.regs })) ∧
  (∀ (s : State) (n : Nat) (f : Blob) (b : Bulk), s.controls n 5 12 f → (s.port n).bulk = some b → b.tx = false → b.offered = none →
    leAt (flitPayload f) 1 3 = 0 → s.regsWf →
    let len := leAt (flitPayload f) 4 8
    let ans := fun code => controlFlit strBulk s.fnNat (leBytes 1 6 ++ leBytes 1 code ++ [0, 0] ++ leBytes 8 b.len)
    (b.len < len → ∃ t, exec (.bulkOffer n f) s = .next t ∧ t.port n = { s.answered n [ans 1] with bulk := none, use := .free } ∧
      t.reel.bulkCode = 0x31 ∧ t.regBit Reg.reelBulkCtrl 31 = false ∧ t = { s with reel := t.reel, regs := t.regs }) ∧
    (len ≤ b.len → 0 < len → exec (.bulkOffer n f) s = .next (s.setPort n
      { s.answered n [ans 0] with bulk := some { b with offered := some len, accepted := true } })) ∧
    (len = 0 → ∃ t, exec (.bulkOffer n f) s = .next t ∧ (t.port n).bulk = none ∧ t.reel.bulkCode = 0 ∧ t.regBit Reg.reelBulkCtrl 31 = false)) ∧
  (∀ (s : State) (n : Nat) (f : Blob) (b : Bulk), s.controls n 6 12 f → (s.port n).bulk = some b → b.tx = true → b.accepted = false →
    leAt (flitPayload f) 2 2 = 0 → s.regsWf →
    (leAt (flitPayload f) 1 1 = 1 → ∃ t, exec (.bulkAccept n f) s = .next t ∧ t.port n = { s.heard n with bulk := none, use := .free } ∧
      t.reel.bulkCode = 0x31 ∧ t = { s with reel := t.reel, regs := t.regs }) ∧
    (leAt (flitPayload f) 1 1 = 0 → b.data = none → ∃ t, exec (.bulkAccept n f) s = .next t ∧ t.reel.bulkCode = 0x21 ∧
      t.port n = { s.answered n [controlFlit strBulk s.fnNat (leBytes 1 8 ++ leBytes 1 3)] with bulk := none, use := .free } ∧
      t = { s with reel := t.reel, regs := t.regs }) ∧
    (∀ bs, leAt (flitPayload f) 1 1 = 0 → b.data = some bs → ∃ t, exec (.bulkAccept n f) s = .next t ∧
      t.port n = { s.answered n (streamFlits strBulk s.fnNat bs 0 (cdiv b.len 240)) with bulk := some { b with accepted := true, since := none } } ∧
      t.reel.bulkDone = BitVec.ofNat 32 (b.len / 64) ∧ t = { s with reel := t.reel })) ∧
  (∀ (s : State) (n : Nat) (f : Blob) (b : Bulk), s.controls n 7 12 f → (s.port n).bulk = some b → b.tx = true → leAt (flitPayload f) 2 2 = 0 →
    leAt (flitPayload f) 1 1 ≤ 1 → s.regsWf →
    ∃ t, exec (.bulkDone n f) s = .next t ∧ t.reel.bulkCode = (if leAt (flitPayload f) 1 1 = 0 then 0 else 0x21) ∧
      t.reel.bulkDone = BitVec.ofNat 32 (leAt (flitPayload f) 4 8 / 64) ∧ t.port n = { s.heard n with bulk := none, use := .free } ∧
      t.regBit Reg.reelBulkCtrl 31 = false ∧ t = { s with reel := t.reel, regs := t.regs }) ∧
  (∀ (s : State) (n len : Nat) (f : Blob) (b : Bulk), s.hears n 1 f → flitStream f = strBulk → s.xfer n strBulk = none → s.openL 4 n strBulk = [] →
    (s.port n).dist = none → (s.port n).bulk = some b → b.tx = false → b.accepted = true → b.offered = some len → flitSeq f < cdiv len 240 →
    flitFlags f / 2 % 2 = 0 → s.hostWf →
    ∃ t, exec (.dataFlit n f) s = .next t ∧
      (t.port n).bulk = some { b with got := if flitSeq f ∈ b.got then b.got else b.got ++ [flitSeq f], since := none } ∧
      (∀ a, t.hostByte a = if b.addr.toNat + 240 * flitSeq f ≤ a ∧
          a < b.addr.toNat + 240 * flitSeq f + min 240 (len - 240 * flitSeq f) then
        some ((flitPayload f).getD (a - (b.addr.toNat + 240 * flitSeq f)) 0) else s.hostByte a) ∧
      t = { s with reel := { s.reel with port := t.reel.port, bulkDone := t.reel.bulkDone }, host := t.host }) ∧
  (∀ s : State, s.reel.port.length = 8 → s.regsWf → ∃ t, exec .bulkAbortWrite s = .next t ∧
    (∀ n, n < 8 → (t.port n).bulk = none ∧ ((s.port n).bulk = none → t.port n = s.port n) ∧
      ((s.port n).bulk.isSome = true → (t.port n).use = .free ∧ t.reel.bulkCode = 0x32 ∧ t.regBit Reg.reelBulkCtrl 31 = false ∧
        ((s.port n).carries = true → (t.port n).sent = controlFlit strBulk s.fnNat (leBytes 1 8 ++ leBytes 1 1) :: (s.port n).sent))) ∧
    s.regsBut t [Reg.reelBulkCtrl] ∧ t = { s with reel := t.reel, regs := t.regs })

/-- TAKE to CDK, WIPE_DONE, the key imports, the group key's activation and retirement, RNG_FAIL, LIFECYCLE_RETURN,
ATTEST. While no command runs, a custody command whose host read fails has detail 7, one that fails a check has the
first failed check's detail and sets cmd_err, and neither does anything else; an accepted one counts up and has its
op's effect: TAKE holds custody under the block's key, TRANSFER and RELEASE begin a wipe and the teardown of every
partition, PUB_ADD and PUB_REMOVE change the publisher list, CDK takes the key it unwraps. While one runs, others are
ignored. A wipe ends when every partition is FREE: the plate is unloaded, the keys and publishers are gone, the
custody key is replaced or removed. A key import outside custody, one whose read fails, and one that does not unwrap
set key_err with their detail; else the key is taken, a spent group key not. A pending group key becomes the current
one at its tick, the current one is kept as the previous for 16 frames and then retired. A partition's import key
becomes ready; the random source's failure is noted; a device in nobody's custody can be returned. ATTEST at a running
tick after its observation writes its signed report where the buffer holds it, else it completes with NOT_PERMITTED.
What the identity key signs is a free value (log entry 3). (16 R448, 16 R449, 16 R450, 16 R451, 16 R452, 16 R453, 16
R454, 16 R457, 16 R461, 16 R462, 16 R467, 16 R471) -/
def Obligations.CustodyCommandsKeysAndReports : Prop :=
  (∀ (s : State) (op : Nat) (c : Instr) (block : Option Blob), (op = 1 ∧ c = .take block) ∨ (op = 2 ∧ c = .transfer block) ∨
      (op = 3 ∧ c = .release block) ∨ (op = 4 ∧ c = .pubAdd block) ∨ (op = 5 ∧ c = .pubRemove block) ∨ (op = 6 ∧ c = .cdk block) → s.regsWf →
    (s.sec.wipe.isSome = true → exec c s = .next s) ∧
    (s.sec.wipe = none → s.prt.part.length = 32 → ∃ t, exec c s = .next t ∧
      (block = none → t.regBit Reg.secStatus 0 = true ∧ s.regsBut t [Reg.secStatus] ∧
        t = { s with sec := { s.sec with cmdDetail := 7 }, regs := t.regs }) ∧
      ∀ b, block = some b → (let d := s.cmdDetail b
        (d ≠ 0 → t.regBit Reg.secStatus 0 = true ∧ s.regsBut t [Reg.secStatus] ∧
          t = { s with sec := { s.sec with cmdDetail := BitVec.ofNat 8 d }, regs := t.regs }) ∧
        (d = 0 → cmdOp b = op → t.sec.count = s.sec.count + 1 ∧ t.sec.cmdDetail = 0 ∧ s.regsBut t [Reg.secCmdCtrl, Reg.clgStatus] ∧
          (op = 1 → t.sec.custody = .held ∧ t.sec.custodyKey = some (cmdKey b)) ∧
          (op = 2 → t.sec.custody = .wiping ∧ t.sec.wipe = some { newKey := some (cmdKey b) }) ∧
          (op = 3 → t.sec.custody = .wiping ∧ t.sec.wipe = some { newKey := none }) ∧
          (op = 2 ∨ op = 3 → t.regBit Reg.secCmdCtrl 31 = true ∧
            (∀ p, p < 32 → (s.part p).state = .active → t.part p = { s.part p with teardown := some ((s.part p).teardown.getD (s.waitFrom s.now)) }) ∧
            (∀ p, p < 32 → (s.part p).state = .queuedOn → t.part p = { s.part p with state := .tearing }) ∧
            (∀ p, p < 32 → (s.part p).state = .free → t.part p = s.part p)) ∧
          (op = 4 → t.sec.pubs = s.sec.pubs ++ [cmdDigest b]) ∧ (op = 5 → t.sec.pubs = s.sec.pubs.filter fun e => decide (e ≠ cmdDigest b)) ∧
          (op ≠ 4 ∧ op ≠ 5 → t.sec.pubs = s.sec.pubs) ∧ (op = 6 → unwrapCdk b = t.sec.cdk) ∧ (op ≠ 6 → t.sec.cdk = s.sec.cdk) ∧
          (op ≠ 2 ∧ op ≠ 3 → t.prt = s.prt) ∧ t = { s with sec := t.sec, clog := t.clog, regs := t.regs, prt := t.prt })))) ∧
  (∀ (s : State) (w : Wipe), s.sec.wipe = some w → (∀ p ∈ s.prt.part, p.state = .free) → s.regsWf →
    ∃ t, exec .wipeDone s = .next t ∧ t.sec.wipe = none ∧ t.sec.custody = (if w.newKey.isSome = true then .held else .none) ∧
      t.sec.custodyKey = w.newKey ∧ t.sec.cdk = none ∧ t.sec.gk = none ∧ t.sec.gkPrev = none ∧ t.sec.gkPending = none ∧ t.sec.plateKey = none ∧
      t.sec.pubs = [] ∧ t.plate.plate = none ∧ t.plate.load = none ∧ t.plate.asking = none ∧ t.regBit Reg.secCmdCtrl 31 = false ∧
      (s.plate.plate = none → s.plate.load = none → s.plate.asking = none → s.regsBut t [Reg.secCmdCtrl] ∧
        t = { s with sec := t.sec, regs := t.regs })) ∧
  (∀ (s : State) (w : Option Blob) (c : Instr) (kind : Nat), (c = .plateKeyImport w ∧ kind = 1) ∨ (c = .groupKeyImport w ∧ kind = 2) → s.regsWf →
    ∃ t, exec c s = .next t ∧ t.regFld Reg.secKeyCtrl 0 2 = kind ∧ s.regsBut t [Reg.secKeyCtrl, Reg.secStatus] ∧
      t = { s with sec := t.sec, regs := t.regs } ∧
      (t.sec.keyDetail ≠ 0 → t.regBit Reg.secStatus 1 = true ∧ t.sec = { s.sec with keyDetail := t.sec.keyDetail }) ∧
      (s.keyBarred = true ∨ kind = 1 ∧ (s.plate.load.isSome = true ∨ s.plate.asking.isSome = true) → t.sec.keyDetail = 5) ∧
      (s.keyBarred = false → (kind = 1 → s.plate.load = none ∧ s.plate.asking = none) →
        (w = none → t.sec.keyDetail = 7) ∧
        ∀ b, w = some b → match oaepDecrypt Config.transportKey (ascii (if kind = 1 then "UMD-PLATE-KEY" else "UMD-GROUP-KEY")) b with
          | none => t.sec.keyDetail = 6
          | some p =>
            (kind = 1 → if p.length = 128 ∧ allZero (slice p 0x20 0x20) = true then
              t.sec = { s.sec with keyDetail := 0, plateKey := some (BitVec.ofNat 256 (leAt p 0 32), digestOf (slice p 0x40 64)) }
              else t.sec.keyDetail = 6) ∧
            (kind = 2 → if p.length = 128 ∧ leAt p 0x20 1 < 16 ∧ allZero (slice p 0x21 0x5F) = true then
              (let k : GroupKey := { gen := BitVec.ofNat 4 (leAt p 0x20 1), key := BitVec.ofNat 256 (leAt p 0 32), boots := 0 }
               let at_ := if fnLe (s.reg Reg.secKeyFn) s.tbm.fn = true then s.tbm.fn + 1 else s.reg Reg.secKeyFn
               if s.sec.gkSpent = true ∧ s.sec.gk.map (fun g => g.key) = some k.key then t.sec.keyDetail = 8
               else t.sec = { s.sec with keyDetail := 0, gkPending := some (k, at_) })
              else t.sec.keyDetail = 6))) ∧
  (∀ (s : State) (k : GroupKey) (fn : BitVec 32), s.sec.gkPending = some (k, fn) → s.tbm.running = true → fnLe fn s.tbm.fn = true → s.saf.safe = false →
    exec .groupKeyActivate s = .next { s with sec := { s.sec with gk := some k, gkPrev := s.sec.gk.map fun g => (g, 16), gkPending := none,
                                                                  gkSpent := false } }) ∧
  (∀ (s : State) (k : GroupKey), s.sec.gkPrev = some (k, 0) → exec .groupKeyRetire s = .next { s with sec := { s.sec with gkPrev := none } }) ∧
  (∀ (s : State) (p : Nat) (x : PartKeys), s.sec.part[p]? = some x → x.generating = true → s.sec.rngFail = false →
    ∃ t, exec (.importKeyReady p) s = .next t ∧ t = { s with free := s.free + 1, sec := { s.sec with part := t.sec.part } } ∧
      t.sec.part = s.sec.part.set p { x with imp := some (Config.newModulus s.free), generating := false }) ∧
  (∀ s : State, s.regsWf → ∃ t, exec .rngFail s = .next t ∧ t.sec = { s.sec with rngFail := true } ∧ s.regsBut t [Reg.clgStatus] ∧
    t = { s with sec := t.sec, clog := t.clog, regs := t.regs }) ∧
  (∀ s : State, s.sec.custody = .none →
    exec .lifecycleReturn s = .next { s with sec := { s.sec with life := .returned, vendorKeys := false } }) ∧
  (∀ (s : State) (k : ItemKey) (i : Item), s.fresh k 0x40 = some i →
    (s.returned = true → ∃ t, exec (.attest k) s = .next t ∧ t.completed k 0x31 ∧ t = { s with items := t.items }) ∧
    (s.returned = false → s.tbm.running = true → i.obs.toNat < s.tbm.tLast.toNat → ∃ t, exec (.attest k) s = .next t ∧
      (let body := s.report (i.field 0x10 1) k.set (leBytes 32 (i.field 0x20 32))
       if body.length + 512 ≤ i.field 0x14 4 then
         (∃ j, t.item? k = some j ∧ j.done = some { status := 0, info := 0, result := resultOf (leBytes 8 (body.length + 512)),
                                                    outs := [(i.field 0x18 8, body ++ identitySign body s.free)] }) ∧
         t = { s with items := t.items, free := s.free + 1 }
       else t.completed k 0x31 ∧ t = { s with items := t.items }))) ∧
  (∀ (s : State) (k : ItemKey) (i : Item), s.fresh k 0x40 = some i → s.returned = false → (s.tbm.running = false ∨ s.tbm.tLast.toNat ≤ i.obs.toNat) →
    exec (.attest k) s = .next s)

/-- GET_VERSION to GET_MEASUREMENTS, the MCTP control messages, PLDM_REQUEST, MCTP_TX, MCTP_RX_RELEASE, SMBUS_PACKET,
SENSOR_UPDATE. On a path that is up GET_VERSION is answered with version 1.2 and begins the transcript; each other
SPDM request in its order, of version 1.2 and whole, is answered with its response, and both join the transcript; from
a returned device, of another version, out of order or short it is answered with an error, and the transcript stays.
SET_ENDPOINT_ID sets the endpoint's ID or is refused; the other control requests are answered with the ID, a version
and the message types. PLDM gives the reading of sensors 1 to 24 and refuses others. On the UCL path the answer joins
the packets that wait, and the first takes the packet area when it is free. MCTP_TX takes a packet of 5 to 68 bytes;
MCTP_RX_RELEASE gives the area to the next one; an SMBus packet to this address with a right PEC is taken.
SENSOR_UPDATE replaces the readings of the sensors that are up. The layouts of the messages are those of the DMTF
standards (log entry 40), and what they leave to the device is free (log entry 3). (16 R465, 16 R466, 16 R471, 16
Table 16.8, 18 R512, 20 R531) -/
def Obligations.TheResponderAnswersItsMessages : Prop :=
  (∀ (s : State) (path : MctpPath) (req : Blob), s.pathUp path = true → leAt req 1 1 = 0x84 →
    ∃ t, exec (.getVersion path req) s = .next t ∧
      t.sec.response = some (leBytes 1 0x10 ++ leBytes 1 0x04 ++ leBytes 2 0 ++ leBytes 1 0 ++ leBytes 1 1 ++ leBytes 2 0x1200) ∧
      (∃ m, t.sec.transcript = [req, m] ∧ t.sec.response = some m) ∧ (path = .smbus → t.sec.rx = s.sec.rx ∧ t.sec.rxQueue = s.sec.rxQueue) ∧
      t = { s with sec := { s.sec with response := t.sec.response, transcript := t.sec.transcript, rx := t.sec.rx, rxQueue := t.sec.rxQueue } }) ∧
  (∀ (s : State) (path : MctpPath) (req : Blob) (c : Instr) (code len after : Nat), s.pathUp path = true →
    (c = .getCapabilities path req ∧ code = 0xE1 ∧ len = 4 ∧ after = 0x04) ∨ (c = .negotiateAlgorithms path req ∧ code = 0xE3 ∧ len = 32 ∧ after = 0x61) ∨
      (c = .getDigests path req ∧ code = 0x81 ∧ len = 4 ∧ after = 0x63) ∨ (c = .getCertificate path req ∧ code = 0x82 ∧ len = 8 ∧ after = 0x63) ∨
      (c = .challenge path req ∧ code = 0x83 ∧ len = 36 ∧ after = 0x63) ∨ (c = .getMeasurements path req ∧ code = 0xE0 ∧ len = 4 ∧ after = 0x63) →
    leAt req 1 1 = code →
    ∃ t m, exec c s = .next t ∧ t.sec.response = some m ∧
      (s.returned = true → m = spdmError 0x05) ∧
      (s.returned = false → leAt req 0 1 ≠ 0x12 → m = spdmError 0x41) ∧
      (s.returned = false → leAt req 0 1 = 0x12 → s.spoken after = false → m = spdmError 0x04) ∧
      (s.returned = false → leAt req 0 1 = 0x12 → s.spoken after = true → req.length < len → m = spdmError 0x01) ∧
      (t.sec.transcript = if leAt m 1 1 = 0x7F then s.sec.transcript else s.sec.transcript ++ [req, m]) ∧
      (s.returned = false → leAt req 0 1 = 0x12 → s.spoken after = true → len ≤ req.length → (m = spdmError 0x01 ∨ leAt m 1 1 = code % 0x80) ∧
        (code = 0xE1 → leAt m 8 4 = 0x16) ∧
        (code = 0xE3 → leAt m 12 4 = leAt req 8 4 / 0x40 % 2 * 0x40 ∧ leAt m 16 4 = leAt req 12 4 / 4 % 2 * 4) ∧
        (code = 0x81 → m = spdm 0x01 0 1 (digestBytes (sha512 Config.certChain))) ∧
        (code = 0x82 → leAt req 2 1 % 16 = 0 → leAt req 4 2 < Config.certChain.length →
          m.drop 8 = (Config.certChain.drop (leAt req 4 2)).take (leAt req 6 2)) ∧
        (code = 0x82 → leAt req 2 1 % 16 ≠ 0 → m = spdmError 0x01) ∧
        (code = 0x83 → leAt req 2 1 % 16 = 0 → leAt req 3 1 = 0 → leAt m 1 1 = 0x03 ∧
          (m.drop 4).take 64 = digestBytes (sha512 Config.certChain) ∧ m.length = 4 + 64 + 32 + 2 + 512) ∧
        (code = 0xE0 → leAt req 2 1 % 2 = 0 → leAt req 3 1 = 0 → leAt m 2 1 = 9 ∧ leAt m 4 1 = 0) ∧
        (code = 0xE0 → 9 < leAt req 3 1 → leAt req 3 1 ≠ 0xFF → m = spdmError 0x01)) ∧
      (path = .smbus → t.sec.rx = s.sec.rx ∧ t.sec.rxQueue = s.sec.rxQueue) ∧
      t = { s with free := t.free,
                   sec := { s.sec with response := t.sec.response, transcript := t.sec.transcript, rx := t.sec.rx, rxQueue := t.sec.rxQueue } }) ∧
  (∀ (s : State) (path : MctpPath) (req : Blob) (c : Instr) (cmd : Nat), s.pathUp path = true → 128 ≤ leAt req 0 1 → leAt req 1 1 = cmd →
    (c = .setEndpointId path req ∧ cmd = 1) ∨ (c = .getEndpointId path req ∧ cmd = 2) ∨ (c = .getMctpVersionSupport path req ∧ cmd = 4) ∨
      (c = .getMessageTypeSupport path req ∧ cmd = 5) →
    ∃ t m, exec c s = .next t ∧ t.sec.response = some m ∧ leAt m 0 1 = leAt req 0 1 % 32 ∧ leAt m 1 1 = cmd ∧
      (let e := leAt req 3 1
       let bad := 2 ≤ leAt req 2 1 % 4 ∨ e = 0 ∨ e = 0xFF
       (cmd = 1 → bad → t.sec.eid = s.sec.eid ∧ m = [BitVec.ofNat 8 (leAt req 0 1 % 32), 1, 2]) ∧
       (cmd = 1 → ¬ bad → t.sec.eid = BitVec.ofNat 8 e ∧ m = [BitVec.ofNat 8 (leAt req 0 1 % 32), 1, 0, 0, BitVec.ofNat 8 e, 0])) ∧
      (cmd ≠ 1 → t.sec.eid = s.sec.eid) ∧ (cmd = 2 → m = [BitVec.ofNat 8 (leAt req 0 1 % 32), 2, 0, s.sec.eid, 0, 0]) ∧
      (cmd = 4 → leAt m 2 1 = if leAt req 2 1 = 0xFF ∨ leAt req 2 1 = 0 ∨ leAt req 2 1 = 5 then 0 else 0x80) ∧
      (cmd = 5 → m = [BitVec.ofNat 8 (leAt req 0 1 % 32), 5, 0, 1, 5]) ∧ (path = .smbus → t.sec.rx = s.sec.rx ∧ t.sec.rxQueue = s.sec.rxQueue) ∧
      t = { s with free := t.free, sec := { s.sec with eid := t.sec.eid, response := t.sec.response, rx := t.sec.rx, rxQueue := t.sec.rxQueue } }) ∧
  (∀ (s : State) (path : MctpPath) (req : Blob), s.pathUp path = true → 128 ≤ leAt req 0 1 → leAt req 1 1 = 2 → leAt req 2 1 = 0x11 →
    ∃ t m, exec (.pldmRequest path req) s = .next t ∧ t.sec.response = some m ∧
      (let n := leAt req 3 2
       m.take 3 = [BitVec.ofNat 8 (leAt req 0 1 % 32), 2, 0x11] ∧ leAt m 3 1 = (if 1 ≤ n ∧ n ≤ 24 then 0 else 0x80) ∧
       (1 ≤ n → n ≤ 24 → s.sensorUp n = true → leAt m 5 1 = 0 ∧ leAt m 10 4 = (intWord (s.pwr.sensors.getD (n - 1) 0)).toNat) ∧
       (1 ≤ n → n ≤ 24 → s.sensorUp n = false → leAt m 5 1 = 2)) ∧
      t = { s with sec := { s.sec with response := t.sec.response, rx := t.sec.rx, rxQueue := t.sec.rxQueue } }) ∧
  (∀ s : State, s.pathUp .ucl = true → 5 ≤ s.regFld Reg.secMctpCtrl 0 7 → s.regFld Reg.secMctpCtrl 0 7 ≤ 68 →
    exec .mctpTx s = .next { s with sec := { s.sec with
      tx := some (((List.range 20).flatMap fun w => leBytes 4 (s.reg (Reg.secMctpTx + 4 * w)).toNat).take (s.regFld Reg.secMctpCtrl 0 7)) } }) ∧
  (∀ s : State, (s.sec.rxQueue = [] → exec .mctpRxRelease s = .next { s with sec := { s.sec with rx := none } }) ∧
    (∀ p ps, s.sec.rxQueue = p :: ps → exec .mctpRxRelease s = .next { s with sec := { s.sec with rx := some p, rxQueue := ps } })) ∧
  (∀ (s : State) (msg : Blob) (path : MctpPath), s.respond path 5 msg = (if path = .smbus then { s with sec := { s.sec with response := some msg } }
    else match s.sec.rx, s.sec.rxQueue ++ s.packets (leBytes 1 5 ++ msg) with
      | none, p :: ps => { s with sec := { s.sec with response := some msg, rx := some p, rxQueue := ps } }
      | _, q => { s with sec := { s.sec with response := some msg, rxQueue := q } })) ∧
  (∀ (s : State) (a : BitVec 7) (bs : Blob), s.pins.vaux = true → a.toNat = 0x64 + s.pins.smbAddr.toNat → 2 ≤ bs.length →
    (crc8 (leBytes 1 (2 * a.toNat) ++ bs.dropLast) = bs.getLastD 0 →
      exec (.smbusPacket a bs) s = .next { s with sec := { s.sec with tx := some (bs.dropLast.drop 3) } }) ∧
    (crc8 (leBytes 1 (2 * a.toNat) ++ bs.dropLast) ≠ bs.getLastD 0 → exec (.smbusPacket a bs) s = .next s)) ∧
  (∀ (s : State) (vs : List Int), vs.length = 24 → s.pwr.sensors.length = 24 → s.pins.vaux = true →
    ∃ t, exec (.sensorUpdate vs) s = .next t ∧ t = { s with pwr := { s.pwr with sensors := t.pwr.sensors } } ∧
      ∀ n, n < 24 → t.pwr.sensors[n]? = if s.sensorUp (n + 1) = true then vs[n]? else s.pwr.sensors[n]?)

/-- SAFE_REQ to VAUX_FAIL: the safe state, fence requests and fences, the watchdogs, the log. A requested safe state, or
the third commit point without a commit, enters the safe state with its cause: the heartbeat pair is low, every
descriptor completes with DEVICE_SAFE_STATE, the engines stop and ACLK is gated; in the safe state neither changes the
cause, unless it comes at the same TB. A fence request for a unit that can be fenced waits, once; another sets
SAF_STATUS.cfg_err. At its tick a fenced partition is torn down and a fenced tint withdrawn with FENCED_UNIT, a fenced
session ends with it, and each is grey and counted. SAF_CTRL and SAF_PROMOTE take what the lock lets them, the fixed
bits as they are. An NMD that three frames saw no sign of life from is fenced. At a commit moment the oldest staged
record takes its slot of the log under the next number; a readout selects a slot and flags a bad CRC. When VAUX fails
the log stages POWER_FAIL and is on hold-up, with the heartbeat pair low. (17 R477, 17 R478, 17 R483, 17 R484, 17
R485, 17 R486, 17 R487, 17 R488, 17 R489, 17 R490, 17 R491, 17 R495) -/
def Obligations.DetectionsFencesAndTheContinuityLog : Prop :=
  (∀ (s : State) (c : Instr) (cls : Byte), (c = .safeReq ∧ cls = 0x11) ∨ (c = .directorHang ∧ 3 ≤ s.saf.missedCommits ∧ cls = 0x08) →
    (s.saf.safe = false → ∃ t, exec c s = .next t ∧ t.saf.safe = true ∧ t.saf.hbA = false ∧ t.saf.hbB = false ∧ t.saf.causeClass = cls ∧
      t.saf.causeKind = 0xFF ∧ t.saf.causeUnit = 0 ∧ t.saf.causeFn = s.tbm.fn ∧ t.saf.causeTb = s.tbm.tb ∧ t.pwr = { s.pwr with gated := true } ∧
      (∀ k i, s.item? k = some i → t.completed k 0x3F) ∧ t.grid.drains = [] ∧ t.tiers = { s.tiers with running := [] } ∧ t.ins.queue = [] ∧
      (∀ u < 32, (t.unit u).prog = none) ∧ (∀ n < 12, (t.updOf n).queue = []) ∧ (∀ n < 8, (t.port n).xfers = []) ∧
      t.tbm = s.tbm ∧ t.sec = s.sec ∧ t.prt = s.prt ∧ t.tints = s.tints ∧ t.ses = s.ses ∧ t.plate = s.plate ∧ t.boot = s.boot ∧ t.host = s.host) ∧
    (s.saf.safe = true → s.saf.causeTb ≠ s.tbm.tb → ∃ t, exec c s = .next t ∧ t.saf = { s.saf with missedCommits := t.saf.missedCommits } ∧
      t = { s with saf := t.saf, clog := t.clog, regs := t.regs })) ∧
  (∀ s : State, s.saf.missedCommits < 3 → exec .directorHang s = .next s) ∧
  (∀ (s : State) (c : Instr) (kind n : Nat) (armed can : Bool), s.regsWf →
    (c = .uclPortFenceReq n ∧ kind = 5 ∧ armed = true ∧ can = (decide (n ≤ 1) && !(s.uclPort n).grey)) ∨
      (c = .partitionFenceReq n ∧ kind = 6 ∧ armed = false ∧ can = (decide (n ≤ 31) && !s.saf.greyParts.contains n &&
        decide ((s.part n).state = .creating ∨ (s.part n).state = .ready ∨ (s.part n).state = .active ∨ (s.part n).state = .frozen))) ∨
      (c = .tintFenceReq n ∧ kind = 7 ∧ armed = true ∧ can = (decide (n ≤ 65535) && !s.saf.greyTints.contains n &&
        decide ((s.tintOf n).state ≠ .free ∧ (s.tintOf n).state ≠ .registering ∧ (s.tintOf n).state ≠ .withdrawing))) ∨
      (c = .sessionFenceReq n ∧ kind = 8 ∧ armed = true ∧ can = (decide (n ≤ 65535) && !s.saf.greySessions.contains n &&
        decide ((s.sesOf n).state = .opened ∨ (s.sesOf n).state = .withdrawn))) →
    (can = true → s.fenceWaits kind n = false → exec c s = .next { s with saf := { s.saf with
      reqs := s.saf.reqs ++ [{ kind := kind, unit := n, since := s.now, armed := armed, due := false, requested := true }] } }) ∧
    (can = true → s.fenceWaits kind n = true → exec c s = .next s) ∧
    (can = false → ∃ t, exec c s = .next t ∧ t.regBit Reg.safStatus 4 = true ∧ s.regsBut t [Reg.safStatus] ∧ t = { s with regs := t.regs })) ∧
  (∀ (s : State) (p : Nat) (r : FenceReq), p < 32 → s.dueFence? 6 p = some r → s.saf.safe = false →
    ((s.part p).state = .creating ∨ (s.part p).state = .ready ∨ (s.part p).state = .active ∨ (s.part p).state = .frozen) →
    s.prt.part.length = 32 → s.saf.fenceCnt.length = 11 → s.regsWf →
    ∃ t, exec (.partitionFence p) s = .next t ∧ (t.part p).state = .tearing ∧ (t.part p).fenced = true ∧
      (∀ q, q ≠ p → t.part q = { s.part q with freezeItems := (s.part q).freezeItems.filter fun j => !(s.part p).freezeItems.contains j }) ∧
      p ∈ t.saf.greyParts ∧ t.dueFence? 6 p = none ∧ t.saf.fenceCnt[6]? = (s.saf.fenceCnt[6]?).map (fun x => satAdd 32 x 1) ∧
      t.regBit Reg.safStatus 3 = true ∧
      (∀ k i, s.item? k = some i → k.set = p → k.replayed = false → k ∉ (s.part p).captured → k ∉ (s.part p).freezeItems → i.op ≠ 0x3A → i.done = none →
        t.completed k 0x22)) ∧
  (∀ (s : State) (n : Nat) (r : FenceReq), s.dueFence? 7 n = some r → s.saf.safe = false →
    (s.tintOf n).state ≠ .free ∧ (s.tintOf n).state ≠ .registering ∧ (s.tintOf n).state ≠ .withdrawing →
    Sparse.wf (fun _ => Tint.init) s.tints = true → s.saf.fenceCnt.length = 11 → s.regsWf →
    ∃ t, exec (.tintFence n) s = .next t ∧ (t.tintOf n).state = .withdrawing ∧ (t.tintOf n).slot = (s.tintOf n).slot ∧ (t.tintOf n).pinned = false ∧
      (∀ m, m ≠ n → t.tintOf m = s.tintOf m) ∧ n ∈ t.saf.greyTints ∧ t.dueFence? 7 n = none ∧
      t.saf.fenceCnt[7]? = (s.saf.fenceCnt[7]?).map (fun x => satAdd 32 x 1) ∧ t.regBit Reg.safStatus 3 = true) ∧
  (∀ (s : State) (n : Nat) (r : FenceReq), s.dueFence? 8 n = some r → s.saf.safe = false →
    (s.sesOf n).state = .opened ∨ (s.sesOf n).state = .withdrawn → Sparse.wf (fun _ => Ses.init) s.ses = true → s.saf.fenceCnt.length = 11 → s.regsWf →
    ∃ t, exec (.sessionFence n) s = .next t ∧ (t.sesOf n).state = .closing ∧ (t.sesOf n).close = none ∧ n ∈ t.saf.greySessions ∧
      t.dueFence? 8 n = none ∧ t.saf.fenceCnt[8]? = (s.saf.fenceCnt[8]?).map (fun x => satAdd 32 x 1) ∧ t.regBit Reg.safStatus 3 = true ∧
      (∀ k i, s.item? k = some i → ofSession (s.sesOf n).owner n k i = true → i.done = none → t.completed k 0x22)) ∧
  (∀ (s : State) (v : Word) (c : Instr) (key : Nat) (w : Word), s.regsWf → (c = .safCtrlWrite v ∧ key = Reg.safCtrl ∧ w = v &&& 0xF7F) ∨
      (c = .safPromoteWrite v ∧ key = Reg.safPromote ∧ w = (v &&& 0x3FFFE) ||| 0x301C0) →
    (s.locked .saf = true → exec c s = .next s) ∧
    (s.locked .saf = false → ∃ t, exec c s = .next t ∧ t.reg key = w ∧ s.regsBut t [key, Reg.clgStatus] ∧
      t = { s with regs := t.regs, clog := t.clog })) ∧
  (∀ (s : State) (n : Nat), n < 12 → 3 ≤ (s.saf.nmdAlive.getD n (0, 0)).2 → (s.nmdOf n).state ≠ .grey → s.tiers.anyLost = false →
    s.promoted 0x04 = false → s.promoted 0x09 = false → s.nmd.length = 12 → s.saf.fenceCnt.length = 11 →
    ∃ t, exec (.nmdHang n) s = .next t ∧ (t.nmdOf n).state = .grey ∧ t.tiers.anyLost = true ∧ t.tiers.firstLost = n ∧ t.saf.safe = s.saf.safe ∧
      t.saf.fenceCnt[3]? = (s.saf.fenceCnt[3]?).map (fun x => satAdd 32 x 1)) ∧
  (∀ (s : State) (r : LogRec) (rest : List LogRec), s.clog.staged = r :: rest → Sparse.wf (fun _ => (none : Option (BitVec 512))) s.clog.mram = true →
    ∃ t, exec .logCommit s = .next t ∧ t.clog.staged = rest ∧ t.clog.n = s.clog.n + 1 ∧
      (∀ k, Sparse.get (fun _ => none) t.clog.mram k = if k = logSlot s.clog.n.toNat then
        some (BitVec.ofNat 512 (leNat (r.bytes s.clog.n (r.flags ||| (if s.clog.holdup then 2 else 0)).toNat)))
        else Sparse.get (fun _ => none) s.clog.mram k) ∧
      (s.tbm.counting = true → s.now + 2000 < 2 ^ 64 → t.now = (s.now / 2000 + 1) * 2000 ∧ t = { s with tbm := t.tbm, clog := t.clog }) ∧
      (s.tbm.counting = false → t.clog.standbyMoments = s.clog.standbyMoments + 1 ∧ t = { s with clog := t.clog })) ∧
  (∀ (s : State) (k : Nat), s.pins.vaux = true → s.regsWf → ∃ t, exec (.clgSlotReadout k) s = .next t ∧ t.regFld Reg.clgSel 0 18 = k % 262144 ∧
    t.regBit Reg.clgStatus 1 = (s.regBit Reg.clgStatus 1 || (match Sparse.get (fun _ => none) s.clog.mram (k % 262144) with
      | some w => !slotCrcOk w
      | none => false)) ∧ s.regsBut t [Reg.clgSel, Reg.clgStatus] ∧ t = { s with regs := t.regs }) ∧
  (∀ s : State, s.clog.holdup = false → s.pins.vaux = true → ∃ t, exec .vauxFail s = .next t ∧ t.clog.holdup = true ∧ t.pins = { s.pins with vaux := false } ∧
    t.saf = { s.saf with hbA := false, hbB := false } ∧
    (∃ r, t.clog.staged.getLast? = some r ∧ r.code = 0x0904 ∧ r.args.head? = some 1) ∧
    (s.clog.staged.length < 32 → t.clog.staged.dropLast = s.clog.staged ∧ t.regs = s.regs) ∧
    t = { s with clog := t.clog, pins := t.pins, saf := t.saf, regs := t.regs })

/-- DROOP_TRIP to SUPPLY_FAULT, MAIN_POWER_FAIL, STANDBY_POWER_ON, the JTAG instructions. A trip slower than the step in
force engages its step: it is counted and every begun segment goes on from its first edge at or after the present; a
trip at the step in force restarts the stable count; a faster one does nothing. A stable count of 2,000 ns releases
one step unless the 115 degree hold is on. A sample of the seven sensors gives Tj, its sensor and peak, and the
consecutive counts; two at 105 set warm, two at 115 set hot, which engages F3, ten cool rounds clear them; two at 125
enter the safe state, as do the loss of the reference clock and a supply fault. A failing main supply logs POWER_FAIL,
keeps the last measurements and the registers of the standby domain and loses the rest; standby power-on keeps what is
in MRAM, the key store and the flash, and samples the straps. EXTEST and SAMPLE/PRELOAD need PERST_N low; IDCODE,
VTARGET, BYPASS and TRST work on VAUX; a debug code is BYPASS outside DEVELOPMENT, and in it the command is refused by
name, since the spec says nothing of the debug unit. Their register contents that the spec leaves open are free (log
entry 3). (16 R466, 16 R470, 17 R494, 18 R500, 18 R501, 18 R502, 18 R505, 18 R506, 18 R507, 18 R508, 18 R509, 20 R532) -/
def Obligations.FadeHeatSupplyAndTheJtagPort : Prop :=
  (∀ (s : State) (k : Nat), 1 ≤ k → k ≤ 3 → s.pwr.gated = false → s.pins.mainOn = true →
    (s.pwr.step < k → s.regsWf → s.player.ctx.length = 34 → ∃ t, exec (.droopTrip k) s = .next t ∧ t.pwr.step = k ∧ t.pwr.countFrom = s.now ∧
      t.pwr.fadeCnt = satAdd 32 s.pwr.fadeCnt 1 ∧ t.pwr.engaged = s.pwr.engaged + 1 ∧ t.pwr.slowest = max s.pwr.slowest k ∧
      (∀ n, t.pwr.stepNs[n]? = if n + 1 = s.pwr.step then (s.pwr.stepNs[n]?).map (fun x => x + (s.now - s.pwr.countedTb)) else s.pwr.stepNs[n]?) ∧
      t.regBit Reg.pwrStatus 4 = true ∧ s.regsBut t [Reg.pwrStatus] ∧
      (∀ o, o < 34 → t.ctx o = if (s.ctx o).begun = true then
        { s.ctx o with refCyc := s.cycleAt o s.now, refT := s.cycleTime o (s.cycleAt o s.now) } else s.ctx o) ∧
      t = { s with pwr := t.pwr, player := { s.player with ctx := t.player.ctx }, regs := t.regs,
                   ins := { s.ins with last := t.ins.last, lastOpen := t.ins.lastOpen } }) ∧
    (s.pwr.step = k → exec (.droopTrip k) s = .next { s with pwr := { s.pwr with countFrom := s.now } }) ∧
    (k < s.pwr.step → exec (.droopTrip k) s = .next s)) ∧
  (∀ (s : State) (n : Nat), s.pwr.step ≠ 0 → s.pwr.hot = false → s.pwr.gated = false → s.tbm.counting = true →
    max n s.pwr.countFrom + 2000 < 2 ^ 64 → ∃ t, exec (.fadeRelease n) s = .next t ∧ t.pwr.step = s.pwr.step - 1 ∧
      t.now = max s.now (max n s.pwr.countFrom + 2000) ∧ t.pwr.countFrom = t.now ∧ t.pwr.fadeCnt = s.pwr.fadeCnt ∧
      t = { s with pwr := t.pwr, tbm := t.tbm, player := { s.player with ctx := t.player.ctx },
                   ins := { s.ins with last := t.ins.last, lastOpen := t.ins.lastOpen } }) ∧
  (∀ (s : State) (xs : List Int), xs.length = 7 → s.pins.mainOn = true → s.pwr.hotRuns.length = 7 → s.regsWf → s.player.ctx.length = 34 →
    let runs := (s.pwr.hotRuns.zip xs).map fun (e : (Nat × Nat × Nat) × Int) => nextRuns e.1 e.2
    let c1 := if xs.all (fun t => decide (t ≤ 1000)) = true then s.pwr.coolRuns.1 + 1 else 0
    let c2 := if xs.all (fun t => decide (t ≤ 1100)) = true then s.pwr.coolRuns.2 + 1 else 0
    let burns := s.pwr.hotRuns.any (fun r => decide (2 ≤ r.2.2)) = false ∧ runs.any (fun r => decide (2 ≤ r.2.2)) = true
    let heats := s.pwr.hot = false ∧ runs.any (fun r => decide (2 ≤ r.2.1)) = true
    ∃ t, exec (.thermalSample xs) s = .next t ∧ t.pwr.tj ∈ xs ∧ (∀ x ∈ xs, x ≤ t.pwr.tj) ∧ xs[t.pwr.tjSensor - 2]? = some t.pwr.tj ∧
      t.pwr.tjPeak = max s.pwr.tjPeak t.pwr.tj ∧ t.pwr.hotRuns = runs ∧ t.pwr.coolRuns = (c1, c2) ∧
      t.pwr.warm = (if s.pwr.warm = false then runs.any (fun r => decide (2 ≤ r.1)) else decide (c1 < 10)) ∧
      t.pwr.hot = (if s.pwr.hot = false then runs.any (fun r => decide (2 ≤ r.2.1)) else decide (c2 < 10)) ∧
      (heats → s.pwr.step < 3 → s.pwr.gated = false → t.pwr.step = 3 ∧ t.pwr.fadeCnt = satAdd 32 s.pwr.fadeCnt 1) ∧
      (¬ heats → t.pwr.step = s.pwr.step) ∧ (burns → t.saf.safe = true ∧ (s.saf.safe = false → t.saf.causeClass = 0x0A)) ∧
      (¬ burns → s.promoted 0x0A = false → t.saf = s.saf ∧
        t = { s with pwr := t.pwr, player := { s.player with ctx := t.player.ctx }, regs := t.regs, clog := t.clog,
                     ins := { s.ins with last := t.ins.last, lastOpen := t.ins.lastOpen } })) ∧
  (∀ s : State, s.pwr.refLost = false → s.pins.perst = true → ∃ t, exec .refclkLoss s = .next t ∧ t.pwr.refLost = true ∧ t.saf.safe = true ∧
    (s.saf.safe = false → t.saf.causeClass = 0x06) ∧ t.tbm = s.tbm ∧ t.tints = s.tints ∧ t.boot = s.boot ∧ t.sec = s.sec) ∧
  (∀ (s : State) (rail : Nat), rail ≤ 8 → s.pins.perst = true → ∃ t, exec (.supplyFault rail) s = .next t ∧ t.saf.safe = true ∧
    (s.saf.safe = false → t.saf.causeClass = 0x07) ∧ t.tbm = s.tbm ∧ t.tints = s.tints ∧ t.boot = s.boot ∧ t.sec = s.sec) ∧
  (∀ s : State, s.pins.mainOn = true → s.regsWf → ∃ t, exec .mainPowerFail s = .next t ∧ t.pins = { s.pins with mainOn := false } ∧
    t.sec = { s.sec with lastMeas := [1, 2, 3, 4, 5, 6, 7].map s.measValue, part := State.reset.sec.part } ∧ t.boot = s.boot ∧ t.pwr = s.pwr ∧
    (∃ r, t.clog.staged.getLast? = some r ∧ r.code = 0x0904 ∧ r.args.head? = some 0) ∧ t.tbm.running = false ∧ t.tbm.tb = s.tbm.tb ∧
    (∀ k, k ≠ Reg.clgStatus → t.reg k = if 0xE0000 ≤ k ∧ k < 0x130000 then s.reg k else regReset k) ∧ t.pending = s.pending ∧ t.host = s.host ∧
    t = { State.reset with tbm := t.tbm, regs := t.regs, clog := t.clog, sec := t.sec, saf := { s.saf with reqs := [] }, pwr := s.pwr, boot := s.boot,
                           pins := t.pins, host := s.host, pending := s.pending, free := t.free }) ∧
  (∀ (s : State) (x : BitVec 2), s.pins.vaux = false → s.boot.flashOp = none → ∃ t, exec (.standbyPowerOn x) s = .next t ∧ t.pins.vaux = true ∧
    t.pins.mainOn = false ∧ t.pins.perst = false ∧ t.pins.smbAddr = x ∧ t.pins.jtagIr = .idcode ∧ t.clog.mram = s.clog.mram ∧ t.clog.n = s.clog.n ∧
    t.clog.staged = [] ∧ t.clog.dropped = s.clog.dropped + s.clog.staged.length ∧ t.clog.holdup = false ∧ t.boot.flash = s.boot.flash ∧
    t.boot.fails = s.boot.fails ∧ t.boot.lastGood = s.boot.lastGood ∧ t.boot.trialMask = s.boot.trialMask ∧ t.boot.fused = s.boot.fused ∧
    t.sec.custody = s.sec.custody ∧ t.sec.custodyKey = s.sec.custodyKey ∧ t.sec.count = s.sec.count ∧ t.sec.pubs = s.sec.pubs ∧ t.sec.cdk = s.sec.cdk ∧
    t.sec.gk = s.sec.gk ∧ t.sec.life = s.sec.life ∧ t.saf.safe = false ∧
    t = { State.reset with tbm := t.tbm, clog := t.clog, sec := t.sec, boot := t.boot, pins := t.pins, host := s.host, pending := s.pending,
                           free := t.free }) ∧
  (∀ (s : State) (c : Instr) (ir : JtagIr), (c = .extest ∧ ir = .extest) ∨ (c = .samplePreload ∧ ir = .sample) → s.pins.vaux = true →
    (s.pins.perst = false → ∃ t, exec c s = .next t ∧ t.pins = { s.pins with jtagIr := ir, jtagDr := t.pins.jtagDr, boundary := decide (ir = .extest) } ∧
      t = { s with pins := t.pins, free := t.free }) ∧ (s.pins.perst = true → exec c s = .next s)) ∧
  (∀ (s : State) (c : Instr), c = .idcode ∨ c = .jtagTrst → s.pins.vaux = true →
    exec c s = .next { s with pins := { s.pins with jtagIr := .idcode, jtagDr := (32, 0x02560A7B), boundary := false } }) ∧
  (∀ s : State, s.pins.vaux = true →
    exec .vtarget s = .next { s with pins := { s.pins with jtagIr := .vtarget, jtagDr := (16, Config.vddTarget.zeroExtend 32), boundary := false } }) ∧
  (∀ (s : State) (code : Byte), s.pins.vaux = true →
    (code ∉ [(0x00 : Byte), 0x01, 0x02, 0x10] → (0x80 ≤ code.toNat ∧ code.toNat ≤ 0xFE → s.sec.life ≠ .development) →
      exec (.bypass code) s = .next { s with pins := { s.pins with jtagIr := .bypass, jtagDr := (1, 0), boundary := false } }) ∧
    (0x80 ≤ code.toNat → code.toNat ≤ 0xFE → s.sec.life ≠ .development →
      exec (.jtagDebug code) s = .next { s with pins := { s.pins with jtagIr := .bypass, jtagDr := (1, 0), boundary := false } }) ∧
    (0x80 ≤ code.toNat → code.toNat ≤ 0xFE → s.sec.life = .development → exec (.jtagDebug code) s = .refused (.debugUnit code)))

/-- COLD_RESET to RECOVERY_EXIT, WARM_RESET, FUNCTION_LEVEL_RESET, BOOT_COMMIT, the flash operations. A cold reset counts
a boot and a failed boot; with the recovery strap or the third failed boot recovery mode begins with its four channels
bound; else the trial set, the last good set with the trial mask's slots, boots if every image passes the checks, else
the last good one, else the boot has failed; BOOT_FAIL names the first failure. The log, the key store, the fuses, the
trial state and the flash stay. READY clears the failed-boot count; the watchdog fails a boot at 30 s. A warm reset,
refused while a partition is active or in the safe state, keeps the locked fields of the registers and aborts the
mailboxes of the restarted receivers; a function-level reset disables its rings and aborts its mailboxes. BOOT_COMMIT
makes a running trial set the last good one and raises the fused counts; a mask write replaces the mask. A flash
operation is refused with ALIGN or DENIED or runs and ends with its code: erased bytes are 0xFF, programmed ones the
host's. In recovery each request is answered with its op, status and next offset: BEGIN erases its area, DATA at the
expected offset is written, END keeps an image that passes in the trial mask, EXIT clears the failed boots. (14 R411,
19 R515, 19 R516, 19 R517, 19 R518, 19 R519, 19 R520, 19 R521, 19 R522, 19 R523, 19 R525, 17 R494) -/
def Obligations.ResetsBootUpdateAndRecovery : Prop :=
  (∀ (s : State) (aux low high : Bool) (x : BitVec 2), s.pins.vaux = true → s.boot.flashOp = none →
    ∃ t, exec (.coldReset aux low high x) s = .next t ∧ t.boot.boots = s.boot.boots + 1 ∧ t.boot.fails = min 3 (s.boot.fails + 1) ∧
      t.boot.flash = s.boot.flash ∧ t.boot.fused = s.boot.fused ∧ t.boot.lastGood = s.boot.lastGood ∧ t.boot.recoveryStrap = low ∧
      t.clog.mram = s.clog.mram ∧ t.clog.n = s.clog.n ∧ t.sec.custody = s.sec.custody ∧ t.sec.custodyKey = s.sec.custodyKey ∧ t.sec.cdk = s.sec.cdk ∧
      t.sec.pubs = s.sec.pubs ∧ t.sec.life = s.sec.life ∧ t.saf = State.reset.saf ∧ t.prt = State.reset.prt ∧ t.tints = [] ∧ t.ses = [] ∧ t.items = [] ∧
      t.tbm.epoch = s.tbm.heldEpoch ∧ t.tiers = State.reset.tiers ∧ t.pins.smbAddr = (if aux = true then x else s.pins.smbAddr) ∧
      (let mask := if s.boot.tried = true then 0 else s.boot.trialMask
       let set := if high = true then 0b11111 else s.boot.lastGood ^^^ mask
       if low = true ∨ 2 ≤ s.boot.fails then
         t.boot.stage = .recovery ∧ t.reg (bindKey 60) = 0x80100220 ∧ t.reg (bindKey 61) = 0x80102002 ∧ t.reg (bindKey 62) = 0x80100270 ∧
           t.reg (bindKey 63) = 0x80107002 ∧ (t.uclPort 0).up = true ∧ s.boot.trialMask = t.boot.trialMask
       else match s.setFailure set with
         | none => t.boot.stage = .train ∧ t.boot.running = set ∧ t.boot.trial = decide (set ≠ s.boot.lastGood) ∧ t.boot.trialMask = mask ∧
             (∀ n < 8, (t.port n).state = .training)
         | some e => if set = s.boot.lastGood then t.boot.stage = .failed ∧ t.boot.fail = (e.1, e.2, slotIn set e.1)
           else t.boot.trialMask = 0 ∧ t.boot.fallback = true ∧ match s.setFailure s.boot.lastGood with
             | none => t.boot.stage = .train ∧ t.boot.running = s.boot.lastGood ∧ t.boot.trial = false ∧ t.boot.fail = (e.1, e.2, slotIn set e.1)
             | some g => t.boot.stage = .failed ∧ t.boot.fail = (g.1, g.2, slotIn s.boot.lastGood g.1)) ∧
      t.pending = s.pending ∧ t.host = s.host) ∧
  (∀ s : State, s.boot.stage = .train → ∃ t, exec .directorReady s = .next t ∧
    t.boot = { s.boot with stage := .ready, fails := 0, tried := s.boot.trial } ∧
    (∀ n, n < s.nmd.length → (s.nmdOf n).state = .training → (t.nmdOf n).state = .live) ∧ (∀ n, (s.nmdOf n).state ≠ .training → t.nmdOf n = s.nmdOf n) ∧
    t = { s with boot := t.boot, nmd := t.nmd, clog := t.clog, regs := t.regs }) ∧
  (∀ s : State, s.booting = true → s.boot.startTb + 30000000000 < 2 ^ 64 → ∃ t, exec .bootWatchdog s = .next t ∧
    t.boot = { s.boot with stage := .failed } ∧ s.boot.startTb + 30000000000 ≤ t.now ∧ (∀ n < 2, (t.uclPort n).up = false ∨ s.ucl.length ≤ n) ∧
    t = { s with boot := t.boot, tbm := t.tbm, ucl := t.ucl, clog := t.clog, regs := t.regs }) ∧
  (∀ s : State, s.regsWf →
    (s.anyActive = true ∨ s.saf.safe = true → ∃ t, exec .warmReset s = .next t ∧ t.regBit Reg.bootStatus 5 = true ∧ s.regsBut t [Reg.bootStatus] ∧
      t = { s with regs := t.regs }) ∧
    (s.anyActive = false → s.saf.safe = false → s.mbx.length = 64 → ∃ t, exec .warmReset s = .next t ∧
      (∀ k, k ≠ Reg.clgStatus → t.reg k = (s.reg k &&& warmKeep k) ||| (regReset k &&& ~~~(warmKeep k))) ∧
      t.tbm = { s.tbm with presetArmed := false, nowHi := 0, lastHi := 0 } ∧ t.boot = s.boot ∧ t.pwr = s.pwr ∧ t.pins = s.pins ∧
      t.saf = { s.saf with reqs := [] } ∧ t.sec = { s.sec with part := State.reset.sec.part } ∧ t.prt = State.reset.prt ∧ t.sets = State.reset.sets ∧
      t.tints = [] ∧ t.ses = [] ∧ t.items = [] ∧ t.plate = State.reset.plate ∧
      (∀ c, c < 64 → (t.chan c).state = .empty ∨ (t.chan c).state = .aborted) ∧ t.pending = s.pending ∧ t.host = s.host)) ∧
  (∀ (s : State) (f : Nat), s.fnPresent f = true → f ≤ 32 → s.sets.length = 33 → s.mbx.length = 64 → s.regsWf →
    let k := if f = 0 then 32 else f - 1
    (s.ringSet k).sq.length = 16 → (s.ringSet k).cq.length = 16 →
    ∃ t, exec (.functionLevelReset f) s = .next t ∧
      (∀ n < 16, ((t.ringSet k).sqOf n).mode = (if ((s.ringSet k).sqOf n).mode ≠ .off ∧ s.sqItems k n = true then .draining else .off) ∧
        ((t.ringSet k).cqOf n).mode = .off ∧ t.regBit (sqCfgKey k n) 0 = false ∧ t.regBit (cqCfgKey k n) 0 = false) ∧
      (t.ringSet k).dailies.armed = false ∧ (∀ j, j ≠ k → t.ringSet j = s.ringSet j) ∧
      (∀ c, c < 64 → t.chan c = if s.isReceiver (if f = 0 then 0x20 else 0x3F + f) c = true then
        { state := .aborted, data := List.replicate 16 0, abort := true, resetTb := some s.now } else s.chan c) ∧
      t = { s with sets := t.sets, regs := t.regs, mbx := t.mbx }) ∧
  (∀ s : State, s.regsWf →
    (s.boot.trial = true → s.boot.stage = .ready → ∃ t, exec .bootCommit s = .next t ∧ t.boot.lastGood = s.boot.running ∧ t.boot.trialMask = 0 ∧
      t.boot.trial = false ∧ t.boot.tried = false ∧
      t.boot.fused = (s.boot.fused.zip s.boot.comps).map (fun (e : Nat × Component5) => max e.1 (min 64 e.2.arb)) ∧ t.boot.running = s.boot.running ∧
      t = { s with boot := t.boot, clog := t.clog, regs := t.regs }) ∧
    (s.boot.trial = false ∨ s.boot.stage ≠ .ready → ∃ t, exec .bootCommit s = .next t ∧ t.regBit Reg.bootStatus 5 = true ∧
      s.regsBut t [Reg.bootStatus] ∧ t = { s with regs := t.regs })) ∧
  (∀ (s : State) (m : BitVec 5), exec (.trialMaskWrite m) s = .next { s with boot := { s.boot with trialMask := m, tried := false } }) ∧
  (∀ (s : State) (c : Instr) (op unit : Nat) (data : Option Blob), (c = .flashErase ∧ op = 1 ∧ unit = 65536 ∧ data = none) ∨
      (c = .flashProgram data ∧ op = 2 ∧ unit = 256) → s.regsWf →
    (s.boot.flashOp.isSome = true → exec c s = .next s) ∧
    (s.boot.flashOp = none → ∃ t, exec c s = .next t ∧
      (let off := (s.reg Reg.bootFlOff).toNat
       let len := (s.reg Reg.bootFlLen).toNat
       t.boot = (if off % unit ≠ 0 ∨ len % unit ≠ 0 then { s.boot with flashCode := 2 }
         else if s.flashDenied off len = true then { s.boot with flashCode := 1 }
         else { s.boot with flashOp := some { op := op, off := off, len := len, data := data } })) ∧
      t.regBit Reg.bootFlCtrl 31 = t.boot.flashOp.isSome ∧ s.regsBut t [Reg.bootFlCtrl, Reg.clgStatus] ∧
      t = { s with boot := t.boot, regs := t.regs, clog := t.clog })) ∧
  (∀ (s : State) (f : FlashOp), s.boot.flashOp = some f → s.regsWf → Sparse.wf (fun _ => (0xFF : Byte)) s.boot.flash = true →
    (∀ ok, ∃ t, exec (.flashOpDone ok) s = .next t ∧ t.boot.flashOp = none ∧
      t.boot.flashCode = (if ok = false then 3 else if f.op = 1 then 0 else if f.data = none then 4 else 0) ∧ t.regBit Reg.bootFlCtrl 31 = false ∧
      (∀ a, a < f.off ∨ f.off + f.len ≤ a → Sparse.get (fun _ => 0xFF) t.boot.flash a = Sparse.get (fun _ => 0xFF) s.boot.flash a) ∧
      (ok = true → f.op = 1 → ∀ a, f.off ≤ a → a < f.off + f.len → Sparse.get (fun _ => 0xFF) t.boot.flash a = 0xFF) ∧
      (∀ bs, ok = true → f.op ≠ 1 → f.data = some bs → ∀ a, f.off ≤ a → a < f.off + f.len →
        Sparse.get (fun _ => 0xFF) t.boot.flash a = bs.getD (a - f.off) 0) ∧
      (ok = true → f.op ≠ 1 → f.data = none → t.boot.flash = s.boot.flash) ∧
      s.regsBut t [Reg.bootFlCtrl, Reg.clgStatus] ∧ t = { s with boot := t.boot, regs := t.regs, clog := t.clog, free := t.free })) ∧
  (∀ (s : State) (bmc : Bool) (c : Instr) (op : Nat), s.recoveryOpen bmc = true → s.mbx.length = 64 →
    Sparse.wf (fun _ => (0xFF : Byte)) s.boot.flash = true →
    (∃ slot comp, c = .recoveryBegin bmc slot comp ∧ op = 1) ∨ (∃ off bs, c = .recoveryData bmc off bs ∧ op = 2) ∨
      (∃ n, c = .recoveryEnd bmc n ∧ op = 3) ∨ (c = .recoveryExit bmc ∧ op = 4) →
    ∃ t st, exec c s = .next t ∧
      (t.chan (replyChannel bmc)).state = .full ∧ (t.chan (replyChannel bmc)).data =
        ([op, st, match t.boot.recovery with | some r => r.offset | none => 0] ++ List.replicate 13 0).map (BitVec.ofNat 32) ∧
      (∀ d, d ≠ replyChannel bmc → t.chan d = s.chan d) ∧ t.boot.reply = some (t.chan (replyChannel bmc)).data ∧
      (∀ slot comp, c = .recoveryBegin bmc slot comp → if 1 < slot ∨ comp < 1 ∨ 5 < comp then st = 1 ∧ t.boot.recovery = s.boot.recovery ∧
          t.boot.flash = s.boot.flash
        else st = 0 ∧ t.boot.recovery = some { slot := slot, comp := comp, offset := 0 } ∧ ∀ a, Sparse.get (fun _ => 0xFF) t.boot.flash a =
          if areaBase slot comp ≤ a ∧ a < areaBase slot comp + fwArea comp then 0xFF else Sparse.get (fun _ => 0xFF) s.boot.flash a) ∧
      (∀ off bs, c = .recoveryData bmc off bs → match s.boot.recovery with
        | none => st = 5 ∧ t.boot.flash = s.boot.flash
        | some r => if off ≠ r.offset then st = 5 ∧ t.boot.flash = s.boot.flash ∧ t.boot.recovery = some r
          else st = 0 ∧ t.boot.recovery = some { r with offset := off + 56 } ∧ ∀ a, Sparse.get (fun _ => 0xFF) t.boot.flash a =
            if areaBase r.slot r.comp + off ≤ a ∧ a < areaBase r.slot r.comp + off + min 56 (fwArea r.comp - off) then
              bs.getD (a - (areaBase r.slot r.comp + off)) 0 else Sparse.get (fun _ => 0xFF) s.boot.flash a) ∧
      (∀ n, c = .recoveryEnd bmc n → t.boot.recovery = none ∧ match s.boot.recovery with
        | none => st = 5 ∧ t.boot.trialMask = s.boot.trialMask
        | some r => if (s.headerOk r.slot r.comp && s.levelOk r.slot r.comp && s.signedOk r.slot r.comp && s.bodyOk r.slot r.comp) = true then
            st = 0 ∧ t.boot.trialMask = s.boot.received ||| BitVec.ofNat 5 (2 ^ (r.comp - 1)) ∧ t.boot.flash = s.boot.flash
          else st = 6 ∧ t.boot.trialMask = s.boot.trialMask) ∧
      (c = .recoveryExit bmc → st = 0 ∧ t.boot.fails = 0 ∧ t.boot.flash = s.boot.flash) ∧ (c ≠ .recoveryExit bmc → t.boot.fails = s.boot.fails) ∧
      t = { s with boot := t.boot, mbx := t.mbx, clog := t.clog, regs := t.regs })

/-- The state after reset. After reset no frames run and the frame number and the epoch are 0; both heartbeat pins are low
and the block is not in its safe state; every partition is FREE, every mailbox channel EMPTY, every reel-link port
DOWN; no tint, context, hot slot or descriptor exists and no command waits; memory, the host's bytes and the stored
registers are in canonical form; BNK_CTRL, NMD_CTRL, REEL_CTRL, REEL_GROUP, SAF_CTRL, SAF_PROMOTE, PWR_CTRL and
PWR_DROOP hold the reset values of their tables. (02 R75, 09 R276, 14 R398, 14 R419, 15 R447, 17 R482, 17 R497, 18
R514) -/
def Obligations.ResetLeavesTheValuesOfTheSpec : Prop :=
  State.reset.tbm.running = false ∧ State.reset.tbm.fn = 0 ∧ State.reset.tbm.epoch = 0 ∧ State.reset.saf.safe = false ∧
  State.reset.heartbeatHeld ∧ State.reset.saf.hbA = false ∧ State.reset.saf.hbB = false ∧ State.reset.memoryWf ∧ State.reset.hostWf ∧
  State.reset.regsWf ∧ (∀ p, (State.reset.part p).state = .free) ∧ (∀ c, (State.reset.chan c).state = .empty) ∧
  (∀ n, (State.reset.port n).state = .down) ∧ (∀ n, (State.reset.tintOf n).state = .free) ∧ (∀ n, (State.reset.sesOf n).state = .free) ∧
  (∀ n, (State.reset.slotOf n).tint = none) ∧ State.reset.items = [] ∧ State.reset.pending = [] ∧ (∀ a, State.reset.byteF a = 0) ∧
  State.reset.reg Reg.bnkCtrl = 0x40 ∧ State.reset.reg Reg.nmdCtrl = 0x1808 ∧ State.reset.reg Reg.reelCtrl = 0x0410 ∧
  State.reset.reg Reg.reelGroup = 0x10 ∧ State.reset.reg Reg.safCtrl = 0x110 ∧ State.reset.reg Reg.safPromote = 0x301C0 ∧
  State.reset.reg Reg.pwrCtrl = 0x4032 ∧ State.reset.reg Reg.pwrDroop = 0x0F503C28

/-- A step never lets a heartbeat pin rise in the safe state, nor both pins be high together. If in a state the heartbeat
pair is low whenever the block is in its safe state, and the two pins are not both high, then both hold in every state
that a step answers, whatever command is at the front of the queue. (17 R482, 17 R483, 17 R494) -/
def Obligations.EveryStepHoldsTheHeartbeatPairInTheSafeState : Prop :=
  ∀ s t : State, s.heartbeatHeld → step s = .next t → t.heartbeatHeld

/-- No command but a cold reset or a standby power-on ends the safe state. If the block is in its safe state and the
command at the front of the queue is neither a cold reset nor the standby power-on that comes before one, the state
that the step answers is still the safe state and the heartbeat pair is still not released: if it was low it is low.
With an empty queue the safe state stays too. That standby power-on after a loss of VAUX ends it is the model's
reading (log entry 1). (17 R482, 17 R483, 17 R484, 19 R515) -/
def Obligations.TheSafeStateLastsUntilTheNextReset : Prop :=
  (∀ (s t : State) (c : Instr) (rest : List Instr), s.pending = c :: rest → endsSafe c = false → s.saf.safe = true → step s = .next t →
    t.saf.safe = true ∧ (s.saf.hbA = false → t.saf.hbA = false) ∧ (s.saf.hbB = false → t.saf.hbB = false)) ∧
  (∀ s t : State, s.pending = [] → step s = .next t → t.saf = s.saf)

/-- A step keeps tier F, the host's bytes and the stored registers in canonical form. If the lists of tier F bytes, of
bytes written to host memory and of stored registers are in canonical form (addresses rise, and no entry equals what
an unlisted one reads as), they are so in every state that a step answers, whatever command is at the front of the
queue. (08 R223, 09 R252, 13 R368, 13 R369) -/
def Obligations.EveryStepKeepsMemoryAndRegistersCanonical : Prop :=
  ∀ s t : State, s.memoryWf → s.hostWf → s.regsWf → step s = .next t → t.memoryWf ∧ t.hostWf ∧ t.regsWf

/-- Every command answers a next state in every state; only JTAG_DEBUG with the debug unit active is refused. For every
command and every state the block answers a next state, never a fault, except that JTAG_DEBUG with a code of 0x80 to
0xFE while VAUX is up in lifecycle DEVELOPMENT is refused by the name debugUnit: the spec says that debug is active
there and nothing of what it does. A command whose condition does not hold leaves the state as it is or reports the
error that the spec names (log entry 1). (16 R470, 20 R532) -/
def Obligations.EveryCommandCompletesButJtagDebugInDevelopment : Prop :=
  ∀ (c : Instr) (s : State),
    (∃ t, exec c s = .next t) ∨
      ∃ code : Byte, c = .jtagDebug code ∧ s.pins.vaux = true ∧ s.sec.life = .development ∧ 0x80 ≤ code.toNat ∧ code.toNat ≤ 0xFE ∧
        exec c s = .refused (.debugUnit code)
end

