-- ==== Sys2Proof/Laws/Flits.lean ====
section
/-! SUPPORT. Bytes and flits: the fields of a flit that was made are those it was made of, its CRC is right, and a sealed message opens. -/

namespace Sys2Proof.Machine

@[simp] theorem length_leBytes : ∀ n v : Nat, (leBytes n v).length = n
  | 0, _ => rfl
  | n + 1, v => by simp [leBytes, length_leBytes n]

theorem leNat_leBytes : ∀ n v : Nat, leNat (leBytes n v) = v % 256 ^ n
  | 0, v => by simp [leBytes, leNat, Nat.mod_one]
  | n + 1, v => by
    rw [leBytes, leNat, leNat_leBytes n]
    have h : 256 ^ (n + 1) = 256 * 256 ^ n := by rw [Nat.pow_succ, Nat.mul_comm]
    rw [h, Nat.mod_mul, BitVec.toNat_ofNat]

/-- The bytes of a flit before its CRC. -/
theorem mkFlit_eq (kind flags stream seq fn : Nat) (pl : Blob) :
    ∃ body, body.length = 252 ∧ mkFlit kind flags stream seq fn pl = body ++ leBytes 4 (crc32 body).toNat ∧
      body = leBytes 1 kind ++ (leBytes 1 flags ++ (leBytes 2 stream ++ (leBytes 4 seq ++ (leBytes 4 fn ++ (padTo 240 pl).take 240)))) := by
  refine ⟨_, ?_, ?_, rfl⟩
  · simp [padTo]; omega
  · simp [mkFlit, List.append_assoc]

theorem flitCrcOk_mkFlit (kind flags stream seq fn : Nat) (pl : Blob) : flitCrcOk (mkFlit kind flags stream seq fn pl) = true := by
  obtain ⟨body, hl, he, -⟩ := mkFlit_eq kind flags stream seq fn pl
  have h4 : (leBytes 4 (crc32 body).toNat).take 4 = leBytes 4 (crc32 body).toNat := List.take_of_length_le (by simp)
  rw [he, flitCrcOk, List.take_append_of_le_length (by omega), List.take_of_length_le (by omega), leAt, List.drop_append_of_le_length (by omega),
    List.drop_of_length_le (by omega), List.nil_append, h4, leNat_leBytes]
  simp only [List.length_append, length_leBytes, hl, Nat.reduceAdd, Bool.and_eq_true, decide_eq_true_eq, true_and]
  exact (Nat.mod_eq_of_lt (by have := (crc32 body).isLt; omega)).symm

/-- A field of a run of bytes that stands behind a known number of bytes. -/
theorem leAt_append (a b : Blob) (off n v : Nat) (h : a.length = off) : leAt (a ++ (leBytes n v ++ b)) off n = v % 256 ^ n := by
  subst h
  rw [leAt, List.drop_left, List.take_append_of_le_length (by simp), List.take_of_length_le (by simp), leNat_leBytes]

theorem flitKind_mkFlit (kind flags stream seq fn : Nat) (pl : Blob) : flitKind (mkFlit kind flags stream seq fn pl) = kind % 256 := by
  obtain ⟨body, -, he, hb⟩ := mkFlit_eq kind flags stream seq fn pl
  rw [he, flitKind, hb]
  simpa only [List.append_assoc, List.nil_append, Nat.pow_one] using leAt_append [] _ 0 1 kind rfl

theorem flitFlags_mkFlit (kind flags stream seq fn : Nat) (pl : Blob) : flitFlags (mkFlit kind flags stream seq fn pl) = flags % 256 := by
  obtain ⟨body, -, he, hb⟩ := mkFlit_eq kind flags stream seq fn pl
  rw [he, flitFlags, hb]
  simpa only [List.append_assoc, Nat.pow_one] using leAt_append (leBytes 1 kind) _ 1 1 flags (by simp)

theorem flitStream_mkFlit (kind flags stream seq fn : Nat) (pl : Blob) : flitStream (mkFlit kind flags stream seq fn pl) = stream % 65536 := by
  obtain ⟨body, -, he, hb⟩ := mkFlit_eq kind flags stream seq fn pl
  rw [he, flitStream, hb]
  simpa only [List.append_assoc, show (256 : Nat) ^ 2 = 65536 from rfl] using leAt_append (leBytes 1 kind ++ leBytes 1 flags) _ 2 2 stream (by simp)

theorem flitSeq_mkFlit (kind flags stream seq fn : Nat) (pl : Blob) : flitSeq (mkFlit kind flags stream seq fn pl) = seq % 4294967296 := by
  obtain ⟨body, -, he, hb⟩ := mkFlit_eq kind flags stream seq fn pl
  rw [he, flitSeq, hb]
  simpa only [List.append_assoc, show (256 : Nat) ^ 4 = 4294967296 from rfl] using
    leAt_append (leBytes 1 kind ++ leBytes 1 flags ++ leBytes 2 stream) _ 4 4 seq (by simp)

theorem flitFn_mkFlit (kind flags stream seq fn : Nat) (pl : Blob) : flitFn (mkFlit kind flags stream seq fn pl) = fn % 4294967296 := by
  obtain ⟨body, -, he, hb⟩ := mkFlit_eq kind flags stream seq fn pl
  rw [he, flitFn, hb]
  simpa only [List.append_assoc, show (256 : Nat) ^ 4 = 4294967296 from rfl] using
    leAt_append (leBytes 1 kind ++ leBytes 1 flags ++ leBytes 2 stream ++ leBytes 4 seq) _ 8 4 fn (by simp)

theorem flitPayload_mkFlit (kind flags stream seq fn : Nat) (pl : Blob) :
    flitPayload (mkFlit kind flags stream seq fn pl) = (padTo 240 pl).take 240 := by
  obtain ⟨body, -, he, hb⟩ := mkFlit_eq kind flags stream seq fn pl
  have hp : ((padTo 240 pl).take 240).length = 240 := by simp [padTo]; omega
  have : mkFlit kind flags stream seq fn pl = (leBytes 1 kind ++ leBytes 1 flags ++ leBytes 2 stream ++ leBytes 4 seq ++ leBytes 4 fn) ++
      ((padTo 240 pl).take 240 ++ leBytes 4 (crc32 body).toNat) := by rw [he, hb]; simp only [List.append_assoc]
  rw [this, flitPayload, slice, List.drop_append_of_le_length (by simp), List.drop_of_length_le (by simp), List.nil_append,
    List.take_append_of_le_length (by omega), List.take_of_length_le (by omega), hp]
  simp

/-- What was sealed opens under the same key, IV and data. -/
theorem gcmOpen_gcmSeal (key : BitVec 256) (iv aad pt : Blob) :
    (gcmOpen key iv aad (gcmSeal key iv aad pt).1 (gcmSeal key iv aad pt).2).isSome = true := by
  simp [gcmOpen, gcmSeal]

end Sys2Proof.Machine
end

