-- ==== Sys2Proof/Laws/Sparse.lean ====
section
/-! SUPPORT. What the sparse-table operations do: a read after a write, and that every operation keeps the canonical form. -/

namespace Sys2Proof.Machine

@[simp] theorem Sparse.get_nil {β : Type} (d : Nat → β) (k : Nat) : Sparse.get d [] k = d k := rfl

theorem Sparse.get_of_above {β : Type} (d : Nat → β) (m : Sparse β) (lo k : Nat) (h : Sparse.above lo m = true) (hk : k ≤ lo) :
    Sparse.get d m k = d k := by
  cases m with
  | nil => rfl
  | cons e rest =>
    obtain ⟨k', v⟩ := e
    simp [Sparse.above] at h
    have h1 : lo < k' := h.1
    have h2 : k ≠ k' := by omega
    have h3 : k < k' := by omega
    simp [Sparse.get, h2, h3]

theorem Sparse.above_mono {β : Type} (m : Sparse β) (lo lo' : Nat) (h : Sparse.above lo m = true) (hl : lo' ≤ lo) :
    Sparse.above lo' m = true := by
  simp only [Sparse.above, List.all_eq_true, decide_eq_true_eq] at *
  intro e he
  have := h e he
  omega

theorem Sparse.above_set {β : Type} [DecidableEq β] (d : Nat → β) (m : Sparse β) (lo k : Nat) (v : β)
    (h : Sparse.above lo m = true) (hk : lo < k) : Sparse.above lo (Sparse.set d m k v) = true := by
  induction m with
  | nil => by_cases hv : v = d k <;> simp [Sparse.set, Sparse.above, hv, hk]
  | cons e rest ih =>
    obtain ⟨k', v'⟩ := e
    simp [Sparse.above] at h ih
    obtain ⟨h1, h2⟩ := h
    by_cases e1 : k = k'
    · subst e1
      by_cases hv : v = d k <;> simp [Sparse.set, Sparse.above, hv] <;> first | exact h2 | exact ⟨hk, h2⟩
    · by_cases e2 : k < k'
      · by_cases hv : v = d k <;> simp [Sparse.set, Sparse.above, hv, e1, e2] <;> first | exact ⟨h1, h2⟩ | exact ⟨hk, h1, h2⟩
      · simp [Sparse.set, Sparse.above, e1, e2]
        exact ⟨h1, ih h2⟩

/-- A read after a write: the written key has the new value, every other key reads as before. -/
theorem Sparse.get_set {β : Type} [DecidableEq β] (d : Nat → β) (m : Sparse β) (k j : Nat) (v : β)
    (hw : Sparse.wf d m = true) : Sparse.get d (Sparse.set d m k v) j = if j = k then v else Sparse.get d m j := by
  induction m with
  | nil =>
    by_cases hv : v = d k
    · by_cases e : j = k
      · subst e; simp [Sparse.set, hv]
      · simp [Sparse.set, Sparse.get, hv, e]
    · by_cases e : j = k <;> simp [Sparse.set, Sparse.get, hv, e]
  | cons e rest ih =>
    obtain ⟨k', v'⟩ := e
    simp only [Sparse.wf, Bool.and_eq_true] at hw
    obtain ⟨⟨hne, hab⟩, hr⟩ := hw
    have ih := ih hr
    by_cases e1 : k = k'
    · subst e1
      by_cases hv : v = d k
      · by_cases e : j = k
        · subst e; simp [Sparse.set, hv, Sparse.get_of_above d rest j j hab (Nat.le_refl j)]
        · by_cases e2 : j < k
          · simp [Sparse.set, hv, Sparse.get, e, e2, Sparse.get_of_above d rest k j hab (by omega)]
          · simp [Sparse.set, hv, Sparse.get, e, e2]
      · by_cases e : j = k <;> simp [Sparse.set, Sparse.get, hv, e]
    · by_cases e2 : k < k'
      · by_cases hv : v = d k
        · by_cases e : j = k
          · subst e; simp [Sparse.set, hv, Sparse.get, e1, e2]
          · simp [Sparse.set, hv, Sparse.get, e1, e2, e]
        · by_cases e : j = k
          · subst e; simp [Sparse.set, Sparse.get, hv, e1, e2]
          · by_cases e3 : j < k
            · have e4 : j < k' := by omega
              have e5 : j ≠ k' := by omega
              simp [Sparse.set, Sparse.get, hv, e1, e2, e, e3, e4, e5]
            · simp [Sparse.set, Sparse.get, hv, e1, e2, e, e3]
      · by_cases e : j = k
        · subst e; simp [Sparse.set, Sparse.get, e1, e2, ih]
        · by_cases e3 : j = k'
          · subst e3; simp [Sparse.set, Sparse.get, e1, e2, e]
          · simp [Sparse.set, Sparse.get, e1, e2, e, ih]

/-- A write keeps the canonical form. -/
theorem Sparse.wf_set {β : Type} [DecidableEq β] (d : Nat → β) (m : Sparse β) (k : Nat) (v : β)
    (hw : Sparse.wf d m = true) : Sparse.wf d (Sparse.set d m k v) = true := by
  induction m with
  | nil => by_cases hv : v = d k <;> simp [Sparse.set, Sparse.wf, Sparse.above, hv]
  | cons e rest ih =>
    obtain ⟨k', v'⟩ := e
    have hw0 := hw
    simp only [Sparse.wf, Bool.and_eq_true] at hw
    obtain ⟨⟨hne, hab⟩, hr⟩ := hw
    by_cases e1 : k = k'
    · subst e1
      by_cases hv : v = d k
      · simp [Sparse.set, hv, hr]
      · simp [Sparse.set, hv, Sparse.wf, hab, hr]
    · by_cases e2 : k < k'
      · by_cases hv : v = d k
        · simp only [Sparse.set, hv, e1, e2, if_true, if_false]; exact hw0
        · have h3 : Sparse.above k ((k', v') :: rest) = true := by
            simp only [Sparse.above, List.all_cons, Bool.and_eq_true, decide_eq_true_eq]
            exact ⟨e2, Sparse.above_mono rest k' k hab (by omega)⟩
          have h4 : Sparse.wf d ((k, v) :: (k', v') :: rest) = true := by
            rw [Sparse.wf, h3, hw0]; simp [hv]
          simp only [Sparse.set, hv, e1, e2, if_true, if_false]; exact h4
      · have h5 : Sparse.above k' (Sparse.set d rest k v) = true := Sparse.above_set d rest k' k v hab (by omega)
        simp only [Sparse.set, e1, e2, if_false, Sparse.wf, h5, ih hr, Bool.and_true]; exact hne

theorem Sparse.wf_setRun {β : Type} [DecidableEq β] (d : Nat → β) (vs : List β) (m : Sparse β) (k : Nat)
    (hw : Sparse.wf d m = true) : Sparse.wf d (Sparse.setRun d m k vs) = true := by
  induction vs generalizing m k with
  | nil => exact hw
  | cons v vs ih => exact ih _ _ (Sparse.wf_set d m k v hw)

/-- A run written at `k` leaves every key outside the run as it was. -/
theorem Sparse.get_setRun_outside {β : Type} [DecidableEq β] (d : Nat → β) (vs : List β) (m : Sparse β) (k j : Nat)
    (hw : Sparse.wf d m = true) (hj : j < k ∨ k + vs.length ≤ j) :
    Sparse.get d (Sparse.setRun d m k vs) j = Sparse.get d m j := by
  induction vs generalizing m k with
  | nil => rfl
  | cons v vs ih =>
    have hl : (v :: vs).length = vs.length + 1 := rfl
    rw [Sparse.setRun, ih _ _ (Sparse.wf_set d m k v hw) (by omega), Sparse.get_set d m k j v hw]
    have : j ≠ k := by omega
    simp [this]

theorem Sparse.above_filter {β : Type} (m : Sparse β) (lo : Nat) (p : Nat × β → Bool)
    (h : Sparse.above lo m = true) : Sparse.above lo (m.filter p) = true := by
  simp only [Sparse.above, List.all_eq_true, decide_eq_true_eq] at *
  intro e he
  exact h e (List.mem_filter.mp he).1

/-- Removing entries keeps the canonical form. -/
theorem Sparse.wf_drop {β : Type} [DecidableEq β] (d : Nat → β) (m : Sparse β) (p : Nat → Bool)
    (hw : Sparse.wf d m = true) : Sparse.wf d (Sparse.drop m p) = true := by
  induction m with
  | nil => rfl
  | cons e rest ih =>
    obtain ⟨k, v⟩ := e
    simp only [Sparse.wf, Bool.and_eq_true] at hw
    obtain ⟨⟨hne, hab⟩, hr⟩ := hw
    have ih' := ih hr
    simp only [Sparse.drop] at ih' ⊢
    by_cases hp : p k = true
    · simp [hp, ih']
    · have ha : Sparse.above k (rest.filter fun e => !p e.1) = true := Sparse.above_filter rest k _ hab
      simp only [List.filter, hp, Bool.not_false, Sparse.wf, Bool.and_eq_true]
      exact ⟨⟨hne, ha⟩, ih'⟩

/-- Dropping entries by any test on them keeps the canonical form. -/
theorem Sparse.wf_filter {β : Type} [DecidableEq β] (d : Nat → β) (m : Sparse β) (p : Nat × β → Bool)
    (h : Sparse.wf d m = true) : Sparse.wf d (m.filter p) = true := by
  induction m with
  | nil => simp [Sparse.wf]
  | cons e rest ih =>
    obtain ⟨k, v⟩ := e
    simp only [Sparse.wf, Bool.and_eq_true, decide_eq_true_eq] at h
    obtain ⟨⟨hv, ha⟩, hr⟩ := h
    by_cases hp : p (k, v) = true
    · simp [hp, Sparse.wf, hv, Sparse.above_filter rest k p ha, ih hr]
    · simp [hp, ih hr]

/-- Changing every listed entry keeps the canonical form. -/
theorem Sparse.wf_mapListed {β : Type} [DecidableEq β] (d : Nat → β) (f : Nat → β → β) (m : Sparse β)
    (h : Sparse.wf d m = true) : Sparse.wf d (Sparse.mapListed d f m) = true := by
  induction m with
  | nil => simp [Sparse.mapListed, Sparse.wf]
  | cons e rest ih =>
    obtain ⟨k, v⟩ := e
    simp only [Sparse.wf, Bool.and_eq_true, decide_eq_true_eq] at h
    obtain ⟨⟨hv, ha⟩, hr⟩ := h
    have hab : Sparse.above k (rest.map fun e => (e.1, f e.1 e.2)) = true := by
      simp only [Sparse.above, List.all_map] at ha ⊢
      exact ha
    have ih' := ih hr
    simp only [Sparse.mapListed, ne_eq, decide_not] at ih' ⊢
    by_cases hn : f k v = d k
    · simpa [hn] using ih'
    · simpa [hn, Sparse.wf, Sparse.above_filter _ k _ hab] using ih'

/-- Changing every listed entry by a function that keeps what an unlisted key reads as changes what every key reads as. -/
theorem Sparse.get_mapListed {β : Type} [DecidableEq β] (d : Nat → β) (f : Nat → β → β) (m : Sparse β) (k : Nat)
    (h : Sparse.wf d m = true) (hd : f k (d k) = d k) : Sparse.get d (Sparse.mapListed d f m) k = f k (Sparse.get d m k) := by
  induction m with
  | nil => simp [Sparse.mapListed, hd]
  | cons e rest ih =>
    obtain ⟨j, v⟩ := e
    simp only [Sparse.wf, Bool.and_eq_true, decide_eq_true_eq] at h
    obtain ⟨⟨hv, ha⟩, hr⟩ := h
    have hab : Sparse.above j (Sparse.mapListed d f rest) = true := by
      apply Sparse.above_filter
      simp only [Sparse.above, List.all_map] at ha ⊢
      exact ha
    have ih' := ih hr
    have hrest : k ≤ j → Sparse.get d (Sparse.mapListed d f rest) k = d k := fun hk => Sparse.get_of_above d _ j k hab hk
    have hsplit : Sparse.mapListed d f ((j, v) :: rest) =
        if f j v = d j then Sparse.mapListed d f rest else (j, f j v) :: Sparse.mapListed d f rest := by
      by_cases hn : f j v = d j <;> simp [Sparse.mapListed, hn]
    rw [hsplit]
    by_cases hk : k = j
    · subst hk
      by_cases hn : f k v = d k
      · rw [if_pos hn, hrest (Nat.le_refl k)]; simp [Sparse.get, hn]
      · rw [if_neg hn]; simp [Sparse.get]
    · by_cases hlt : k < j
      · by_cases hn : f j v = d j
        · rw [if_pos hn, hrest (by omega)]; simp [Sparse.get, hk, hlt, hd]
        · rw [if_neg hn]; simp [Sparse.get, hk, hlt, hd]
      · by_cases hn : f j v = d j
        · rw [if_pos hn, ih']; simp [Sparse.get, hk, hlt]
        · rw [if_neg hn]; simp [Sparse.get, hk, hlt, ih']

end Sys2Proof.Machine
end

