-- ==== Sys2Proof/Laws/State.lean ====
section
/-! SUPPORT. What each named update of the state leaves as it was, field by field, and what is read back. -/

namespace Sys2Proof.Machine

variable (s : State)

@[simp] theorem State.setReg_frame (k : Nat) (v : Word) :
    (s.setReg k v).tbm = s.tbm ∧ (s.setReg k v).player = s.player ∧ (s.setReg k v).grid = s.grid ∧ (s.setReg k v).lanes = s.lanes ∧
    (s.setReg k v).tally = s.tally ∧ (s.setReg k v).vec = s.vec ∧ (s.setReg k v).tiers = s.tiers ∧ (s.setReg k v).banks = s.banks ∧ (s.setReg k v).ports = s.ports ∧
    (s.setReg k v).nmd = s.nmd ∧ (s.setReg k v).plate = s.plate ∧ (s.setReg k v).tints = s.tints ∧ (s.setReg k v).slots = s.slots ∧
    (s.setReg k v).ses = s.ses ∧ (s.setReg k v).ins = s.ins ∧ (s.setReg k v).upd = s.upd ∧ (s.setReg k v).sets = s.sets ∧
    (s.setReg k v).items = s.items ∧ (s.setReg k v).observed = s.observed ∧ (s.setReg k v).ucl = s.ucl ∧ (s.setReg k v).host = s.host ∧
    (s.setReg k v).uclResp = s.uclResp ∧ (s.setReg k v).prt = s.prt ∧ (s.setReg k v).mbx = s.mbx ∧ (s.setReg k v).reel = s.reel ∧
    (s.setReg k v).sec = s.sec ∧ (s.setReg k v).saf = s.saf ∧ (s.setReg k v).clog = s.clog ∧ (s.setReg k v).pwr = s.pwr ∧
    (s.setReg k v).boot = s.boot ∧ (s.setReg k v).pins = s.pins ∧ (s.setReg k v).pending = s.pending ∧ (s.setReg k v).free = s.free :=
  ⟨rfl, rfl, rfl, rfl, rfl, rfl, rfl, rfl, rfl, rfl, rfl, rfl, rfl, rfl, rfl, rfl, rfl, rfl, rfl, rfl, rfl, rfl, rfl, rfl, rfl, rfl, rfl, rfl, rfl, rfl, rfl, rfl, rfl⟩

@[simp] theorem State.setFld_frame (k lo len v : Nat) :
    (s.setFld k lo len v).tbm = s.tbm ∧ (s.setFld k lo len v).player = s.player ∧ (s.setFld k lo len v).grid = s.grid ∧
    (s.setFld k lo len v).lanes = s.lanes ∧ (s.setFld k lo len v).tally = s.tally ∧ (s.setFld k lo len v).vec = s.vec ∧
    (s.setFld k lo len v).tiers = s.tiers ∧ (s.setFld k lo len v).banks = s.banks ∧ (s.setFld k lo len v).ports = s.ports ∧ (s.setFld k lo len v).nmd = s.nmd ∧
    (s.setFld k lo len v).plate = s.plate ∧ (s.setFld k lo len v).tints = s.tints ∧ (s.setFld k lo len v).slots = s.slots ∧
    (s.setFld k lo len v).ses = s.ses ∧ (s.setFld k lo len v).ins = s.ins ∧ (s.setFld k lo len v).upd = s.upd ∧
    (s.setFld k lo len v).sets = s.sets ∧ (s.setFld k lo len v).items = s.items ∧ (s.setFld k lo len v).observed = s.observed ∧
    (s.setFld k lo len v).ucl = s.ucl ∧ (s.setFld k lo len v).host = s.host ∧ (s.setFld k lo len v).uclResp = s.uclResp ∧
    (s.setFld k lo len v).prt = s.prt ∧ (s.setFld k lo len v).mbx = s.mbx ∧ (s.setFld k lo len v).reel = s.reel ∧
    (s.setFld k lo len v).sec = s.sec ∧ (s.setFld k lo len v).saf = s.saf ∧ (s.setFld k lo len v).clog = s.clog ∧
    (s.setFld k lo len v).pwr = s.pwr ∧ (s.setFld k lo len v).boot = s.boot ∧ (s.setFld k lo len v).pins = s.pins ∧
    (s.setFld k lo len v).pending = s.pending ∧ (s.setFld k lo len v).free = s.free :=
  ⟨rfl, rfl, rfl, rfl, rfl, rfl, rfl, rfl, rfl, rfl, rfl, rfl, rfl, rfl, rfl, rfl, rfl, rfl, rfl, rfl, rfl, rfl, rfl, rfl, rfl, rfl, rfl, rfl, rfl, rfl, rfl, rfl, rfl⟩

@[simp] theorem State.raise_frame (k i : Nat) :
    (s.raise k i).tbm = s.tbm ∧ (s.raise k i).player = s.player ∧ (s.raise k i).grid = s.grid ∧ (s.raise k i).lanes = s.lanes ∧
    (s.raise k i).tally = s.tally ∧ (s.raise k i).vec = s.vec ∧ (s.raise k i).tiers = s.tiers ∧ (s.raise k i).banks = s.banks ∧ (s.raise k i).ports = s.ports ∧
    (s.raise k i).nmd = s.nmd ∧ (s.raise k i).plate = s.plate ∧ (s.raise k i).tints = s.tints ∧ (s.raise k i).slots = s.slots ∧
    (s.raise k i).ses = s.ses ∧ (s.raise k i).ins = s.ins ∧ (s.raise k i).upd = s.upd ∧ (s.raise k i).sets = s.sets ∧
    (s.raise k i).items = s.items ∧ (s.raise k i).observed = s.observed ∧ (s.raise k i).ucl = s.ucl ∧ (s.raise k i).host = s.host ∧
    (s.raise k i).uclResp = s.uclResp ∧ (s.raise k i).prt = s.prt ∧ (s.raise k i).mbx = s.mbx ∧ (s.raise k i).reel = s.reel ∧
    (s.raise k i).sec = s.sec ∧ (s.raise k i).saf = s.saf ∧ (s.raise k i).clog = s.clog ∧ (s.raise k i).pwr = s.pwr ∧
    (s.raise k i).boot = s.boot ∧ (s.raise k i).pins = s.pins ∧ (s.raise k i).pending = s.pending ∧ (s.raise k i).free = s.free :=
  ⟨rfl, rfl, rfl, rfl, rfl, rfl, rfl, rfl, rfl, rfl, rfl, rfl, rfl, rfl, rfl, rfl, rfl, rfl, rfl, rfl, rfl, rfl, rfl, rfl, rfl, rfl, rfl, rfl, rfl, rfl, rfl, rfl, rfl⟩

@[simp] theorem State.lower_frame (k i : Nat) :
    (s.lower k i).tbm = s.tbm ∧ (s.lower k i).player = s.player ∧ (s.lower k i).grid = s.grid ∧ (s.lower k i).lanes = s.lanes ∧
    (s.lower k i).tally = s.tally ∧ (s.lower k i).vec = s.vec ∧ (s.lower k i).tiers = s.tiers ∧ (s.lower k i).banks = s.banks ∧ (s.lower k i).ports = s.ports ∧
    (s.lower k i).nmd = s.nmd ∧ (s.lower k i).plate = s.plate ∧ (s.lower k i).tints = s.tints ∧ (s.lower k i).slots = s.slots ∧
    (s.lower k i).ses = s.ses ∧ (s.lower k i).ins = s.ins ∧ (s.lower k i).upd = s.upd ∧ (s.lower k i).sets = s.sets ∧
    (s.lower k i).items = s.items ∧ (s.lower k i).observed = s.observed ∧ (s.lower k i).ucl = s.ucl ∧ (s.lower k i).host = s.host ∧
    (s.lower k i).uclResp = s.uclResp ∧ (s.lower k i).prt = s.prt ∧ (s.lower k i).mbx = s.mbx ∧ (s.lower k i).reel = s.reel ∧
    (s.lower k i).sec = s.sec ∧ (s.lower k i).saf = s.saf ∧ (s.lower k i).clog = s.clog ∧ (s.lower k i).pwr = s.pwr ∧
    (s.lower k i).boot = s.boot ∧ (s.lower k i).pins = s.pins ∧ (s.lower k i).pending = s.pending ∧ (s.lower k i).free = s.free :=
  ⟨rfl, rfl, rfl, rfl, rfl, rfl, rfl, rfl, rfl, rfl, rfl, rfl, rfl, rfl, rfl, rfl, rfl, rfl, rfl, rfl, rfl, rfl, rfl, rfl, rfl, rfl, rfl, rfl, rfl, rfl, rfl, rfl, rfl⟩

@[simp] theorem State.setBank_frame (b : Nat) (x : Bank) :
    (s.setBank b x).tbm = s.tbm ∧ (s.setBank b x).regs = s.regs ∧ (s.setBank b x).player = s.player ∧ (s.setBank b x).grid = s.grid ∧
    (s.setBank b x).lanes = s.lanes ∧ (s.setBank b x).tally = s.tally ∧ (s.setBank b x).vec = s.vec ∧ (s.setBank b x).tiers = s.tiers ∧ (s.setBank b x).ports = s.ports ∧
    (s.setBank b x).nmd = s.nmd ∧ (s.setBank b x).plate = s.plate ∧ (s.setBank b x).tints = s.tints ∧ (s.setBank b x).slots = s.slots ∧
    (s.setBank b x).ses = s.ses ∧ (s.setBank b x).ins = s.ins ∧ (s.setBank b x).upd = s.upd ∧ (s.setBank b x).sets = s.sets ∧
    (s.setBank b x).items = s.items ∧ (s.setBank b x).observed = s.observed ∧ (s.setBank b x).ucl = s.ucl ∧
    (s.setBank b x).host = s.host ∧ (s.setBank b x).uclResp = s.uclResp ∧ (s.setBank b x).prt = s.prt ∧ (s.setBank b x).mbx = s.mbx ∧
    (s.setBank b x).reel = s.reel ∧ (s.setBank b x).sec = s.sec ∧ (s.setBank b x).saf = s.saf ∧ (s.setBank b x).clog = s.clog ∧
    (s.setBank b x).pwr = s.pwr ∧ (s.setBank b x).boot = s.boot ∧ (s.setBank b x).pins = s.pins ∧ (s.setBank b x).pending = s.pending ∧
    (s.setBank b x).free = s.free :=
  ⟨rfl, rfl, rfl, rfl, rfl, rfl, rfl, rfl, rfl, rfl, rfl, rfl, rfl, rfl, rfl, rfl, rfl, rfl, rfl, rfl, rfl, rfl, rfl, rfl, rfl, rfl, rfl, rfl, rfl, rfl, rfl, rfl, rfl⟩

@[simp] theorem State.setTint_frame (t : Nat) (x : Tint) :
    (s.setTint t x).tbm = s.tbm ∧ (s.setTint t x).regs = s.regs ∧ (s.setTint t x).player = s.player ∧ (s.setTint t x).grid = s.grid ∧
    (s.setTint t x).lanes = s.lanes ∧ (s.setTint t x).tally = s.tally ∧ (s.setTint t x).vec = s.vec ∧ (s.setTint t x).tiers = s.tiers ∧
    (s.setTint t x).banks = s.banks ∧ (s.setTint t x).ports = s.ports ∧ (s.setTint t x).nmd = s.nmd ∧ (s.setTint t x).plate = s.plate ∧ (s.setTint t x).slots = s.slots ∧
    (s.setTint t x).ses = s.ses ∧ (s.setTint t x).ins = s.ins ∧ (s.setTint t x).upd = s.upd ∧ (s.setTint t x).sets = s.sets ∧
    (s.setTint t x).items = s.items ∧ (s.setTint t x).observed = s.observed ∧ (s.setTint t x).ucl = s.ucl ∧
    (s.setTint t x).host = s.host ∧ (s.setTint t x).uclResp = s.uclResp ∧ (s.setTint t x).prt = s.prt ∧ (s.setTint t x).mbx = s.mbx ∧
    (s.setTint t x).reel = s.reel ∧ (s.setTint t x).sec = s.sec ∧ (s.setTint t x).saf = s.saf ∧ (s.setTint t x).clog = s.clog ∧
    (s.setTint t x).pwr = s.pwr ∧ (s.setTint t x).boot = s.boot ∧ (s.setTint t x).pins = s.pins ∧ (s.setTint t x).pending = s.pending ∧
    (s.setTint t x).free = s.free :=
  ⟨rfl, rfl, rfl, rfl, rfl, rfl, rfl, rfl, rfl, rfl, rfl, rfl, rfl, rfl, rfl, rfl, rfl, rfl, rfl, rfl, rfl, rfl, rfl, rfl, rfl, rfl, rfl, rfl, rfl, rfl, rfl, rfl, rfl⟩

@[simp] theorem State.setSlot_frame (h : Nat) (x : HotSlot) :
    (s.setSlot h x).tbm = s.tbm ∧ (s.setSlot h x).regs = s.regs ∧ (s.setSlot h x).player = s.player ∧ (s.setSlot h x).grid = s.grid ∧
    (s.setSlot h x).lanes = s.lanes ∧ (s.setSlot h x).tally = s.tally ∧ (s.setSlot h x).vec = s.vec ∧ (s.setSlot h x).tiers = s.tiers ∧
    (s.setSlot h x).banks = s.banks ∧ (s.setSlot h x).ports = s.ports ∧ (s.setSlot h x).nmd = s.nmd ∧ (s.setSlot h x).plate = s.plate ∧ (s.setSlot h x).tints = s.tints ∧
    (s.setSlot h x).ses = s.ses ∧ (s.setSlot h x).ins = s.ins ∧ (s.setSlot h x).upd = s.upd ∧ (s.setSlot h x).sets = s.sets ∧
    (s.setSlot h x).items = s.items ∧ (s.setSlot h x).observed = s.observed ∧ (s.setSlot h x).ucl = s.ucl ∧
    (s.setSlot h x).host = s.host ∧ (s.setSlot h x).uclResp = s.uclResp ∧ (s.setSlot h x).prt = s.prt ∧ (s.setSlot h x).mbx = s.mbx ∧
    (s.setSlot h x).reel = s.reel ∧ (s.setSlot h x).sec = s.sec ∧ (s.setSlot h x).saf = s.saf ∧ (s.setSlot h x).clog = s.clog ∧
    (s.setSlot h x).pwr = s.pwr ∧ (s.setSlot h x).boot = s.boot ∧ (s.setSlot h x).pins = s.pins ∧ (s.setSlot h x).pending = s.pending ∧
    (s.setSlot h x).free = s.free :=
  ⟨rfl, rfl, rfl, rfl, rfl, rfl, rfl, rfl, rfl, rfl, rfl, rfl, rfl, rfl, rfl, rfl, rfl, rfl, rfl, rfl, rfl, rfl, rfl, rfl, rfl, rfl, rfl, rfl, rfl, rfl, rfl, rfl, rfl⟩

@[simp] theorem State.setSes_frame (c : Nat) (x : Ses) :
    (s.setSes c x).tbm = s.tbm ∧ (s.setSes c x).regs = s.regs ∧ (s.setSes c x).player = s.player ∧ (s.setSes c x).grid = s.grid ∧
    (s.setSes c x).lanes = s.lanes ∧ (s.setSes c x).tally = s.tally ∧ (s.setSes c x).vec = s.vec ∧ (s.setSes c x).tiers = s.tiers ∧
    (s.setSes c x).banks = s.banks ∧ (s.setSes c x).ports = s.ports ∧ (s.setSes c x).nmd = s.nmd ∧ (s.setSes c x).plate = s.plate ∧ (s.setSes c x).tints = s.tints ∧
    (s.setSes c x).slots = s.slots ∧ (s.setSes c x).ins = s.ins ∧ (s.setSes c x).upd = s.upd ∧ (s.setSes c x).sets = s.sets ∧
    (s.setSes c x).items = s.items ∧ (s.setSes c x).observed = s.observed ∧ (s.setSes c x).ucl = s.ucl ∧ (s.setSes c x).host = s.host ∧
    (s.setSes c x).uclResp = s.uclResp ∧ (s.setSes c x).prt = s.prt ∧ (s.setSes c x).mbx = s.mbx ∧ (s.setSes c x).reel = s.reel ∧
    (s.setSes c x).sec = s.sec ∧ (s.setSes c x).saf = s.saf ∧ (s.setSes c x).clog = s.clog ∧ (s.setSes c x).pwr = s.pwr ∧
    (s.setSes c x).boot = s.boot ∧ (s.setSes c x).pins = s.pins ∧ (s.setSes c x).pending = s.pending ∧ (s.setSes c x).free = s.free :=
  ⟨rfl, rfl, rfl, rfl, rfl, rfl, rfl, rfl, rfl, rfl, rfl, rfl, rfl, rfl, rfl, rfl, rfl, rfl, rfl, rfl, rfl, rfl, rfl, rfl, rfl, rfl, rfl, rfl, rfl, rfl, rfl, rfl, rfl⟩

@[simp] theorem State.setObj_frame (h : Nat) (o : Option Obj) :
    (s.setObj h o).tbm = s.tbm ∧ (s.setObj h o).regs = s.regs ∧ (s.setObj h o).player = s.player ∧ (s.setObj h o).grid = s.grid ∧
    (s.setObj h o).lanes = s.lanes ∧ (s.setObj h o).tally = s.tally ∧ (s.setObj h o).vec = s.vec ∧ (s.setObj h o).banks = s.banks ∧ (s.setObj h o).ports = s.ports ∧
    (s.setObj h o).nmd = s.nmd ∧ (s.setObj h o).plate = s.plate ∧ (s.setObj h o).tints = s.tints ∧ (s.setObj h o).slots = s.slots ∧
    (s.setObj h o).ses = s.ses ∧ (s.setObj h o).ins = s.ins ∧ (s.setObj h o).upd = s.upd ∧ (s.setObj h o).sets = s.sets ∧
    (s.setObj h o).items = s.items ∧ (s.setObj h o).observed = s.observed ∧ (s.setObj h o).ucl = s.ucl ∧ (s.setObj h o).host = s.host ∧
    (s.setObj h o).uclResp = s.uclResp ∧ (s.setObj h o).prt = s.prt ∧ (s.setObj h o).mbx = s.mbx ∧ (s.setObj h o).reel = s.reel ∧
    (s.setObj h o).sec = s.sec ∧ (s.setObj h o).saf = s.saf ∧ (s.setObj h o).clog = s.clog ∧ (s.setObj h o).pwr = s.pwr ∧
    (s.setObj h o).boot = s.boot ∧ (s.setObj h o).pins = s.pins ∧ (s.setObj h o).pending = s.pending ∧ (s.setObj h o).free = s.free :=
  ⟨rfl, rfl, rfl, rfl, rfl, rfl, rfl, rfl, rfl, rfl, rfl, rfl, rfl, rfl, rfl, rfl, rfl, rfl, rfl, rfl, rfl, rfl, rfl, rfl, rfl, rfl, rfl, rfl, rfl, rfl, rfl, rfl, rfl⟩

@[simp] theorem State.setSheet_frame (o k : Nat) (x : Option Sheet) :
    (s.setSheet o k x).tbm = s.tbm ∧ (s.setSheet o k x).regs = s.regs ∧ (s.setSheet o k x).grid = s.grid ∧
    (s.setSheet o k x).lanes = s.lanes ∧ (s.setSheet o k x).tally = s.tally ∧ (s.setSheet o k x).vec = s.vec ∧
    (s.setSheet o k x).tiers = s.tiers ∧ (s.setSheet o k x).banks = s.banks ∧ (s.setSheet o k x).ports = s.ports ∧ (s.setSheet o k x).nmd = s.nmd ∧
    (s.setSheet o k x).plate = s.plate ∧ (s.setSheet o k x).tints = s.tints ∧ (s.setSheet o k x).slots = s.slots ∧
    (s.setSheet o k x).ses = s.ses ∧ (s.setSheet o k x).ins = s.ins ∧ (s.setSheet o k x).upd = s.upd ∧ (s.setSheet o k x).sets = s.sets ∧
    (s.setSheet o k x).items = s.items ∧ (s.setSheet o k x).observed = s.observed ∧ (s.setSheet o k x).ucl = s.ucl ∧
    (s.setSheet o k x).host = s.host ∧ (s.setSheet o k x).uclResp = s.uclResp ∧ (s.setSheet o k x).prt = s.prt ∧
    (s.setSheet o k x).mbx = s.mbx ∧ (s.setSheet o k x).reel = s.reel ∧ (s.setSheet o k x).sec = s.sec ∧ (s.setSheet o k x).saf = s.saf ∧
    (s.setSheet o k x).clog = s.clog ∧ (s.setSheet o k x).pwr = s.pwr ∧ (s.setSheet o k x).boot = s.boot ∧
    (s.setSheet o k x).pins = s.pins ∧ (s.setSheet o k x).pending = s.pending ∧ (s.setSheet o k x).free = s.free :=
  ⟨rfl, rfl, rfl, rfl, rfl, rfl, rfl, rfl, rfl, rfl, rfl, rfl, rfl, rfl, rfl, rfl, rfl, rfl, rfl, rfl, rfl, rfl, rfl, rfl, rfl, rfl, rfl, rfl, rfl, rfl, rfl, rfl, rfl⟩

@[simp] theorem State.setCtx_frame (o : Nat) (x : PlayCtx) :
    (s.setCtx o x).tbm = s.tbm ∧ (s.setCtx o x).regs = s.regs ∧ (s.setCtx o x).grid = s.grid ∧ (s.setCtx o x).lanes = s.lanes ∧
    (s.setCtx o x).tally = s.tally ∧ (s.setCtx o x).vec = s.vec ∧ (s.setCtx o x).tiers = s.tiers ∧ (s.setCtx o x).banks = s.banks ∧ (s.setCtx o x).ports = s.ports ∧
    (s.setCtx o x).nmd = s.nmd ∧ (s.setCtx o x).plate = s.plate ∧ (s.setCtx o x).tints = s.tints ∧ (s.setCtx o x).slots = s.slots ∧
    (s.setCtx o x).ses = s.ses ∧ (s.setCtx o x).ins = s.ins ∧ (s.setCtx o x).upd = s.upd ∧ (s.setCtx o x).sets = s.sets ∧
    (s.setCtx o x).items = s.items ∧ (s.setCtx o x).observed = s.observed ∧ (s.setCtx o x).ucl = s.ucl ∧ (s.setCtx o x).host = s.host ∧
    (s.setCtx o x).uclResp = s.uclResp ∧ (s.setCtx o x).prt = s.prt ∧ (s.setCtx o x).mbx = s.mbx ∧ (s.setCtx o x).reel = s.reel ∧
    (s.setCtx o x).sec = s.sec ∧ (s.setCtx o x).saf = s.saf ∧ (s.setCtx o x).clog = s.clog ∧ (s.setCtx o x).pwr = s.pwr ∧
    (s.setCtx o x).boot = s.boot ∧ (s.setCtx o x).pins = s.pins ∧ (s.setCtx o x).pending = s.pending ∧ (s.setCtx o x).free = s.free :=
  ⟨rfl, rfl, rfl, rfl, rfl, rfl, rfl, rfl, rfl, rfl, rfl, rfl, rfl, rfl, rfl, rfl, rfl, rfl, rfl, rfl, rfl, rfl, rfl, rfl, rfl, rfl, rfl, rfl, rfl, rfl, rfl, rfl, rfl⟩

@[simp] theorem State.setPart_frame (p : Nat) (x : Partition) :
    (s.setPart p x).tbm = s.tbm ∧ (s.setPart p x).regs = s.regs ∧ (s.setPart p x).player = s.player ∧ (s.setPart p x).grid = s.grid ∧
    (s.setPart p x).lanes = s.lanes ∧ (s.setPart p x).tally = s.tally ∧ (s.setPart p x).vec = s.vec ∧ (s.setPart p x).tiers = s.tiers ∧
    (s.setPart p x).banks = s.banks ∧ (s.setPart p x).ports = s.ports ∧ (s.setPart p x).nmd = s.nmd ∧ (s.setPart p x).plate = s.plate ∧ (s.setPart p x).tints = s.tints ∧
    (s.setPart p x).slots = s.slots ∧ (s.setPart p x).ses = s.ses ∧ (s.setPart p x).ins = s.ins ∧ (s.setPart p x).upd = s.upd ∧
    (s.setPart p x).sets = s.sets ∧ (s.setPart p x).items = s.items ∧ (s.setPart p x).observed = s.observed ∧
    (s.setPart p x).ucl = s.ucl ∧ (s.setPart p x).host = s.host ∧ (s.setPart p x).uclResp = s.uclResp ∧ (s.setPart p x).mbx = s.mbx ∧
    (s.setPart p x).reel = s.reel ∧ (s.setPart p x).sec = s.sec ∧ (s.setPart p x).saf = s.saf ∧ (s.setPart p x).clog = s.clog ∧
    (s.setPart p x).pwr = s.pwr ∧ (s.setPart p x).boot = s.boot ∧ (s.setPart p x).pins = s.pins ∧ (s.setPart p x).pending = s.pending ∧
    (s.setPart p x).free = s.free :=
  ⟨rfl, rfl, rfl, rfl, rfl, rfl, rfl, rfl, rfl, rfl, rfl, rfl, rfl, rfl, rfl, rfl, rfl, rfl, rfl, rfl, rfl, rfl, rfl, rfl, rfl, rfl, rfl, rfl, rfl, rfl, rfl, rfl, rfl⟩

@[simp] theorem State.setRingSet_frame (k : Nat) (x : RingSet) :
    (s.setRingSet k x).tbm = s.tbm ∧ (s.setRingSet k x).regs = s.regs ∧ (s.setRingSet k x).player = s.player ∧
    (s.setRingSet k x).grid = s.grid ∧ (s.setRingSet k x).lanes = s.lanes ∧ (s.setRingSet k x).tally = s.tally ∧
    (s.setRingSet k x).vec = s.vec ∧ (s.setRingSet k x).tiers = s.tiers ∧ (s.setRingSet k x).banks = s.banks ∧ (s.setRingSet k x).ports = s.ports ∧
    (s.setRingSet k x).nmd = s.nmd ∧ (s.setRingSet k x).plate = s.plate ∧ (s.setRingSet k x).tints = s.tints ∧
    (s.setRingSet k x).slots = s.slots ∧ (s.setRingSet k x).ses = s.ses ∧ (s.setRingSet k x).ins = s.ins ∧
    (s.setRingSet k x).upd = s.upd ∧ (s.setRingSet k x).items = s.items ∧ (s.setRingSet k x).observed = s.observed ∧
    (s.setRingSet k x).ucl = s.ucl ∧ (s.setRingSet k x).host = s.host ∧ (s.setRingSet k x).uclResp = s.uclResp ∧
    (s.setRingSet k x).prt = s.prt ∧ (s.setRingSet k x).mbx = s.mbx ∧ (s.setRingSet k x).reel = s.reel ∧ (s.setRingSet k x).sec = s.sec ∧
    (s.setRingSet k x).saf = s.saf ∧ (s.setRingSet k x).clog = s.clog ∧ (s.setRingSet k x).pwr = s.pwr ∧
    (s.setRingSet k x).boot = s.boot ∧ (s.setRingSet k x).pins = s.pins ∧ (s.setRingSet k x).pending = s.pending ∧
    (s.setRingSet k x).free = s.free :=
  ⟨rfl, rfl, rfl, rfl, rfl, rfl, rfl, rfl, rfl, rfl, rfl, rfl, rfl, rfl, rfl, rfl, rfl, rfl, rfl, rfl, rfl, rfl, rfl, rfl, rfl, rfl, rfl, rfl, rfl, rfl, rfl, rfl, rfl⟩

@[simp] theorem State.setPort_frame (n : Nat) (x : Port) :
    (s.setPort n x).tbm = s.tbm ∧ (s.setPort n x).regs = s.regs ∧ (s.setPort n x).player = s.player ∧ (s.setPort n x).grid = s.grid ∧
    (s.setPort n x).lanes = s.lanes ∧ (s.setPort n x).tally = s.tally ∧ (s.setPort n x).vec = s.vec ∧ (s.setPort n x).tiers = s.tiers ∧
    (s.setPort n x).banks = s.banks ∧ (s.setPort n x).ports = s.ports ∧ (s.setPort n x).nmd = s.nmd ∧ (s.setPort n x).plate = s.plate ∧ (s.setPort n x).tints = s.tints ∧
    (s.setPort n x).slots = s.slots ∧ (s.setPort n x).ses = s.ses ∧ (s.setPort n x).ins = s.ins ∧ (s.setPort n x).upd = s.upd ∧
    (s.setPort n x).sets = s.sets ∧ (s.setPort n x).items = s.items ∧ (s.setPort n x).observed = s.observed ∧
    (s.setPort n x).ucl = s.ucl ∧ (s.setPort n x).host = s.host ∧ (s.setPort n x).uclResp = s.uclResp ∧ (s.setPort n x).prt = s.prt ∧
    (s.setPort n x).mbx = s.mbx ∧ (s.setPort n x).sec = s.sec ∧ (s.setPort n x).saf = s.saf ∧ (s.setPort n x).clog = s.clog ∧
    (s.setPort n x).pwr = s.pwr ∧ (s.setPort n x).boot = s.boot ∧ (s.setPort n x).pins = s.pins ∧ (s.setPort n x).pending = s.pending ∧
    (s.setPort n x).free = s.free :=
  ⟨rfl, rfl, rfl, rfl, rfl, rfl, rfl, rfl, rfl, rfl, rfl, rfl, rfl, rfl, rfl, rfl, rfl, rfl, rfl, rfl, rfl, rfl, rfl, rfl, rfl, rfl, rfl, rfl, rfl, rfl, rfl, rfl, rfl⟩

@[simp] theorem State.setNmd_frame (n : Nat) (x : Nmd) :
    (s.setNmd n x).tbm = s.tbm ∧ (s.setNmd n x).regs = s.regs ∧ (s.setNmd n x).player = s.player ∧ (s.setNmd n x).grid = s.grid ∧
    (s.setNmd n x).lanes = s.lanes ∧ (s.setNmd n x).tally = s.tally ∧ (s.setNmd n x).vec = s.vec ∧ (s.setNmd n x).tiers = s.tiers ∧
    (s.setNmd n x).banks = s.banks ∧ (s.setNmd n x).ports = s.ports ∧ (s.setNmd n x).plate = s.plate ∧ (s.setNmd n x).tints = s.tints ∧ (s.setNmd n x).slots = s.slots ∧
    (s.setNmd n x).ses = s.ses ∧ (s.setNmd n x).ins = s.ins ∧ (s.setNmd n x).upd = s.upd ∧ (s.setNmd n x).sets = s.sets ∧
    (s.setNmd n x).items = s.items ∧ (s.setNmd n x).observed = s.observed ∧ (s.setNmd n x).ucl = s.ucl ∧ (s.setNmd n x).host = s.host ∧
    (s.setNmd n x).uclResp = s.uclResp ∧ (s.setNmd n x).prt = s.prt ∧ (s.setNmd n x).mbx = s.mbx ∧ (s.setNmd n x).reel = s.reel ∧
    (s.setNmd n x).sec = s.sec ∧ (s.setNmd n x).saf = s.saf ∧ (s.setNmd n x).clog = s.clog ∧ (s.setNmd n x).pwr = s.pwr ∧
    (s.setNmd n x).boot = s.boot ∧ (s.setNmd n x).pins = s.pins ∧ (s.setNmd n x).pending = s.pending ∧ (s.setNmd n x).free = s.free :=
  ⟨rfl, rfl, rfl, rfl, rfl, rfl, rfl, rfl, rfl, rfl, rfl, rfl, rfl, rfl, rfl, rfl, rfl, rfl, rfl, rfl, rfl, rfl, rfl, rfl, rfl, rfl, rfl, rfl, rfl, rfl, rfl, rfl, rfl⟩

@[simp] theorem State.setUpd_frame (n : Nat) (x : UpdEngine) :
    (s.setUpd n x).tbm = s.tbm ∧ (s.setUpd n x).regs = s.regs ∧ (s.setUpd n x).player = s.player ∧ (s.setUpd n x).grid = s.grid ∧
    (s.setUpd n x).lanes = s.lanes ∧ (s.setUpd n x).tally = s.tally ∧ (s.setUpd n x).vec = s.vec ∧ (s.setUpd n x).tiers = s.tiers ∧
    (s.setUpd n x).banks = s.banks ∧ (s.setUpd n x).ports = s.ports ∧ (s.setUpd n x).nmd = s.nmd ∧ (s.setUpd n x).plate = s.plate ∧ (s.setUpd n x).tints = s.tints ∧
    (s.setUpd n x).slots = s.slots ∧ (s.setUpd n x).ses = s.ses ∧ (s.setUpd n x).ins = s.ins ∧ (s.setUpd n x).sets = s.sets ∧
    (s.setUpd n x).items = s.items ∧ (s.setUpd n x).observed = s.observed ∧ (s.setUpd n x).ucl = s.ucl ∧ (s.setUpd n x).host = s.host ∧
    (s.setUpd n x).uclResp = s.uclResp ∧ (s.setUpd n x).prt = s.prt ∧ (s.setUpd n x).mbx = s.mbx ∧ (s.setUpd n x).reel = s.reel ∧
    (s.setUpd n x).sec = s.sec ∧ (s.setUpd n x).saf = s.saf ∧ (s.setUpd n x).clog = s.clog ∧ (s.setUpd n x).pwr = s.pwr ∧
    (s.setUpd n x).boot = s.boot ∧ (s.setUpd n x).pins = s.pins ∧ (s.setUpd n x).pending = s.pending ∧ (s.setUpd n x).free = s.free :=
  ⟨rfl, rfl, rfl, rfl, rfl, rfl, rfl, rfl, rfl, rfl, rfl, rfl, rfl, rfl, rfl, rfl, rfl, rfl, rfl, rfl, rfl, rfl, rfl, rfl, rfl, rfl, rfl, rfl, rfl, rfl, rfl, rfl, rfl⟩

@[simp] theorem State.setUnit_frame (u : Nat) (x : VUnit) :
    (s.setUnit u x).tbm = s.tbm ∧ (s.setUnit u x).regs = s.regs ∧ (s.setUnit u x).player = s.player ∧ (s.setUnit u x).grid = s.grid ∧
    (s.setUnit u x).lanes = s.lanes ∧ (s.setUnit u x).tally = s.tally ∧ (s.setUnit u x).tiers = s.tiers ∧
    (s.setUnit u x).banks = s.banks ∧ (s.setUnit u x).ports = s.ports ∧ (s.setUnit u x).nmd = s.nmd ∧ (s.setUnit u x).plate = s.plate ∧ (s.setUnit u x).tints = s.tints ∧
    (s.setUnit u x).slots = s.slots ∧ (s.setUnit u x).ses = s.ses ∧ (s.setUnit u x).ins = s.ins ∧ (s.setUnit u x).upd = s.upd ∧
    (s.setUnit u x).sets = s.sets ∧ (s.setUnit u x).items = s.items ∧ (s.setUnit u x).observed = s.observed ∧
    (s.setUnit u x).ucl = s.ucl ∧ (s.setUnit u x).host = s.host ∧ (s.setUnit u x).uclResp = s.uclResp ∧ (s.setUnit u x).prt = s.prt ∧
    (s.setUnit u x).mbx = s.mbx ∧ (s.setUnit u x).reel = s.reel ∧ (s.setUnit u x).sec = s.sec ∧ (s.setUnit u x).saf = s.saf ∧
    (s.setUnit u x).clog = s.clog ∧ (s.setUnit u x).pwr = s.pwr ∧ (s.setUnit u x).boot = s.boot ∧ (s.setUnit u x).pins = s.pins ∧
    (s.setUnit u x).pending = s.pending ∧ (s.setUnit u x).free = s.free :=
  ⟨rfl, rfl, rfl, rfl, rfl, rfl, rfl, rfl, rfl, rfl, rfl, rfl, rfl, rfl, rfl, rfl, rfl, rfl, rfl, rfl, rfl, rfl, rfl, rfl, rfl, rfl, rfl, rfl, rfl, rfl, rfl, rfl, rfl⟩

@[simp] theorem State.setTally_frame (o : Nat) (x : Tally) :
    (s.setTally o x).tbm = s.tbm ∧ (s.setTally o x).regs = s.regs ∧ (s.setTally o x).player = s.player ∧ (s.setTally o x).grid = s.grid ∧
    (s.setTally o x).lanes = s.lanes ∧ (s.setTally o x).vec = s.vec ∧ (s.setTally o x).tiers = s.tiers ∧
    (s.setTally o x).banks = s.banks ∧ (s.setTally o x).ports = s.ports ∧ (s.setTally o x).nmd = s.nmd ∧ (s.setTally o x).plate = s.plate ∧
    (s.setTally o x).tints = s.tints ∧ (s.setTally o x).slots = s.slots ∧ (s.setTally o x).ses = s.ses ∧ (s.setTally o x).ins = s.ins ∧
    (s.setTally o x).upd = s.upd ∧ (s.setTally o x).sets = s.sets ∧ (s.setTally o x).items = s.items ∧
    (s.setTally o x).observed = s.observed ∧ (s.setTally o x).ucl = s.ucl ∧ (s.setTally o x).host = s.host ∧
    (s.setTally o x).uclResp = s.uclResp ∧ (s.setTally o x).prt = s.prt ∧ (s.setTally o x).mbx = s.mbx ∧ (s.setTally o x).reel = s.reel ∧
    (s.setTally o x).sec = s.sec ∧ (s.setTally o x).saf = s.saf ∧ (s.setTally o x).clog = s.clog ∧ (s.setTally o x).pwr = s.pwr ∧
    (s.setTally o x).boot = s.boot ∧ (s.setTally o x).pins = s.pins ∧ (s.setTally o x).pending = s.pending ∧
    (s.setTally o x).free = s.free :=
  ⟨rfl, rfl, rfl, rfl, rfl, rfl, rfl, rfl, rfl, rfl, rfl, rfl, rfl, rfl, rfl, rfl, rfl, rfl, rfl, rfl, rfl, rfl, rfl, rfl, rfl, rfl, rfl, rfl, rfl, rfl, rfl, rfl, rfl⟩

@[simp] theorem State.setTile_frame (n : Nat) (x : AccTile) :
    (s.setTile n x).tbm = s.tbm ∧ (s.setTile n x).regs = s.regs ∧ (s.setTile n x).player = s.player ∧ (s.setTile n x).lanes = s.lanes ∧
    (s.setTile n x).tally = s.tally ∧ (s.setTile n x).vec = s.vec ∧ (s.setTile n x).tiers = s.tiers ∧ (s.setTile n x).banks = s.banks ∧ (s.setTile n x).ports = s.ports ∧
    (s.setTile n x).nmd = s.nmd ∧ (s.setTile n x).plate = s.plate ∧ (s.setTile n x).tints = s.tints ∧ (s.setTile n x).slots = s.slots ∧
    (s.setTile n x).ses = s.ses ∧ (s.setTile n x).ins = s.ins ∧ (s.setTile n x).upd = s.upd ∧ (s.setTile n x).sets = s.sets ∧
    (s.setTile n x).items = s.items ∧ (s.setTile n x).observed = s.observed ∧ (s.setTile n x).ucl = s.ucl ∧
    (s.setTile n x).host = s.host ∧ (s.setTile n x).uclResp = s.uclResp ∧ (s.setTile n x).prt = s.prt ∧ (s.setTile n x).mbx = s.mbx ∧
    (s.setTile n x).reel = s.reel ∧ (s.setTile n x).sec = s.sec ∧ (s.setTile n x).saf = s.saf ∧ (s.setTile n x).clog = s.clog ∧
    (s.setTile n x).pwr = s.pwr ∧ (s.setTile n x).boot = s.boot ∧ (s.setTile n x).pins = s.pins ∧ (s.setTile n x).pending = s.pending ∧
    (s.setTile n x).free = s.free :=
  ⟨rfl, rfl, rfl, rfl, rfl, rfl, rfl, rfl, rfl, rfl, rfl, rfl, rfl, rfl, rfl, rfl, rfl, rfl, rfl, rfl, rfl, rfl, rfl, rfl, rfl, rfl, rfl, rfl, rfl, rfl, rfl, rfl, rfl⟩

@[simp] theorem State.setUcl_frame (n : Nat) (x : UclPort) :
    (s.setUcl n x).tbm = s.tbm ∧ (s.setUcl n x).regs = s.regs ∧ (s.setUcl n x).player = s.player ∧ (s.setUcl n x).grid = s.grid ∧
    (s.setUcl n x).lanes = s.lanes ∧ (s.setUcl n x).tally = s.tally ∧ (s.setUcl n x).vec = s.vec ∧ (s.setUcl n x).tiers = s.tiers ∧
    (s.setUcl n x).banks = s.banks ∧ (s.setUcl n x).ports = s.ports ∧ (s.setUcl n x).nmd = s.nmd ∧ (s.setUcl n x).plate = s.plate ∧ (s.setUcl n x).tints = s.tints ∧
    (s.setUcl n x).slots = s.slots ∧ (s.setUcl n x).ses = s.ses ∧ (s.setUcl n x).ins = s.ins ∧ (s.setUcl n x).upd = s.upd ∧
    (s.setUcl n x).sets = s.sets ∧ (s.setUcl n x).items = s.items ∧ (s.setUcl n x).observed = s.observed ∧ (s.setUcl n x).host = s.host ∧
    (s.setUcl n x).uclResp = s.uclResp ∧ (s.setUcl n x).prt = s.prt ∧ (s.setUcl n x).mbx = s.mbx ∧ (s.setUcl n x).reel = s.reel ∧
    (s.setUcl n x).sec = s.sec ∧ (s.setUcl n x).saf = s.saf ∧ (s.setUcl n x).clog = s.clog ∧ (s.setUcl n x).pwr = s.pwr ∧
    (s.setUcl n x).boot = s.boot ∧ (s.setUcl n x).pins = s.pins ∧ (s.setUcl n x).pending = s.pending ∧ (s.setUcl n x).free = s.free :=
  ⟨rfl, rfl, rfl, rfl, rfl, rfl, rfl, rfl, rfl, rfl, rfl, rfl, rfl, rfl, rfl, rfl, rfl, rfl, rfl, rfl, rfl, rfl, rfl, rfl, rfl, rfl, rfl, rfl, rfl, rfl, rfl, rfl, rfl⟩

@[simp] theorem State.setChan_frame (c : Nat) (x : Channel) :
    (s.setChan c x).tbm = s.tbm ∧ (s.setChan c x).regs = s.regs ∧ (s.setChan c x).player = s.player ∧ (s.setChan c x).grid = s.grid ∧
    (s.setChan c x).lanes = s.lanes ∧ (s.setChan c x).tally = s.tally ∧ (s.setChan c x).vec = s.vec ∧ (s.setChan c x).tiers = s.tiers ∧
    (s.setChan c x).banks = s.banks ∧ (s.setChan c x).ports = s.ports ∧ (s.setChan c x).nmd = s.nmd ∧ (s.setChan c x).plate = s.plate ∧ (s.setChan c x).tints = s.tints ∧
    (s.setChan c x).slots = s.slots ∧ (s.setChan c x).ses = s.ses ∧ (s.setChan c x).ins = s.ins ∧ (s.setChan c x).upd = s.upd ∧
    (s.setChan c x).sets = s.sets ∧ (s.setChan c x).items = s.items ∧ (s.setChan c x).observed = s.observed ∧
    (s.setChan c x).ucl = s.ucl ∧ (s.setChan c x).host = s.host ∧ (s.setChan c x).uclResp = s.uclResp ∧ (s.setChan c x).prt = s.prt ∧
    (s.setChan c x).reel = s.reel ∧ (s.setChan c x).sec = s.sec ∧ (s.setChan c x).saf = s.saf ∧ (s.setChan c x).clog = s.clog ∧
    (s.setChan c x).pwr = s.pwr ∧ (s.setChan c x).boot = s.boot ∧ (s.setChan c x).pins = s.pins ∧ (s.setChan c x).pending = s.pending ∧
    (s.setChan c x).free = s.free :=
  ⟨rfl, rfl, rfl, rfl, rfl, rfl, rfl, rfl, rfl, rfl, rfl, rfl, rfl, rfl, rfl, rfl, rfl, rfl, rfl, rfl, rfl, rfl, rfl, rfl, rfl, rfl, rfl, rfl, rfl, rfl, rfl, rfl, rfl⟩

@[simp] theorem State.modItem_frame (k : ItemKey) (f : Item → Item) :
    (s.modItem k f).tbm = s.tbm ∧ (s.modItem k f).regs = s.regs ∧ (s.modItem k f).player = s.player ∧ (s.modItem k f).grid = s.grid ∧
    (s.modItem k f).lanes = s.lanes ∧ (s.modItem k f).tally = s.tally ∧ (s.modItem k f).vec = s.vec ∧ (s.modItem k f).tiers = s.tiers ∧
    (s.modItem k f).banks = s.banks ∧ (s.modItem k f).ports = s.ports ∧ (s.modItem k f).nmd = s.nmd ∧ (s.modItem k f).plate = s.plate ∧ (s.modItem k f).tints = s.tints ∧
    (s.modItem k f).slots = s.slots ∧ (s.modItem k f).ses = s.ses ∧ (s.modItem k f).ins = s.ins ∧ (s.modItem k f).upd = s.upd ∧
    (s.modItem k f).sets = s.sets ∧ (s.modItem k f).observed = s.observed ∧ (s.modItem k f).ucl = s.ucl ∧ (s.modItem k f).host = s.host ∧
    (s.modItem k f).uclResp = s.uclResp ∧ (s.modItem k f).prt = s.prt ∧ (s.modItem k f).mbx = s.mbx ∧ (s.modItem k f).reel = s.reel ∧
    (s.modItem k f).sec = s.sec ∧ (s.modItem k f).saf = s.saf ∧ (s.modItem k f).clog = s.clog ∧ (s.modItem k f).pwr = s.pwr ∧
    (s.modItem k f).boot = s.boot ∧ (s.modItem k f).pins = s.pins ∧ (s.modItem k f).pending = s.pending ∧ (s.modItem k f).free = s.free :=
  ⟨rfl, rfl, rfl, rfl, rfl, rfl, rfl, rfl, rfl, rfl, rfl, rfl, rfl, rfl, rfl, rfl, rfl, rfl, rfl, rfl, rfl, rfl, rfl, rfl, rfl, rfl, rfl, rfl, rfl, rfl, rfl, rfl, rfl⟩

@[simp] theorem State.hostWrite_frame (a : Nat) (bs : Blob) :
    (s.hostWrite a bs).tbm = s.tbm ∧ (s.hostWrite a bs).regs = s.regs ∧ (s.hostWrite a bs).player = s.player ∧
    (s.hostWrite a bs).grid = s.grid ∧ (s.hostWrite a bs).lanes = s.lanes ∧ (s.hostWrite a bs).tally = s.tally ∧
    (s.hostWrite a bs).vec = s.vec ∧ (s.hostWrite a bs).tiers = s.tiers ∧ (s.hostWrite a bs).banks = s.banks ∧ (s.hostWrite a bs).ports = s.ports ∧
    (s.hostWrite a bs).nmd = s.nmd ∧ (s.hostWrite a bs).plate = s.plate ∧ (s.hostWrite a bs).tints = s.tints ∧
    (s.hostWrite a bs).slots = s.slots ∧ (s.hostWrite a bs).ses = s.ses ∧ (s.hostWrite a bs).ins = s.ins ∧
    (s.hostWrite a bs).upd = s.upd ∧ (s.hostWrite a bs).sets = s.sets ∧ (s.hostWrite a bs).items = s.items ∧
    (s.hostWrite a bs).observed = s.observed ∧ (s.hostWrite a bs).ucl = s.ucl ∧ (s.hostWrite a bs).uclResp = s.uclResp ∧
    (s.hostWrite a bs).prt = s.prt ∧ (s.hostWrite a bs).mbx = s.mbx ∧ (s.hostWrite a bs).reel = s.reel ∧ (s.hostWrite a bs).sec = s.sec ∧
    (s.hostWrite a bs).saf = s.saf ∧ (s.hostWrite a bs).clog = s.clog ∧ (s.hostWrite a bs).pwr = s.pwr ∧
    (s.hostWrite a bs).boot = s.boot ∧ (s.hostWrite a bs).pins = s.pins ∧ (s.hostWrite a bs).pending = s.pending ∧
    (s.hostWrite a bs).free = s.free :=
  ⟨rfl, rfl, rfl, rfl, rfl, rfl, rfl, rfl, rfl, rfl, rfl, rfl, rfl, rfl, rfl, rfl, rfl, rfl, rfl, rfl, rfl, rfl, rfl, rfl, rfl, rfl, rfl, rfl, rfl, rfl, rfl, rfl, rfl⟩

@[simp] theorem State.writeF_frame (a : Nat) (bs : Blob) :
    (s.writeF a bs).tbm = s.tbm ∧ (s.writeF a bs).regs = s.regs ∧ (s.writeF a bs).player = s.player ∧ (s.writeF a bs).grid = s.grid ∧
    (s.writeF a bs).lanes = s.lanes ∧ (s.writeF a bs).tally = s.tally ∧ (s.writeF a bs).vec = s.vec ∧ (s.writeF a bs).banks = s.banks ∧ (s.writeF a bs).ports = s.ports ∧
    (s.writeF a bs).nmd = s.nmd ∧ (s.writeF a bs).plate = s.plate ∧ (s.writeF a bs).tints = s.tints ∧ (s.writeF a bs).slots = s.slots ∧
    (s.writeF a bs).ses = s.ses ∧ (s.writeF a bs).ins = s.ins ∧ (s.writeF a bs).upd = s.upd ∧ (s.writeF a bs).sets = s.sets ∧
    (s.writeF a bs).items = s.items ∧ (s.writeF a bs).observed = s.observed ∧ (s.writeF a bs).ucl = s.ucl ∧
    (s.writeF a bs).host = s.host ∧ (s.writeF a bs).uclResp = s.uclResp ∧ (s.writeF a bs).prt = s.prt ∧ (s.writeF a bs).mbx = s.mbx ∧
    (s.writeF a bs).reel = s.reel ∧ (s.writeF a bs).sec = s.sec ∧ (s.writeF a bs).saf = s.saf ∧ (s.writeF a bs).clog = s.clog ∧
    (s.writeF a bs).pwr = s.pwr ∧ (s.writeF a bs).boot = s.boot ∧ (s.writeF a bs).pins = s.pins ∧ (s.writeF a bs).pending = s.pending ∧
    (s.writeF a bs).free = s.free :=
  ⟨rfl, rfl, rfl, rfl, rfl, rfl, rfl, rfl, rfl, rfl, rfl, rfl, rfl, rfl, rfl, rfl, rfl, rfl, rfl, rfl, rfl, rfl, rfl, rfl, rfl, rfl, rfl, rfl, rfl, rfl, rfl, rfl, rfl⟩

@[simp] theorem State.answer_frame (v : Word) :
    (s.answer v).tbm = s.tbm ∧ (s.answer v).regs = s.regs ∧ (s.answer v).player = s.player ∧ (s.answer v).grid = s.grid ∧
    (s.answer v).lanes = s.lanes ∧ (s.answer v).tally = s.tally ∧ (s.answer v).vec = s.vec ∧ (s.answer v).tiers = s.tiers ∧
    (s.answer v).banks = s.banks ∧ (s.answer v).ports = s.ports ∧ (s.answer v).nmd = s.nmd ∧ (s.answer v).plate = s.plate ∧ (s.answer v).tints = s.tints ∧
    (s.answer v).slots = s.slots ∧ (s.answer v).ses = s.ses ∧ (s.answer v).ins = s.ins ∧ (s.answer v).upd = s.upd ∧
    (s.answer v).sets = s.sets ∧ (s.answer v).items = s.items ∧ (s.answer v).observed = s.observed ∧ (s.answer v).ucl = s.ucl ∧
    (s.answer v).host = s.host ∧ (s.answer v).prt = s.prt ∧ (s.answer v).mbx = s.mbx ∧ (s.answer v).reel = s.reel ∧
    (s.answer v).sec = s.sec ∧ (s.answer v).saf = s.saf ∧ (s.answer v).clog = s.clog ∧ (s.answer v).pwr = s.pwr ∧
    (s.answer v).boot = s.boot ∧ (s.answer v).pins = s.pins ∧ (s.answer v).pending = s.pending ∧ (s.answer v).free = s.free :=
  ⟨rfl, rfl, rfl, rfl, rfl, rfl, rfl, rfl, rfl, rfl, rfl, rfl, rfl, rfl, rfl, rfl, rfl, rfl, rfl, rfl, rfl, rfl, rfl, rfl, rfl, rfl, rfl, rfl, rfl, rfl, rfl, rfl, rfl⟩

@[simp] theorem State.advance_frame (n : Nat) :
    (s.advance n).regs = s.regs ∧ (s.advance n).player = s.player ∧ (s.advance n).grid = s.grid ∧ (s.advance n).lanes = s.lanes ∧
    (s.advance n).tally = s.tally ∧ (s.advance n).vec = s.vec ∧ (s.advance n).tiers = s.tiers ∧ (s.advance n).banks = s.banks ∧ (s.advance n).ports = s.ports ∧
    (s.advance n).nmd = s.nmd ∧ (s.advance n).plate = s.plate ∧ (s.advance n).tints = s.tints ∧ (s.advance n).slots = s.slots ∧
    (s.advance n).ses = s.ses ∧ (s.advance n).ins = s.ins ∧ (s.advance n).upd = s.upd ∧ (s.advance n).sets = s.sets ∧
    (s.advance n).items = s.items ∧ (s.advance n).observed = s.observed ∧ (s.advance n).ucl = s.ucl ∧ (s.advance n).host = s.host ∧
    (s.advance n).uclResp = s.uclResp ∧ (s.advance n).prt = s.prt ∧ (s.advance n).mbx = s.mbx ∧ (s.advance n).reel = s.reel ∧
    (s.advance n).sec = s.sec ∧ (s.advance n).saf = s.saf ∧ (s.advance n).clog = s.clog ∧ (s.advance n).pwr = s.pwr ∧
    (s.advance n).boot = s.boot ∧ (s.advance n).pins = s.pins ∧ (s.advance n).pending = s.pending ∧ (s.advance n).free = s.free :=
  by unfold State.advance; split <;> simp

@[simp] theorem State.draw32_frame :
    (s.draw32.2).tbm = s.tbm ∧ (s.draw32.2).regs = s.regs ∧ (s.draw32.2).player = s.player ∧ (s.draw32.2).grid = s.grid ∧
    (s.draw32.2).lanes = s.lanes ∧ (s.draw32.2).tally = s.tally ∧ (s.draw32.2).vec = s.vec ∧ (s.draw32.2).tiers = s.tiers ∧
    (s.draw32.2).banks = s.banks ∧ (s.draw32.2).ports = s.ports ∧ (s.draw32.2).nmd = s.nmd ∧ (s.draw32.2).plate = s.plate ∧ (s.draw32.2).tints = s.tints ∧
    (s.draw32.2).slots = s.slots ∧ (s.draw32.2).ses = s.ses ∧ (s.draw32.2).ins = s.ins ∧ (s.draw32.2).upd = s.upd ∧
    (s.draw32.2).sets = s.sets ∧ (s.draw32.2).items = s.items ∧ (s.draw32.2).observed = s.observed ∧ (s.draw32.2).ucl = s.ucl ∧
    (s.draw32.2).host = s.host ∧ (s.draw32.2).uclResp = s.uclResp ∧ (s.draw32.2).prt = s.prt ∧ (s.draw32.2).mbx = s.mbx ∧
    (s.draw32.2).reel = s.reel ∧ (s.draw32.2).sec = s.sec ∧ (s.draw32.2).saf = s.saf ∧ (s.draw32.2).clog = s.clog ∧
    (s.draw32.2).pwr = s.pwr ∧ (s.draw32.2).boot = s.boot ∧ (s.draw32.2).pins = s.pins ∧ (s.draw32.2).pending = s.pending :=
  ⟨rfl, rfl, rfl, rfl, rfl, rfl, rfl, rfl, rfl, rfl, rfl, rfl, rfl, rfl, rfl, rfl, rfl, rfl, rfl, rfl, rfl, rfl, rfl, rfl, rfl, rfl, rfl, rfl, rfl, rfl, rfl, rfl, rfl⟩

@[simp] theorem State.drawBool_frame :
    (s.drawBool.2).tbm = s.tbm ∧ (s.drawBool.2).regs = s.regs ∧ (s.drawBool.2).player = s.player ∧ (s.drawBool.2).grid = s.grid ∧
    (s.drawBool.2).lanes = s.lanes ∧ (s.drawBool.2).tally = s.tally ∧ (s.drawBool.2).vec = s.vec ∧ (s.drawBool.2).tiers = s.tiers ∧
    (s.drawBool.2).banks = s.banks ∧ (s.drawBool.2).ports = s.ports ∧ (s.drawBool.2).nmd = s.nmd ∧ (s.drawBool.2).plate = s.plate ∧ (s.drawBool.2).tints = s.tints ∧
    (s.drawBool.2).slots = s.slots ∧ (s.drawBool.2).ses = s.ses ∧ (s.drawBool.2).ins = s.ins ∧ (s.drawBool.2).upd = s.upd ∧
    (s.drawBool.2).sets = s.sets ∧ (s.drawBool.2).items = s.items ∧ (s.drawBool.2).observed = s.observed ∧ (s.drawBool.2).ucl = s.ucl ∧
    (s.drawBool.2).host = s.host ∧ (s.drawBool.2).uclResp = s.uclResp ∧ (s.drawBool.2).prt = s.prt ∧ (s.drawBool.2).mbx = s.mbx ∧
    (s.drawBool.2).reel = s.reel ∧ (s.drawBool.2).sec = s.sec ∧ (s.drawBool.2).saf = s.saf ∧ (s.drawBool.2).clog = s.clog ∧
    (s.drawBool.2).pwr = s.pwr ∧ (s.drawBool.2).boot = s.boot ∧ (s.drawBool.2).pins = s.pins ∧ (s.drawBool.2).pending = s.pending :=
  ⟨rfl, rfl, rfl, rfl, rfl, rfl, rfl, rfl, rfl, rfl, rfl, rfl, rfl, rfl, rfl, rfl, rfl, rfl, rfl, rfl, rfl, rfl, rfl, rfl, rfl, rfl, rfl, rfl, rfl, rfl, rfl, rfl, rfl⟩

@[simp] theorem State.stage_frame (r : LogRec) :
    (s.stage r).tbm = s.tbm ∧ (s.stage r).player = s.player ∧ (s.stage r).grid = s.grid ∧ (s.stage r).lanes = s.lanes ∧
    (s.stage r).tally = s.tally ∧ (s.stage r).vec = s.vec ∧ (s.stage r).tiers = s.tiers ∧ (s.stage r).banks = s.banks ∧ (s.stage r).ports = s.ports ∧
    (s.stage r).nmd = s.nmd ∧ (s.stage r).plate = s.plate ∧ (s.stage r).tints = s.tints ∧ (s.stage r).slots = s.slots ∧
    (s.stage r).ses = s.ses ∧ (s.stage r).ins = s.ins ∧ (s.stage r).upd = s.upd ∧ (s.stage r).sets = s.sets ∧
    (s.stage r).items = s.items ∧ (s.stage r).observed = s.observed ∧ (s.stage r).ucl = s.ucl ∧ (s.stage r).host = s.host ∧
    (s.stage r).uclResp = s.uclResp ∧ (s.stage r).prt = s.prt ∧ (s.stage r).mbx = s.mbx ∧ (s.stage r).reel = s.reel ∧
    (s.stage r).sec = s.sec ∧ (s.stage r).saf = s.saf ∧ (s.stage r).pwr = s.pwr ∧ (s.stage r).boot = s.boot ∧ (s.stage r).pins = s.pins ∧
    (s.stage r).pending = s.pending ∧ (s.stage r).free = s.free :=
  by unfold State.stage; split <;> (try split) <;> simp

@[simp] theorem State.log_frame (code : Nat) (args : List Nat) :
    (s.log code args).tbm = s.tbm ∧ (s.log code args).player = s.player ∧ (s.log code args).grid = s.grid ∧
    (s.log code args).lanes = s.lanes ∧ (s.log code args).tally = s.tally ∧ (s.log code args).vec = s.vec ∧
    (s.log code args).tiers = s.tiers ∧ (s.log code args).banks = s.banks ∧ (s.log code args).ports = s.ports ∧ (s.log code args).nmd = s.nmd ∧
    (s.log code args).plate = s.plate ∧ (s.log code args).tints = s.tints ∧ (s.log code args).slots = s.slots ∧
    (s.log code args).ses = s.ses ∧ (s.log code args).ins = s.ins ∧ (s.log code args).upd = s.upd ∧ (s.log code args).sets = s.sets ∧
    (s.log code args).items = s.items ∧ (s.log code args).observed = s.observed ∧ (s.log code args).ucl = s.ucl ∧
    (s.log code args).host = s.host ∧ (s.log code args).uclResp = s.uclResp ∧ (s.log code args).prt = s.prt ∧
    (s.log code args).mbx = s.mbx ∧ (s.log code args).reel = s.reel ∧ (s.log code args).sec = s.sec ∧ (s.log code args).saf = s.saf ∧
    (s.log code args).pwr = s.pwr ∧ (s.log code args).boot = s.boot ∧ (s.log code args).pins = s.pins ∧
    (s.log code args).pending = s.pending ∧ (s.log code args).free = s.free :=
  by simp [State.log]

@[simp] theorem State.logUnit_frame (code owner kind unit : Nat) (args : List Nat) :
    (s.logUnit code owner kind unit args).tbm = s.tbm ∧ (s.logUnit code owner kind unit args).player = s.player ∧
    (s.logUnit code owner kind unit args).grid = s.grid ∧ (s.logUnit code owner kind unit args).lanes = s.lanes ∧
    (s.logUnit code owner kind unit args).tally = s.tally ∧ (s.logUnit code owner kind unit args).vec = s.vec ∧
    (s.logUnit code owner kind unit args).tiers = s.tiers ∧ (s.logUnit code owner kind unit args).banks = s.banks ∧ (s.logUnit code owner kind unit args).ports = s.ports ∧
    (s.logUnit code owner kind unit args).nmd = s.nmd ∧ (s.logUnit code owner kind unit args).plate = s.plate ∧
    (s.logUnit code owner kind unit args).tints = s.tints ∧ (s.logUnit code owner kind unit args).slots = s.slots ∧
    (s.logUnit code owner kind unit args).ses = s.ses ∧ (s.logUnit code owner kind unit args).ins = s.ins ∧
    (s.logUnit code owner kind unit args).upd = s.upd ∧ (s.logUnit code owner kind unit args).sets = s.sets ∧
    (s.logUnit code owner kind unit args).items = s.items ∧ (s.logUnit code owner kind unit args).observed = s.observed ∧
    (s.logUnit code owner kind unit args).ucl = s.ucl ∧ (s.logUnit code owner kind unit args).host = s.host ∧
    (s.logUnit code owner kind unit args).uclResp = s.uclResp ∧ (s.logUnit code owner kind unit args).prt = s.prt ∧
    (s.logUnit code owner kind unit args).mbx = s.mbx ∧ (s.logUnit code owner kind unit args).reel = s.reel ∧
    (s.logUnit code owner kind unit args).sec = s.sec ∧ (s.logUnit code owner kind unit args).saf = s.saf ∧
    (s.logUnit code owner kind unit args).pwr = s.pwr ∧ (s.logUnit code owner kind unit args).boot = s.boot ∧
    (s.logUnit code owner kind unit args).pins = s.pins ∧ (s.logUnit code owner kind unit args).pending = s.pending ∧
    (s.logUnit code owner kind unit args).free = s.free :=
  by simp [State.logUnit]

@[simp] theorem State.event_frame (set kind arg8 tint layer gen arg32 : Nat) :
    (s.event set kind arg8 tint layer gen arg32).tbm = s.tbm ∧ (s.event set kind arg8 tint layer gen arg32).player = s.player ∧
    (s.event set kind arg8 tint layer gen arg32).grid = s.grid ∧ (s.event set kind arg8 tint layer gen arg32).lanes = s.lanes ∧
    (s.event set kind arg8 tint layer gen arg32).tally = s.tally ∧ (s.event set kind arg8 tint layer gen arg32).vec = s.vec ∧
    (s.event set kind arg8 tint layer gen arg32).tiers = s.tiers ∧ (s.event set kind arg8 tint layer gen arg32).banks = s.banks ∧ (s.event set kind arg8 tint layer gen arg32).ports = s.ports ∧
    (s.event set kind arg8 tint layer gen arg32).nmd = s.nmd ∧ (s.event set kind arg8 tint layer gen arg32).plate = s.plate ∧
    (s.event set kind arg8 tint layer gen arg32).tints = s.tints ∧ (s.event set kind arg8 tint layer gen arg32).slots = s.slots ∧
    (s.event set kind arg8 tint layer gen arg32).ses = s.ses ∧ (s.event set kind arg8 tint layer gen arg32).ins = s.ins ∧
    (s.event set kind arg8 tint layer gen arg32).upd = s.upd ∧ (s.event set kind arg8 tint layer gen arg32).items = s.items ∧
    (s.event set kind arg8 tint layer gen arg32).observed = s.observed ∧ (s.event set kind arg8 tint layer gen arg32).ucl = s.ucl ∧
    (s.event set kind arg8 tint layer gen arg32).host = s.host ∧ (s.event set kind arg8 tint layer gen arg32).uclResp = s.uclResp ∧
    (s.event set kind arg8 tint layer gen arg32).prt = s.prt ∧ (s.event set kind arg8 tint layer gen arg32).mbx = s.mbx ∧
    (s.event set kind arg8 tint layer gen arg32).reel = s.reel ∧ (s.event set kind arg8 tint layer gen arg32).sec = s.sec ∧
    (s.event set kind arg8 tint layer gen arg32).saf = s.saf ∧ (s.event set kind arg8 tint layer gen arg32).clog = s.clog ∧
    (s.event set kind arg8 tint layer gen arg32).pwr = s.pwr ∧ (s.event set kind arg8 tint layer gen arg32).boot = s.boot ∧
    (s.event set kind arg8 tint layer gen arg32).pins = s.pins ∧ (s.event set kind arg8 tint layer gen arg32).pending = s.pending ∧
    (s.event set kind arg8 tint layer gen arg32).free = s.free :=
  by unfold State.event; simp only []; split <;> (try split) <;> simp

@[simp] theorem State.finish_frame (k : ItemKey) (st : Nat) (r : BitVec 128) (i : BitVec 4) (o : List (Nat × Blob)) :
    (s.finish k st r i o).tbm = s.tbm ∧ (s.finish k st r i o).regs = s.regs ∧ (s.finish k st r i o).player = s.player ∧
    (s.finish k st r i o).grid = s.grid ∧ (s.finish k st r i o).lanes = s.lanes ∧ (s.finish k st r i o).tally = s.tally ∧
    (s.finish k st r i o).vec = s.vec ∧ (s.finish k st r i o).tiers = s.tiers ∧ (s.finish k st r i o).banks = s.banks ∧ (s.finish k st r i o).ports = s.ports ∧
    (s.finish k st r i o).nmd = s.nmd ∧ (s.finish k st r i o).plate = s.plate ∧ (s.finish k st r i o).tints = s.tints ∧
    (s.finish k st r i o).slots = s.slots ∧ (s.finish k st r i o).ses = s.ses ∧ (s.finish k st r i o).ins = s.ins ∧
    (s.finish k st r i o).upd = s.upd ∧ (s.finish k st r i o).sets = s.sets ∧ (s.finish k st r i o).observed = s.observed ∧
    (s.finish k st r i o).ucl = s.ucl ∧ (s.finish k st r i o).host = s.host ∧ (s.finish k st r i o).uclResp = s.uclResp ∧
    (s.finish k st r i o).prt = s.prt ∧ (s.finish k st r i o).mbx = s.mbx ∧ (s.finish k st r i o).reel = s.reel ∧
    (s.finish k st r i o).sec = s.sec ∧ (s.finish k st r i o).saf = s.saf ∧ (s.finish k st r i o).clog = s.clog ∧
    (s.finish k st r i o).pwr = s.pwr ∧ (s.finish k st r i o).boot = s.boot ∧ (s.finish k st r i o).pins = s.pins ∧
    (s.finish k st r i o).pending = s.pending ∧ (s.finish k st r i o).free = s.free :=
  by simp [State.finish]

/-! ### Records and events touch no more than the log, the dailies and status bits -/

theorem State.stage_eq (r : LogRec) : s.stage r = { s with regs := (s.stage r).regs, clog := (s.stage r).clog } := by
  unfold State.stage; split <;> (try split) <;> rfl

theorem State.log_eq (code : Nat) (args : List Nat) :
    s.log code args = { s with regs := (s.log code args).regs, clog := (s.log code args).clog } := s.stage_eq _

theorem State.logUnit_eq (code owner kind unit : Nat) (args : List Nat) :
    s.logUnit code owner kind unit args =
      { s with regs := (s.logUnit code owner kind unit args).regs, clog := (s.logUnit code owner kind unit args).clog } := s.stage_eq _

theorem State.event_eq (set kind arg8 tint layer gen arg32 : Nat) :
    s.event set kind arg8 tint layer gen arg32 =
      { s with regs := (s.event set kind arg8 tint layer gen arg32).regs, sets := (s.event set kind arg8 tint layer gen arg32).sets } := by
  unfold State.event; simp only []; split <;> (try split) <;> rfl

/-! ### Reading back -/

theorem State.reg_setReg (k j : Nat) (x : Word) (h : Sparse.wf regReset s.regs = true) :
    (s.setReg k x).reg j = if j = k then x else s.reg j := by
  simp [State.reg, State.setReg, Sparse.get_set _ _ _ _ _ h]

theorem State.bank_setBank (k j : Nat) (x : Bank) (h : Sparse.wf (fun _ => Bank.init) s.banks.bank = true) :
    (s.setBank k x).bank j = if j = k then x else s.bank j := by
  simp [State.bank, State.setBank, Sparse.get_set _ _ _ _ _ h]

theorem State.tintOf_setTint (k j : Nat) (x : Tint) (h : Sparse.wf (fun _ => Tint.init) s.tints = true) :
    (s.setTint k x).tintOf j = if j = k then x else s.tintOf j := by
  simp [State.tintOf, State.setTint, Sparse.get_set _ _ _ _ _ h]

theorem State.slotOf_setSlot (k j : Nat) (x : HotSlot) (h : Sparse.wf (fun _ => HotSlot.init) s.slots = true) :
    (s.setSlot k x).slotOf j = if j = k then x else s.slotOf j := by
  simp [State.slotOf, State.setSlot, Sparse.get_set _ _ _ _ _ h]

theorem State.sesOf_setSes (k j : Nat) (x : Ses) (h : Sparse.wf (fun _ => Ses.init) s.ses = true) :
    (s.setSes k x).sesOf j = if j = k then x else s.sesOf j := by
  simp [State.sesOf, State.setSes, Sparse.get_set _ _ _ _ _ h]

theorem State.obj_setObj (k j : Nat) (x : Option Obj) (h : Sparse.wf (fun _ => none) s.tiers.objs = true) :
    (s.setObj k x).obj j = if j = k then x else s.obj j := by
  simp [State.obj, State.setObj, Sparse.get_set _ _ _ _ _ h]

theorem State.ctx_setCtx (k j : Nat) (x : PlayCtx) :
    (s.setCtx k x).ctx j = if j = k ∧ k < s.player.ctx.length then x else s.ctx j := by
  simp only [State.ctx, State.setCtx, List.getD_eq_getElem?_getD, List.getElem?_set]
  by_cases h : k = j
  · subst h; by_cases h2 : k < s.player.ctx.length <;> simp [h2]
  · simp [h, Ne.symm h]

theorem State.part_setPart (k j : Nat) (x : Partition) :
    (s.setPart k x).part j = if j = k ∧ k < s.prt.part.length then x else s.part j := by
  simp only [State.part, State.setPart, List.getD_eq_getElem?_getD, List.getElem?_set]
  by_cases h : k = j
  · subst h; by_cases h2 : k < s.prt.part.length <;> simp [h2]
  · simp [h, Ne.symm h]

theorem State.ringSet_setRingSet (k j : Nat) (x : RingSet) :
    (s.setRingSet k x).ringSet j = if j = k ∧ k < s.sets.length then x else s.ringSet j := by
  simp only [State.ringSet, State.setRingSet, List.getD_eq_getElem?_getD, List.getElem?_set]
  by_cases h : k = j
  · subst h; by_cases h2 : k < s.sets.length <;> simp [h2]
  · simp [h, Ne.symm h]

theorem State.port_setPort (k j : Nat) (x : Port) :
    (s.setPort k x).port j = if j = k ∧ k < s.reel.port.length then x else s.port j := by
  simp only [State.port, State.setPort, List.getD_eq_getElem?_getD, List.getElem?_set]
  by_cases h : k = j
  · subst h; by_cases h2 : k < s.reel.port.length <;> simp [h2]
  · simp [h, Ne.symm h]

theorem State.nmdOf_setNmd (k j : Nat) (x : Nmd) :
    (s.setNmd k x).nmdOf j = if j = k ∧ k < s.nmd.length then x else s.nmdOf j := by
  simp only [State.nmdOf, State.setNmd, List.getD_eq_getElem?_getD, List.getElem?_set]
  by_cases h : k = j
  · subst h; by_cases h2 : k < s.nmd.length <;> simp [h2]
  · simp [h, Ne.symm h]

theorem State.updOf_setUpd (k j : Nat) (x : UpdEngine) :
    (s.setUpd k x).updOf j = if j = k ∧ k < s.upd.length then x else s.updOf j := by
  simp only [State.updOf, State.setUpd, List.getD_eq_getElem?_getD, List.getElem?_set]
  by_cases h : k = j
  · subst h; by_cases h2 : k < s.upd.length <;> simp [h2]
  · simp [h, Ne.symm h]

theorem State.unit_setUnit (k j : Nat) (x : VUnit) :
    (s.setUnit k x).unit j = if j = k ∧ k < s.vec.units.length then x else s.unit j := by
  simp only [State.unit, State.setUnit, List.getD_eq_getElem?_getD, List.getElem?_set]
  by_cases h : k = j
  · subst h; by_cases h2 : k < s.vec.units.length <;> simp [h2]
  · simp [h, Ne.symm h]

theorem State.tallyOf_setTally (k j : Nat) (x : Tally) :
    (s.setTally k x).tallyOf j = if j = k ∧ k < s.tally.length then x else s.tallyOf j := by
  simp only [State.tallyOf, State.setTally, List.getD_eq_getElem?_getD, List.getElem?_set]
  by_cases h : k = j
  · subst h; by_cases h2 : k < s.tally.length <;> simp [h2]
  · simp [h, Ne.symm h]

theorem State.tile_setTile (k j : Nat) (x : AccTile) :
    (s.setTile k x).tile j = if j = k ∧ k < s.grid.tiles.length then x else s.tile j := by
  simp only [State.tile, State.setTile, List.getD_eq_getElem?_getD, List.getElem?_set]
  by_cases h : k = j
  · subst h; by_cases h2 : k < s.grid.tiles.length <;> simp [h2]
  · simp [h, Ne.symm h]

theorem State.uclPort_setUcl (k j : Nat) (x : UclPort) :
    (s.setUcl k x).uclPort j = if j = k ∧ k < s.ucl.length then x else s.uclPort j := by
  simp only [State.uclPort, State.setUcl, List.getD_eq_getElem?_getD, List.getElem?_set]
  by_cases h : k = j
  · subst h; by_cases h2 : k < s.ucl.length <;> simp [h2]
  · simp [h, Ne.symm h]

theorem State.chan_setChan (k j : Nat) (x : Channel) :
    (s.setChan k x).chan j = if j = k ∧ k < s.mbx.length then x else s.chan j := by
  simp only [State.chan, State.setChan, List.getD_eq_getElem?_getD, List.getElem?_set]
  by_cases h : k = j
  · subst h; by_cases h2 : k < s.mbx.length <;> simp [h2]
  · simp [h, Ne.symm h]

end Sys2Proof.Machine
end

