-- ==== Sys2Proof/Laws/Frames.lean ====
section
/-! SUPPORT. Which fields of the state the shared operations write: one lemma for each, closed under sequence, branches and loops. -/

namespace Sys2Proof.Machine

/-- The fields of the state. -/
inductive Fld
  | tbm | regs | player | grid | lanes | tally | vec | tiers | banks | ports | nmd | plate | tints | slots | ses | ins | upd | sets | items
  | observed | ucl | host | uclResp | prt | mbx | reel | sec | saf | clog | pwr | boot | pins | pending | free
  deriving DecidableEq, Repr

/-- A field is the same in two states. -/
def Fld.same (s t : State) : Fld → Prop
  | .tbm => t.tbm = s.tbm | .regs => t.regs = s.regs | .player => t.player = s.player | .grid => t.grid = s.grid
  | .lanes => t.lanes = s.lanes | .tally => t.tally = s.tally | .vec => t.vec = s.vec | .tiers => t.tiers = s.tiers
  | .banks => t.banks = s.banks | .ports => t.ports = s.ports | .nmd => t.nmd = s.nmd | .plate => t.plate = s.plate
  | .tints => t.tints = s.tints | .slots => t.slots = s.slots | .ses => t.ses = s.ses | .ins => t.ins = s.ins | .upd => t.upd = s.upd
  | .sets => t.sets = s.sets | .items => t.items = s.items | .observed => t.observed = s.observed | .ucl => t.ucl = s.ucl
  | .host => t.host = s.host | .uclResp => t.uclResp = s.uclResp | .prt => t.prt = s.prt | .mbx => t.mbx = s.mbx | .reel => t.reel = s.reel
  | .sec => t.sec = s.sec | .saf => t.saf = s.saf | .clog => t.clog = s.clog | .pwr => t.pwr = s.pwr | .boot => t.boot = s.boot
  | .pins => t.pins = s.pins | .pending => t.pending = s.pending | .free => t.free = s.free

/-- Of the state's fields none but those listed differ. -/
def State.writes (fs : List Fld) (s t : State) : Prop := ∀ f, f ∉ fs → f.same s t

theorem State.writes_refl (fs : List Fld) (s : State) : State.writes fs s s := fun f _ => by cases f <;> rfl

theorem State.writes_trans {fs : List Fld} {s t u : State} (h : State.writes fs s t) (k : State.writes fs t u) : State.writes fs s u :=
  fun f hf => by
    have a := h f hf
    have b := k f hf
    cases f <;> exact Eq.trans b a

/-- A longer list says less. -/
theorem State.writes_mono {fs gs : List Fld} {s t : State} (h : State.writes fs s t) (hs : ∀ f ∈ fs, f ∈ gs) : State.writes gs s t :=
  fun f hf => h f fun m => hf (hs f m)

/-- One operation after another. -/
theorem State.writes_seq {fs gs hs : List Fld} {s t u : State} (h : State.writes fs s t) (k : State.writes gs t u) (hf : ∀ f ∈ fs, f ∈ hs)
    (hg : ∀ f ∈ gs, f ∈ hs) : State.writes hs s u := State.writes_trans (State.writes_mono h hf) (State.writes_mono k hg)

/-- A loop whose passes each write listed fields. -/
theorem State.writes_foldl {α : Type} {fs : List Fld} (f : State → α → State) (h : ∀ s a, State.writes fs s (f s a)) (xs : List α) :
    ∀ s : State, State.writes fs s (xs.foldl f s) := by
  induction xs with
  | nil => exact State.writes_refl fs
  | cons a r ih => exact fun s => State.writes_trans (h s a) (ih _)

theorem State.writes_each {α : Type} {fs : List Fld} (f : State → α → State) (h : ∀ s a, State.writes fs s (f s a)) (xs : List α) (s : State) :
    State.writes fs s (s.each xs f) := State.writes_foldl f h xs s

/-- A choice of which both branches write listed fields. -/
theorem State.writes_ite {fs : List Fld} {s a b : State} {p : Prop} [Decidable p] (ha : State.writes fs s a) (hb : State.writes fs s b) :
    State.writes fs s (if p then a else b) := by split <;> assumption

/-! ### Updates of one field -/

theorem State.setReg_writes (s : State) (k : Nat) (v : Word) : State.writes [.regs] s (s.setReg k v) :=
  fun f hf => by cases f <;> first | rfl | exact absurd (by decide) hf

theorem State.raise_writes (s : State) (k i : Nat) : State.writes [.regs] s (s.raise k i) :=
  fun f hf => by cases f <;> first | rfl | exact absurd (by decide) hf

theorem State.setFld_writes (s : State) (k lo len v : Nat) : State.writes [.regs] s (s.setFld k lo len v) :=
  fun f hf => by cases f <;> first | rfl | exact absurd (by decide) hf

theorem State.setBank_writes (s : State) (n : Nat) (x : Bank) : State.writes [.banks] s (s.setBank n x) :=
  fun f hf => by cases f <;> first | rfl | exact absurd (by decide) hf

theorem State.setTint_writes (s : State) (n : Nat) (x : Tint) : State.writes [.tints] s (s.setTint n x) :=
  fun f hf => by cases f <;> first | rfl | exact absurd (by decide) hf

theorem State.setSlot_writes (s : State) (n : Nat) (x : HotSlot) : State.writes [.slots] s (s.setSlot n x) :=
  fun f hf => by cases f <;> first | rfl | exact absurd (by decide) hf

theorem State.setSes_writes (s : State) (n : Nat) (x : Ses) : State.writes [.ses] s (s.setSes n x) :=
  fun f hf => by cases f <;> first | rfl | exact absurd (by decide) hf

theorem State.setCtx_writes (s : State) (n : Nat) (x : PlayCtx) : State.writes [.player] s (s.setCtx n x) :=
  fun f hf => by cases f <;> first | rfl | exact absurd (by decide) hf

theorem State.setPart_writes (s : State) (n : Nat) (x : Partition) : State.writes [.prt] s (s.setPart n x) :=
  fun f hf => by cases f <;> first | rfl | exact absurd (by decide) hf

theorem State.setPort_writes (s : State) (n : Nat) (x : Port) : State.writes [.reel] s (s.setPort n x) :=
  fun f hf => by cases f <;> first | rfl | exact absurd (by decide) hf

theorem State.setNmd_writes (s : State) (n : Nat) (x : Nmd) : State.writes [.nmd] s (s.setNmd n x) :=
  fun f hf => by cases f <;> first | rfl | exact absurd (by decide) hf

theorem State.setUpd_writes (s : State) (n : Nat) (x : UpdEngine) : State.writes [.upd] s (s.setUpd n x) :=
  fun f hf => by cases f <;> first | rfl | exact absurd (by decide) hf

theorem State.setUnit_writes (s : State) (n : Nat) (x : VUnit) : State.writes [.vec] s (s.setUnit n x) :=
  fun f hf => by cases f <;> first | rfl | exact absurd (by decide) hf

theorem State.setTile_writes (s : State) (n : Nat) (x : AccTile) : State.writes [.grid] s (s.setTile n x) :=
  fun f hf => by cases f <;> first | rfl | exact absurd (by decide) hf

theorem State.setChan_writes (s : State) (n : Nat) (x : Channel) : State.writes [.mbx] s (s.setChan n x) :=
  fun f hf => by cases f <;> first | rfl | exact absurd (by decide) hf

theorem State.modItem_writes (s : State) (k : ItemKey) (g : Item → Item) : State.writes [.items] s (s.modItem k g) :=
  fun f hf => by cases f <;> first | rfl | exact absurd (by decide) hf

theorem State.finish_writes (s : State) (k : ItemKey) (st : Nat) : State.writes [.items] s (s.finish k st) :=
  fun f hf => by cases f <;> first | rfl | exact absurd (by decide) hf

theorem State.writeF_writes (s : State) (a : Nat) (bs : Blob) : State.writes [.tiers] s (s.writeF a bs) :=
  fun f hf => by cases f <;> first | rfl | exact absurd (by decide) hf

theorem State.freeObjs_writes (s : State) (g : Nat → Obj → Bool) : State.writes [.tiers] s (s.freeObjs g) :=
  fun f hf => by cases f <;> first | rfl | exact absurd (by decide) hf

theorem State.freeKv_writes (s : State) (c : Nat) : State.writes [.tiers] s (s.freeKv c) :=
  fun f hf => by cases f <;> first | rfl | exact absurd (by decide) hf

theorem State.stopTint_writes (s : State) (n : Nat) : State.writes [.tiers] s (s.stopTint n) :=
  fun f hf => by cases f <;> first | rfl | exact absurd (by decide) hf

theorem State.setCause_writes (s : State) (c k u : Nat) : State.writes [.saf] s (s.setCause c k u) :=
  fun f hf => by cases f <;> first | rfl | exact absurd (by decide) hf

theorem State.decideSafe_writes (s : State)  : State.writes [.items] s (s.decideSafe) :=
  fun f hf => by cases f <;> first | rfl | exact absurd (by decide) hf

theorem State.modNmd_writes (s : State) (n : Nat) (g : Nmd → Nmd) : State.writes [.nmd] s (s.modNmd n g) :=
  fun f hf => by cases f <;> first | rfl | exact absurd (by decide) hf

theorem State.modPort_writes (s : State) (n : Nat) (g : Port → Port) : State.writes [.reel] s (s.modPort n g) :=
  fun f hf => by cases f <;> first | rfl | exact absurd (by decide) hf

theorem State.endDist_writes (s : State) (n : Nat) : State.writes [.reel] s (s.endDist n) :=
  fun f hf => by cases f <;> first | rfl | exact absurd (by decide) hf

theorem State.endBulk_writes (s : State) (n code : Nat) : State.writes [.regs, .reel] s (s.endBulk n code) :=
  fun f hf => by cases f <;> first | rfl | exact absurd (by decide) hf

theorem State.countWaits_writes (s : State) (n r m : Nat) : State.writes [.banks] s (s.countWaits n r m) :=
  fun f hf => by cases f <;> first | rfl | exact absurd (by decide) hf

theorem State.writeAt_writes (s : State) (q : Place) (bs : Blob) : State.writes [.tiers] s (s.writeAt q bs) := by
  cases q
  · exact State.writeF_writes s _ bs
  · exact State.writeF_writes s _ bs
  · exact State.writes_refl _ s

/-! ### The log, events and fences -/

theorem State.stage_writes (s : State) (r : LogRec) : State.writes [.clog, .regs] s (s.stage r) := by
  rw [State.stage_eq]
  exact fun f hf => by cases f <;> first | rfl | exact absurd (by decide) hf

theorem State.logUnit_writes (s : State) (code owner kind unit : Nat) (args : List Nat) : State.writes [.clog, .regs] s (s.logUnit code owner kind unit args) := State.stage_writes s _

theorem State.event_writes (s : State) (set kind arg8 tint layer gen arg32 : Nat) : State.writes [.sets, .regs] s (s.event set kind arg8 tint layer gen arg32) := by
  rw [State.event_eq]
  exact fun f hf => by cases f <;> first | rfl | exact absurd (by decide) hf

theorem State.countFence_writes (s : State) (kind unit owner : Nat) (req : Bool) : State.writes [.saf, .sets, .regs, .clog] s (s.countFence kind unit owner req) := by
  have h0 : State.writes [.saf, .sets, .regs, .clog] s ({ s with saf := { s.saf with fenceCnt := s.saf.fenceCnt.modify kind fun c => satAdd 32 c 1 } }.raise
      Reg.safStatus 3) := fun f hf => by cases f <;> first | rfl | exact absurd (by decide) hf
  have h1 := State.writes_seq h0 (State.event_writes _ 32 9 kind 0 0 0 unit) (by decide) (by decide) (hs := [.saf, .sets, .regs, .clog])
  have h2 : ∀ t, State.writes [.saf, .sets, .regs, .clog] s t →
      State.writes [.saf, .sets, .regs, .clog] s (if owner < 32 then t.event owner 9 kind 0 0 0 unit else t) := fun t h => by
    split
    · exact State.writes_seq h (State.event_writes t owner 9 kind 0 0 0 unit) (by decide) (by decide)
    · exact h
  unfold State.countFence
  dsimp only
  split
  · exact State.writes_seq (h2 _ h1) (State.logUnit_writes _ _ _ _ _ _) (by decide) (by decide)
  · exact h2 _ h1

/-! ### Many items or contexts at once -/

theorem State.finishAll_writes (s : State) (ks : List ItemKey) (st : Nat) : State.writes [.items] s (s.finishAll ks st) := State.writes_each _ (fun s k => State.finish_writes s k st) ks s

theorem State.endItems_writes (s : State) (ks : List ItemKey) (st : Nat) : State.writes [.items, .ses] s (s.endItems ks st) := by
  refine State.writes_each _ (fun s k => ?_) ks s
  split
  · split
    · exact State.writes_seq (State.setSes_writes s _ _) (State.finish_writes _ k st) (by decide) (by decide)
    · exact State.writes_mono (State.finish_writes s k st) (by decide)
  · exact State.writes_refl _ s

theorem State.endSession_writes (s : State) (c st : Nat) : State.writes [.items, .ses, .tiers] s (s.endSession c st) := State.writes_seq (gs := [.tiers, .ses])
  (State.endItems_writes s _ st) (State.writes_seq (State.freeKv_writes _ c) (State.setSes_writes _ c _) (by decide) (by decide)) (by decide) (by decide)

theorem State.abandonCmds_writes (s : State) (n : Nat) : State.writes [.upd, .tiers] s (s.abandonCmds n) := by
  refine State.writes_each _ (fun s k => ?_) _ s
  have h : ∀ q : List UpdCmd, State.writes [.upd, .tiers] s (q.foldl (fun (s : State) c => s.updStatus c 2) s) := fun q =>
    State.writes_foldl _ (fun s c => State.writes_mono (State.writeAt_writes s _ _) (by decide)) q s
  exact State.writes_trans (h _) (State.writes_ite (State.writes_mono (State.setUpd_writes _ _ _) (by decide))
    (State.writes_mono (State.setUpd_writes _ _ _) (by decide)))

/-! ### Errors of stored words -/

theorem State.bankError_writes (s : State) (n w : Nat) (e : EccResult) : State.writes [.banks, .regs] s (s.bankError n w e) := by
  cases e
  · exact State.writes_refl _ s
  · intro f hf; unfold State.bankError; dsimp only; split <;> cases f <;> first | rfl | exact absurd (by decide) hf
  · intro f hf; unfold State.bankError; dsimp only; cases f <;> first | rfl | exact absurd (by decide) hf

theorem State.readWord_writes (s : State) (w : Nat) (e : EccResult) : State.writes [.banks, .regs, .tiers] s (s.readWord w e) := by
  refine State.writes_seq (fs := [.banks, .regs]) (gs := [.tiers]) (State.bankError_writes s (w / 524288) (w % 524288) e) ?_ (by decide) (by decide)
  unfold State.readWord
  dsimp only
  split
  · exact fun f hf => by cases f <;> first | rfl | exact absurd (by decide) hf
  · exact State.writes_refl _ _

theorem State.eccRead_writes (s : State) (runs : List (Nat × Nat)) : State.writes [.banks, .regs, .tiers] s (s.eccRead runs).1 :=
  State.writes_foldl (fun (s : State) (e : Nat × EccResult) => s.readWord e.1 e.2) (fun s e => State.readWord_writes s e.1 e.2) (s.badWords runs) s

/-! ### Links -/

theorem State.sendFlits_writes (s : State) (n : Nat) (bs : List Blob) : State.writes [.reel] s (s.sendFlits n bs) := by
  unfold State.sendFlits
  exact State.writes_ite (State.setPort_writes s _ _) (State.writes_refl _ s)

theorem State.voidStarted_writes (s : State) (o : Nat) : State.writes [.player, .reel] s (s.voidStarted o) := by
  unfold State.voidStarted
  split
  · exact State.writes_refl _ s
  · refine State.writes_each _ (fun s i => ?_) _ s
    split
    · exact State.writes_refl _ s
    · dsimp only
      split
      · rename_i x _ _ c _ _
        exact State.writes_trans (State.writes_mono (State.sendFlits_writes s (x.shot c).portOut [s.voidFlit (x.shot c).stream 1]) (by decide))
          fun f hf => by cases f <;> first | rfl | exact absurd (by decide) hf
      · exact State.writes_refl _ s

/-! ### The safe state -/

theorem State.haltEngines_writes (s : State)  : State.writes [.player, .reel, .grid, .vec, .tiers, .upd, .ins, .items, .pwr] s (s.haltEngines) := by
  have h1 : State.writes [.player, .reel, .grid] s ((s.each (List.range 33) fun s o => s.voidStarted o).each (List.range 4) fun s t => s.setTile t AccTile.init) :=
    State.writes_seq (State.writes_each _ (fun s o => State.voidStarted_writes s o) _ s) (State.writes_each _ (fun s t => State.setTile_writes s t _) _ _)
      (by decide) (by decide)
  unfold State.haltEngines
  dsimp only
  generalize (s.each (List.range 33) fun s o => s.voidStarted o).each (List.range 4) (fun s t => s.setTile t AccTile.init) = u at h1 ⊢
  refine State.writes_seq h1 (gs := [.reel, .grid, .vec, .tiers, .upd, .ins, .items, .pwr]) ?_ (by decide) (by decide)
  exact fun f hf => by cases f <;> first | rfl | exact absurd (by decide) hf

theorem State.enterSafe_writes (s : State) (c k u : Nat) : State.writes [.saf, .clog, .regs, .player, .reel, .grid, .vec, .tiers, .upd, .ins, .items, .pwr] s (s.enterSafe c k u) := by
  unfold State.enterSafe
  have h := State.stage_writes s (s.mkRec 0x0901 0xFF k (if k = 0xFF then 0 else u) [c] 1)
  dsimp only
  generalize s.stage (s.mkRec 0x0901 0xFF k (if k = 0xFF then 0 else u) [c] 1) = t at h ⊢
  refine State.writes_seq h (gs := [.saf, .player, .reel, .grid, .vec, .tiers, .upd, .ins, .items, .pwr]) ?_ (by decide) (by decide)
  split
  · exact State.writes_ite (State.writes_mono (State.setCause_writes _ _ _ _) (by decide)) (State.writes_refl _ _)
  · refine State.writes_seq (fs := [.saf]) (t := { t.setCause c k u with saf := { (t.setCause c k u).saf with safe := true, hbA := false, hbB := false } })
      ?_ (State.haltEngines_writes _) (by decide) (by decide)
    exact fun f hf => by cases f <;> first | rfl | exact absurd (by decide) hf

theorem State.detect_writes (s : State) (c : Nat) (d : Bool) (k u : Nat) : State.writes [.saf, .clog, .regs, .player, .reel, .grid, .vec, .tiers, .upd, .ins, .items, .pwr] s (s.detect c d k u) := State.writes_ite (State.enterSafe_writes s c k u) (State.writes_refl _ s)

theorem State.cutProgram_writes (s : State) (st : Nat) : State.writes [.ins, .items] s (s.cutProgram st) := by
  unfold State.cutProgram
  split
  · exact State.writes_refl _ s
  · exact fun f hf => by cases f <;> first | rfl | exact absurd (by decide) hf

theorem State.faultProgram_writes (s : State) (o : Nat) : State.writes [.saf, .clog, .regs, .player, .reel, .grid, .vec, .tiers, .upd, .ins, .items, .pwr] s (s.faultProgram o) := State.writes_seq
  (State.writes_seq (hs := [.clog, .regs, .ins, .items]) (State.logUnit_writes s _ _ _ _ _) (State.cutProgram_writes _ _) (by decide) (by decide))
  (State.detect_writes _ _ _ _ _) (by decide) (by decide)

/-! ### Draws, drains and programs of a sheet -/

theorem State.drawLane_writes (s : State) (o l n : Nat) : State.writes [.lanes] s (s.drawLane o l n |>.2) := fun f hf => by cases f <;> first | rfl | exact absurd (by decide) hf

theorem State.skipDraws_writes (s : State) (o l n m : Nat) : State.writes [.lanes] s (s.skipDraws o l n m) := State.writes_foldl (fun (s : State) (_ : Nat) => (s.drawLane o l n).2) (fun s _ => State.drawLane_writes s o l n) _ s

theorem State.cutDraws_writes (s : State) (d : Drain) (n : Nat) : State.writes [.lanes] s (s.cutDraws d n) := by
  unfold State.cutDraws
  dsimp only
  split
  · exact State.writes_refl _ s
  · exact State.writes_each _ (fun s _ => State.writes_each _ (fun s _ => State.skipDraws_writes s _ _ _ _) _ s) _ s

theorem State.dropDrains_writes (s : State) (o : Nat) (ts : List Nat) : State.writes [.grid, .lanes] s (s.dropDrains o ts) := by
  unfold State.dropDrains
  dsimp only
  generalize (s.grid.drains.filter fun (d : Drain) => ts.contains d.tile && d.seg = o && d.startTb = (s.ctx o).startTb && !d.lane) = g
  have h : State.writes [.grid] s { s with grid := { s.grid with drains := s.grid.drains.filter fun d => !g.contains d } } :=
    fun f hf => by cases f <;> first | rfl | exact absurd (by decide) hf
  exact State.writes_seq h (State.writes_each _ (fun s d => State.cutDraws_writes s d _) g _) (by decide) (by decide)

theorem State.stopPrograms_writes (s : State) (o : Nat) : State.writes [.vec, .tiers] s (s.stopPrograms o) := by
  refine State.writes_each _ (fun s u => ?_) _ s
  dsimp only
  split
  · split
    · refine State.writes_seq (fs := [.vec]) (gs := [.tiers]) (State.setUnit_writes s u _) (State.writes_foldl _ (fun s e => ?_) _ _) (by decide) (by decide)
      split
      · exact State.writeF_writes s _ _
      · exact State.writes_refl _ s
    · exact State.writes_refl _ s
  · exact State.writes_refl _ s

theorem State.fencePartition_writes (s : State) (n : Nat) : State.writes [.saf] s (s.fencePartition n) := by
  unfold State.fencePartition
  exact State.writes_ite (State.writes_refl _ s) fun f hf => by cases f <;> first | rfl | exact absurd (by decide) hf

theorem State.cutSheet_writes (s : State) (o : Nat) : State.writes [.player, .reel, .grid, .lanes, .vec, .tiers] s (s.cutSheet o) := by
  have h := State.voidStarted_writes s o
  unfold State.cutSheet
  dsimp only
  generalize s.voidStarted o = t at h ⊢
  exact State.writes_seq (State.writes_seq (State.writes_seq (State.writes_seq h (State.setCtx_writes t o _) (hs := [.player, .reel]) (by decide) (by decide))
    (State.writes_each _ (fun s n => State.setTile_writes s n _) _ _) (hs := [.player, .reel, .grid]) (by decide) (by decide))
    (State.dropDrains_writes _ o _) (hs := [.player, .reel, .grid, .lanes]) (by decide) (by decide)) (State.stopPrograms_writes _ o) (by decide) (by decide)

theorem State.greySheet_writes (s : State) (o k why : Nat) : State.writes [.player] s (s.greySheet o k why) :=
  fun f hf => by cases f <;> first | rfl | exact absurd (by decide) hf

theorem State.noteSheetFence_writes (s : State) (o k why : Nat) : State.writes [.saf, .sets, .regs, .clog] s (s.noteSheetFence o k why) := State.writes_seq
  (State.writes_seq (State.raise_writes s _ _) (State.logUnit_writes _ _ _ _ _ _) (hs := [.regs, .clog]) (by decide) (by decide))
  (State.countFence_writes _ _ _ _ _) (by decide) (by decide)

theorem State.dropRetakes_writes (s : State) (o : Nat) : State.writes [.player] s (s.dropRetakes o) := by
  unfold State.dropRetakes
  exact State.writes_ite (fun f hf => by cases f <;> first | rfl | exact absurd (by decide) hf) (State.writes_refl _ s)

theorem State.fenceSheet_writes (s : State) (o why : Nat) : State.writes [.saf, .clog, .regs, .player, .reel, .grid, .vec, .tiers, .upd, .ins, .items, .pwr, .lanes, .sets] s (s.fenceSheet o why) := by
  have h := State.writes_seq (State.writes_seq (State.writes_seq (State.cutSheet_writes s o) (State.greySheet_writes _ o ((s.ctx o).slot.getD 0) why)
    (hs := [.player, .reel, .grid, .lanes, .vec, .tiers]) (by decide) (by decide)) (State.noteSheetFence_writes _ o ((s.ctx o).slot.getD 0) why)
    (hs := [.player, .reel, .grid, .lanes, .vec, .tiers, .saf, .sets, .regs, .clog]) (by decide) (by decide)) (State.dropRetakes_writes _ o)
    (hs := [.player, .reel, .grid, .lanes, .vec, .tiers, .saf, .sets, .regs, .clog]) (by decide) (by decide)
  unfold State.fenceSheet
  dsimp only
  split
  · exact State.writes_refl _ s
  · generalize ((((s.cutSheet o).greySheet o ((s.ctx o).slot.getD 0) why).noteSheetFence o ((s.ctx o).slot.getD 0) why).dropRetakes o) = t at h ⊢
    have h5 := State.writes_mono (gs := [.saf, .clog, .regs, .player, .reel, .grid, .vec, .tiers, .upd, .ins, .items, .pwr, .lanes, .sets]) h (by decide)
    refine State.writes_trans h5 ?_
    have h6 : ∀ d, State.writes [.saf, .clog, .regs, .player, .reel, .grid, .vec, .tiers, .upd, .ins, .items, .pwr, .lanes, .sets] t
        (t.detect 0x0D d 9 (o * 64 + (s.ctx o).slot.getD 0)) := fun d => State.writes_mono (State.detect_writes t _ _ _ _) (by decide)
    have h7 := State.writes_trans (h6 false) (State.writes_mono (State.fencePartition_writes _ o) (by decide))
    split <;> exact State.writes_ite h7 (h6 _)

theorem State.collide_writes (s : State) (o : Nat) (hits : List Nat) : State.writes [.saf, .clog, .regs, .player, .reel, .grid, .vec, .tiers, .upd, .ins, .items, .pwr, .lanes, .sets] s (s.collide o hits) := State.writes_seq
  (State.writes_seq (State.writes_each _ (fun s _ => State.logUnit_writes s _ _ _ _ _) hits s) (State.fenceSheet_writes _ o 5)
    (hs := [.saf, .clog, .regs, .player, .reel, .grid, .vec, .tiers, .upd, .ins, .items, .pwr, .lanes, .sets]) (by decide) (by decide))
  (State.raise_writes _ _ _) (by decide) (by decide)

theorem State.missLatency_writes (s : State) (r o : Nat) : State.writes [.saf, .clog, .regs, .player, .reel, .grid, .vec, .tiers, .upd, .ins, .items, .pwr, .lanes, .sets] s (s.missLatency r o) := by
  unfold State.missLatency
  split
  · exact State.writes_seq (State.raise_writes s _ _) (State.fenceSheet_writes _ o 4) (by decide) (by decide)
  · split
    · exact State.fenceSheet_writes s o 4
    · split
      · exact State.writes_mono (State.faultProgram_writes s o) (by decide)
      · exact State.writes_refl _ s

/-! ### Ports of the banks -/

theorem State.meet_writes (s : State) (n : Nat) (u x : BankUse) : State.writes [.saf, .clog, .regs, .player, .reel, .grid, .vec, .tiers, .upd, .ins, .items, .pwr, .lanes, .sets, .banks, .free] s (s.meet n u x) := by
  have h : ∀ r m, State.writes [.banks, .free] s ({ s with free := s.free + 1 }.countWaits n r m).drawBool.2 := fun r m f hf => by
    cases f <;> first | rfl | exact absurd (by decide) hf
  unfold State.meet
  exact State.writes_trans (State.writes_mono (h _ _) (by decide))
    (State.writes_ite (State.writes_mono (State.missLatency_writes _ _ _) (by decide)) (State.writes_refl _ _))

theorem State.usePort_writes (s : State) (x : BankUse) : State.writes [.saf, .clog, .regs, .player, .reel, .grid, .vec, .tiers, .upd, .ins, .items, .pwr, .lanes, .sets, .banks, .free, .ports] s (s.usePort x) := by
  unfold State.usePort
  refine State.writes_ite (State.writes_refl _ s) ?_
  have h : State.writes [.saf, .clog, .regs, .player, .reel, .grid, .vec, .tiers, .upd, .ins, .items, .pwr, .lanes, .sets, .banks, .free] s
      (s.each (s.rivals x) fun s u => s.each ((runBanks u.runs).filter (runBanks x.runs).contains) fun s b => s.meet b u x) :=
    State.writes_each _ (fun s u => State.writes_each _ (fun s b => State.meet_writes s b u x) _ s) _ s
  dsimp only
  generalize (s.each (s.rivals x) fun s u => s.each ((runBanks u.runs).filter (runBanks x.runs).contains) fun s b => s.meet b u x) = t at h ⊢
  exact State.writes_seq (gs := [.ports]) h (fun f hf => by cases f <;> first | rfl | exact absurd (by decide) hf) (by decide) (by decide)

/-! ### Banks, plates and ports of the links -/

theorem State.handBank_writes (s : State) (n o : Nat) (r : BankReq) (sh : Bool) : State.writes [.banks] s (s.handBank n o r sh) := by
  unfold State.handBank
  exact State.writes_ite (State.writes_refl _ s) (State.setBank_writes s n _)

theorem State.releasePlateBanks_writes (s : State)  : State.writes [.banks, .tiers] s (s.releasePlateBanks) := by
  unfold State.releasePlateBanks
  dsimp only
  exact State.writes_seq (fs := [.banks]) (gs := [.tiers]) (State.writes_each _ (fun s n => State.handBank_writes s n 63 .off false) _ s)
    (fun f hf => by cases f <;> first | rfl | exact absurd (by decide) hf) (by decide) (by decide)

theorem State.receiverReset_writes (s : State) (m : Nat) : State.writes [.mbx] s (s.receiverReset m) := State.writes_each _
  (fun s c => State.writes_ite (State.setChan_writes s c _) (State.writes_refl _ s)) _ s

theorem State.respond_writes (s : State) (q : MctpPath) (ty : Nat) (msg : Blob) : State.writes [.sec] s (s.respond q ty msg) := by
  cases q
  · unfold State.respond State.fillRx
    dsimp only
    split <;> exact fun f hf => by cases f <;> first | rfl | exact absurd (by decide) hf
  · exact fun f hf => by cases f <;> first | rfl | exact absurd (by decide) hf

/-! ### Stacks and the order of their transfers -/

theorem State.retimePasses_writes (s : State)  : State.writes [.upd] s (s.retimePasses) := by
  refine State.writes_each _ (fun s n => ?_) _ s
  dsimp only
  split
  · split
    · exact State.writes_ite (State.setUpd_writes s _ _) (State.writes_refl _ s)
    · exact State.writes_refl _ s
  · exact State.writes_refl _ s

theorem State.replanOne_writes (a : State × List Nat) (w : Nat × Bool × Nat) : State.writes [.tiers] a.1 (State.replanOne a w).1 := by
  unfold State.replanOne
  dsimp only
  split
  · exact fun f hf => by cases f <;> first | rfl | exact absurd (by decide) hf
  · split
    · exact State.writes_refl _ a.1
    · exact fun f hf => by cases f <;> first | rfl | exact absurd (by decide) hf

theorem State.replan_writes (s : State)  : State.writes [.tiers, .upd] s (s.replan) := by
  have h : ∀ (ws : List (Nat × Bool × Nat)) (a : State × List Nat), State.writes [.tiers] a.1 (ws.foldl State.replanOne a).1 := by
    intro ws
    induction ws with
    | nil => exact fun a => State.writes_refl _ a.1
    | cons w r ih => exact fun a => State.writes_trans (State.replanOne_writes a w) (ih _)
  have h1 := h s.waiters (s, (List.range 12).map s.busyTo)
  unfold State.replan
  generalize s.waiters.foldl State.replanOne (s, (List.range 12).map s.busyTo) = a at h1 ⊢
  obtain ⟨t, free⟩ := a
  dsimp only at h1 ⊢
  exact State.writes_seq (State.writes_seq (gs := [.tiers]) (hs := [.tiers]) h1 (fun f hf => by cases f <;> first | rfl | exact absurd (by decide) hf)
    (by decide) (by decide)) (State.retimePasses_writes _) (by decide) (by decide)

theorem State.restartFetches_writes (s : State)  : State.writes [.tiers, .upd] s (s.restartFetches) := by
  unfold State.restartFetches
  split
  · exact State.writes_refl _ s
  · exact State.writes_seq (fs := [.tiers]) (fun f hf => by cases f <;> first | rfl | exact absurd (by decide) hf) (State.replan_writes _) (by decide) (by decide)

theorem State.fenceNmd_writes (s : State) (n cause : Nat) : State.writes [.saf, .clog, .regs, .player, .reel, .grid, .vec, .tiers, .upd, .ins, .items, .pwr, .sets, .nmd] s (s.fenceNmd n cause) := by
  unfold State.fenceNmd
  refine State.writes_ite (State.writes_refl _ s) ?_
  dsimp only
  have h0 : ∀ r : Tiers, State.writes [.nmd, .regs, .tiers] s { ((s.modNmd n fun (x : Nmd) =>
      { x with state := .grey, retrainWait := none, rewrites := [] }).raise Reg.nmdStatus 5).raise Reg.tierStatus 1 with tiers := r } :=
    fun r f hf => by cases f <;> first | rfl | exact absurd (by decide) hf
  have h1 := fun r => State.writes_seq (State.writes_seq (h0 r) (State.logUnit_writes _ 0x0503 0xFF 3 n [cause]) (hs := [.nmd, .regs, .tiers, .clog])
    (by decide) (by decide)) (State.countFence_writes _ 3 n 0xFF (cause = 3)) (hs := [.nmd, .regs, .tiers, .clog, .saf, .sets]) (by decide) (by decide)
  have h2 := fun r => State.writes_mono (gs := [.saf, .clog, .regs, .player, .reel, .grid, .vec, .tiers, .upd, .ins, .items, .pwr, .sets, .nmd]) (h1 r) (by decide)
  exact State.writes_trans (h2 _) (State.writes_ite (State.writes_mono (State.detect_writes _ _ _ _ _) (by decide))
    (State.writes_seq (State.detect_writes _ _ _ _ _) (State.restartFetches_writes _) (by decide) (by decide)))

/-! ### The end of a plate load, and of what a link port carries -/

theorem State.endPlateLoad_writes (s : State) (detail : Nat) : State.writes [.regs, .tiers, .banks, .reel, .plate] s (s.endPlateLoad detail) := by
  unfold State.endPlateLoad
  dsimp only
  have h1 : State.writes [.banks, .tiers] s (if (decide (detail = 0) || s.plate.load.isNone) = true then s else s.releasePlateBanks) :=
    State.writes_ite (State.writes_refl _ s) (State.releasePlateBanks_writes s)
  generalize (if (decide (detail = 0) || s.plate.load.isNone) = true then s else s.releasePlateBanks) = t at h1 ⊢
  refine State.writes_seq (gs := [.regs, .reel, .plate]) h1 ?_ (by decide) (by decide)
  have h2 : ∀ (o : Option Nat) (fs : Nat → List Blob), State.writes [.reel] t (match o with
      | some n => (t.sendFlits n (fs n)).endDist n
      | none => t) := fun o fs => by
    cases o
    · exact State.writes_refl _ t
    · exact State.writes_seq (State.sendFlits_writes t _ _) (State.endDist_writes _ _) (by decide) (by decide)
  exact State.writes_seq (gs := [.regs, .plate]) (h2 _ fun _ => _) (fun f hf => by cases f <;> first | rfl | exact absurd (by decide) hf)
    (by decide) (by decide)

theorem State.dropUse_writes (s : State) (n : Nat) : State.writes [.regs, .tiers, .banks, .reel, .plate] s (s.dropUse n) := by
  unfold State.dropUse
  dsimp only
  have h1 : State.writes [.regs, .tiers, .banks, .reel, .plate] s (match (s.port n).dist with
      | some d => if d.receiver = true then s.endPlateLoad 9 else s.endDist n
      | none => s) := by
    split
    · exact State.writes_ite (State.endPlateLoad_writes s 9) (State.writes_mono (State.endDist_writes s n) (by decide))
    · exact State.writes_refl _ s
  exact State.writes_trans h1 (State.writes_ite (State.writes_mono (State.endBulk_writes _ n _) (by decide)) (State.writes_refl _ _))

theorem State.fenceReelPort_writes (s : State) (n cause : Nat) : State.writes [.saf, .sets, .clog, .regs, .tiers, .banks, .reel, .plate] s (s.fenceReelPort n cause) := by
  unfold State.fenceReelPort
  exact State.writes_seq (State.writes_seq (State.writes_seq (State.writes_seq (State.dropUse_writes s n) (State.modPort_writes _ n _)
    (hs := [.regs, .tiers, .banks, .reel, .plate]) (by decide) (by decide)) (State.raise_writes _ _ _)
    (hs := [.regs, .tiers, .banks, .reel, .plate]) (by decide) (by decide)) (State.logUnit_writes _ _ _ _ _ _)
    (hs := [.clog, .regs, .tiers, .banks, .reel, .plate]) (by decide) (by decide)) (State.countFence_writes _ _ _ _ _) (by decide) (by decide)

/-! ### Fade steps -/

theorem State.setStep_writes (s : State) (k : Nat) : State.writes [.pwr, .player, .ins] s (s.setStep k) := by
  have h1 : State.writes [.pwr] s ((s.countStep).moveRuns k) := fun f hf => by cases f <;> first | rfl | exact absurd (by decide) hf
  have h2 := State.writes_each State.rebase (fs := [.player]) (fun s o => by
    unfold State.rebase
    exact State.writes_ite (State.setCtx_writes s o _) (State.writes_refl _ s)) (List.range 34) ((s.countStep).moveRuns k)
  have h3 : ∀ u : State, State.writes [.ins] u u.rebaseLane := fun u f hf => by cases f <;> first | rfl | exact absurd (by decide) hf
  have h4 := State.writes_seq (State.writes_seq h1 h2 (hs := [.pwr, .player]) (by decide) (by decide)) (h3 _) (hs := [.pwr, .player, .ins]) (by decide) (by decide)
  unfold State.setStep
  dsimp only
  generalize (((s.countStep).moveRuns k).each (List.range 34) State.rebase).rebaseLane = u at h4 ⊢
  exact State.writes_seq (gs := [.pwr]) h4 (fun f hf => by cases f <;> first | rfl | exact absurd (by decide) hf) (by decide) (by decide)

theorem State.engage_writes (s : State) (k : Nat) : State.writes [.pwr, .player, .ins, .regs] s (s.engage k) := by
  have h := State.setStep_writes s k
  unfold State.engage
  generalize s.setStep k = t at h ⊢
  exact State.writes_seq (gs := [.regs, .pwr]) h (fun f hf => by cases f <;> first | rfl | exact absurd (by decide) hf) (by decide) (by decide)

/-! ### Tints -/

theorem State.dropQueued_writes (s : State) (n st : Nat) : State.writes [.items, .tints] s (s.dropQueued n st) := by
  unfold State.dropQueued
  dsimp only
  split
  · exact State.writes_seq (State.finish_writes s _ st) (State.setTint_writes _ n _) (by decide) (by decide)
  · exact State.writes_mono (State.setTint_writes s n _) (by decide)

end Sys2Proof.Machine
end

