-- ==== Sys2Proof/Laws/Player.lean ====
section
/-! SUPPORT. What a cue that may start does: its shot acts on the state at its start. -/

namespace Sys2Proof.Machine

/-- A cue that may start at a segment cycle starts there: its shot acts on the state in which it counts as started. -/
theorem State.startCue_of_mayStart (s : State) (o i : Nat) (t : Track) (x : Sheet) (c : Cue) (kind : Shot → Bool)
    (act : State → Sheet → Cue → State) (start : Nat) (h : s.mayStart o t i x c kind start) :
    s.startCue o t i kind act = act (s.started o t i c start) x c := by
  obtain ⟨h1, h2, h3, h4, h5, h6, h7, h8, h0, h9⟩ := h
  unfold State.startCue
  simp only [h1, h2]
  rw [if_neg (by simp [h3, h4, h5, h6, h7])]
  have hadv : ∀ n, (s.advance n).clearStart = s.clearStart := by
    intro n; unfold State.advance; split <;> rfl
  have hcy : ∀ n, (s.advance n).cycleTb = s.cycleTb := by
    intro n; unfold State.advance; split <;> rfl
  have hctx : ∀ n, (s.advance n).ctx = s.ctx := by
    intro n; unfold State.advance; split <;> rfl
  have hhold : ∀ n, (s.advance n).holder = s.holder := by
    intro n; unfold State.advance; split <;> rfl
  rcases h9 with ⟨h9, h10⟩ | ⟨h9, h10, h11, h12, h13, h14⟩
  · simp [State.dueCycle, h9] at h0
    simp [h9, h0, h8, State.started, hctx, hcy]
    intro hh hb; have := h10 hh; omega
  · have : ¬ (((c.bay ≠ 63) && !c.retake && (s.ctx o).broken.contains c.bay) = true) := by
      rcases h12 with h | h | h <;> simp [h]
    simp [State.dueCycle, h9] at h0 h14
    simp only [h9, h10, h11, h8, State.started, State.dueCycle]
    rw [if_neg (by decide), if_neg (by decide), if_neg (by simpa using this)]
    simp only [hhold, h13, hadv, h0, hcy, h14]
    simp

end Sys2Proof.Machine
end

