-- ==== Sys2Proof/Laws/Regs.lean ====
section
/-! SUPPORT. What the register operations do to one field, one bit and every other register, said once. -/

namespace Sys2Proof.Machine

variable {n : Nat} (s t : State)

theorem testBit_fld (w : BitVec n) (lo len i : Nat) : (fld w lo len).testBit i = (decide (i < len) && w.getLsbD (lo + i)) := by
  unfold fld
  rw [← Nat.shiftRight_eq_div_pow, Nat.testBit_mod_two_pow, Nat.testBit_shiftRight]
  rfl

theorem bitOf_eq (w : BitVec n) (i : Nat) : bitOf w i = w.getLsbD i := rfl

theorem fld_toNat_eq (w : BitVec n) (lo len : Nat) : BitVec.ofNat len (fld w lo len) = w.extractLsb' lo len := by
  apply BitVec.eq_of_toNat_eq
  simp [fld, BitVec.extractLsb', Nat.shiftRight_eq_div_pow]

theorem getLsbD_putFld (w : Word) (lo len v i : Nat) (h : lo + len ≤ 32) :
    (putFld w lo len v).getLsbD i =
      if lo ≤ i ∧ i < lo + len then v.testBit (i - lo) else w.getLsbD i := by
  have hm : ∀ j, ((2 ^ len - 1) * 2 ^ lo).testBit j = (decide (lo ≤ j) && decide (j < lo + len)) := by
    intro j
    rw [Nat.mul_comm, Nat.testBit_two_pow_mul, Nat.testBit_two_pow_sub_one]
    by_cases hj : lo ≤ j
    · have : (j - lo < len) ↔ (j < lo + len) := by omega
      simp [hj, this]
    · simp [hj]
  have hv : ∀ j, (v % 2 ^ len * 2 ^ lo).testBit j = (decide (lo ≤ j) && (decide (j < lo + len) && v.testBit (j - lo))) := by
    intro j
    rw [Nat.mul_comm, Nat.testBit_two_pow_mul, Nat.testBit_mod_two_pow]
    by_cases hj : lo ≤ j
    · have : (j - lo < len) ↔ (j < lo + len) := by omega
      simp [hj, this]
    · simp [hj]
  unfold putFld
  simp only [BitVec.getLsbD_or, BitVec.getLsbD_and, BitVec.getLsbD_not, BitVec.getLsbD_ofNat, hm, hv]
  by_cases hi : i < 32
  · by_cases h1 : lo ≤ i
    · by_cases h2 : i < lo + len <;> simp [h1, h2, hi]
    · simp [h1, hi]
  · have h2 : ¬ i < lo + len := by omega
    have hb : w.getLsbD i = false := BitVec.getLsbD_of_ge w i (by omega)
    simp [hi, h2, hb]

/-- The written field reads as the value written, cut to its width. -/
theorem fld_putFld_same (w : Word) (lo len v : Nat) (h : lo + len ≤ 32) : fld (putFld w lo len v) lo len = v % 2 ^ len := by
  apply Nat.eq_of_testBit_eq
  intro i
  rw [testBit_fld, getLsbD_putFld _ _ _ _ _ h, Nat.testBit_mod_two_pow]
  by_cases hi : i < len
  · simp [hi]
  · simp [hi]

/-- A field that does not meet the written one reads as before. -/
theorem fld_putFld_other (w : Word) (lo len v lo' len' : Nat) (h : lo + len ≤ 32) (hd : lo' + len' ≤ lo ∨ lo + len ≤ lo') :
    fld (putFld w lo len v) lo' len' = fld w lo' len' := by
  apply Nat.eq_of_testBit_eq
  intro i
  rw [testBit_fld, testBit_fld, getLsbD_putFld _ _ _ _ _ h]
  by_cases hi : i < len'
  · have : ¬ (lo ≤ lo' + i ∧ lo' + i < lo + len) := by omega
    rw [if_neg this]
  · simp [hi]

theorem getLsbD_bitMask (i j : Nat) (h : i < 32) : (bitMask i).getLsbD j = decide (j = i) := by
  unfold bitMask
  rw [BitVec.getLsbD_ofNat, Nat.testBit_two_pow]
  by_cases hj : j = i
  · subst hj; simp [h]
  · have : ¬ i = j := fun e => hj e.symm
    simp [hj, this]

theorem State.regsBut_setReg (k : Nat) (v : Word) (h : s.regsWf) : s.regsBut (s.setReg k v) [k] := by
  intro j hj
  rw [State.reg_setReg s k j v h, if_neg (by simpa using hj)]

theorem State.regsBut_setFld (k lo len v : Nat) (h : s.regsWf) : s.regsBut (s.setFld k lo len v) [k] :=
  State.regsBut_setReg s k _ h

theorem State.regsBut_raise (k i : Nat) (h : s.regsWf) : s.regsBut (s.raise k i) [k] := State.regsBut_setReg s k _ h

theorem State.regFld_setFld (k lo len v : Nat) (h : s.regsWf) (hl : lo + len ≤ 32) :
    (s.setFld k lo len v).regFld k lo len = v % 2 ^ len := by
  unfold State.regFld State.setFld
  rw [State.reg_setReg s k k _ h, if_pos rfl, fld_putFld_same _ _ _ _ hl]

theorem State.regFld_setFld_other (k lo len v lo' len' : Nat) (h : s.regsWf) (hl : lo + len ≤ 32)
    (hd : lo' + len' ≤ lo ∨ lo + len ≤ lo') : (s.setFld k lo len v).regFld k lo' len' = s.regFld k lo' len' := by
  unfold State.regFld State.setFld
  rw [State.reg_setReg s k k _ h, if_pos rfl, fld_putFld_other _ _ _ _ _ _ hl hd]

theorem State.regBit_setFld (k lo len v i : Nat) (h : s.regsWf) (hl : lo + len ≤ 32) :
    (s.setFld k lo len v).regBit k i = if lo ≤ i ∧ i < lo + len then v.testBit (i - lo) else s.regBit k i := by
  unfold State.regBit State.setFld
  rw [State.reg_setReg s k k _ h, if_pos rfl, bitOf_eq, bitOf_eq, getLsbD_putFld _ _ _ _ _ hl]

/-- A raised status bit reads 1, and the register's other bits as before. -/
theorem State.regBit_raise (k i j : Nat) (h : s.regsWf) (hi : i < 32) :
    (s.raise k i).regBit k j = (decide (j = i) || s.regBit k j) := by
  unfold State.regBit State.raise
  rw [State.reg_setReg s k k _ h, if_pos rfl, bitOf_eq, bitOf_eq, BitVec.getLsbD_or, getLsbD_bitMask _ _ hi, Bool.or_comm]

theorem State.regsWf_setReg (k : Nat) (v : Word) (h : s.regsWf) : (s.setReg k v).regsWf := Sparse.wf_set _ _ _ _ h

theorem State.regsWf_setFld (k lo len v : Nat) (h : s.regsWf) : (s.setFld k lo len v).regsWf := Sparse.wf_set _ _ _ _ h

theorem State.regsWf_raise (k i : Nat) (h : s.regsWf) : (s.raise k i).regsWf := Sparse.wf_set _ _ _ _ h

/-! ### The log -/

/-- A staged record touches no register but CLG_STATUS. -/
theorem State.stage_reg (r : LogRec) (k : Nat) (h : s.regsWf) (hk : k ≠ Reg.clgStatus) : (s.stage r).reg k = s.reg k := by
  unfold State.stage
  split
  · rfl
  · split
    · have e : ∀ u : State, u.regs = s.regs → (u.raise Reg.clgStatus 0).reg k = s.reg k := by
        intro u hu
        have hw : u.regsWf := by simpa [State.regsWf, hu] using h
        rw [State.regsBut_raise u Reg.clgStatus 0 hw k (by simpa using hk)]
        simp [State.reg, hu]
      exact e _ rfl
    · rfl

theorem State.log_reg (code : Nat) (args : List Nat) (k : Nat) (h : s.regsWf) (hk : k ≠ Reg.clgStatus) :
    (s.log code args).reg k = s.reg k := s.stage_reg _ k h hk

theorem State.logUnit_reg (code owner kind unit : Nat) (args : List Nat) (k : Nat) (h : s.regsWf) (hk : k ≠ Reg.clgStatus) :
    (s.logUnit code owner kind unit args).reg k = s.reg k := s.stage_reg _ k h hk

end Sys2Proof.Machine
end

