-- ==== Sys2Proof/Tests/Samples.lean ====
section
/-! SUPPORT. Small values from which the tests build their states. -/

namespace Sys2Proof.Tests

open Sys2Proof.Machine

/-- A house sheet with given A-track cues and descriptors. -/
def sheetOf (cues : List (BitVec 128)) (descs : List (BitVec 512)) : Sheet :=
  { kind := 2, size := 320, sheetId := 1, profile := 0, cadence := 2, segmentNs := 50000, guardPm := 10, fitMhz := 875, spanCycles := 1000,
    posLo := 0, posHi := 0, resident := false, bays := [], retake := [], cues := [cues, [], [], []], descs := descs, digest := 0 }

/-- A cue of bay 63: offset, duration, track, gate, anchored, descriptor; its CRC field is that of Table 3.2. -/
def cueOf (offset dur track gate anchor desc : Nat) : BitVec 128 :=
  let n := offset + dur * 2 ^ 32 + track * 2 ^ 56 + anchor * 2 ^ 58 + gate * 2 ^ 59 + 63 * 2 ^ 64 + desc * 2 ^ 72
  BitVec.ofNat 128 (n + (crc16 (leBytes 14 n)).toNat * 2 ^ 112)

/-- A state in which the house segment plays a sheet: slot 0 of the house, in RUN. -/
def houseRuns (x : Sheet) : State :=
  let s : State := (State.reset.setSheet 32 0 (some x)).setCtx 32 { PlayCtx.init with slot := some 0, state := .run, begun := true, endTb := 1000000 }
  { s with tbm.running := true, tbm.tNext := 1000000, player.playing := true }

/-- A plate part without tiles. -/
def emptyPart : PlatePart := { tiles := 0, fmt := 4, blk := 0, expertTiles := 0, expert := false, digest := 0, data := [] }

/-- A plate of a given number of layers. -/
def plateOf (layers : Nat) (resident : Bool) : Plate :=
  { layers := List.replicate layers emptyPart, embed := emptyPart, head := emptyPart, points := [], spareRouter := 0, experts := 0,
    dModel := 64, vocab := 256, kvCh := 64, digest := 0, manifest := [], resident := resident, modified := false }

/-- The image of a partition's fallback sheet without cues, before its digest: profile 0, cadence code 2, a segment of 10,000 ns (Table 3.1). -/
def fallbackBody : Blob :=
  leBytes 4 0x5448534B ++ leBytes 2 1 ++ leBytes 2 1 ++ leBytes 4 384 ++ leBytes 2 1 ++ leBytes 1 0 ++ leBytes 1 2 ++ leBytes 4 10000 ++
    leBytes 2 10 ++ leBytes 2 875 ++ leBytes 28 0 ++
    leBytes 4 256 ++ leBytes 4 256 ++ leBytes 4 256 ++ leBytes 4 256 ++ leBytes 4 256 ++ leBytes 4 256 ++ leBytes 4 320 ++ leBytes 4 0 ++
    leBytes 236 0

/-- The whole image: body and SHA-512. -/
def fallbackImage : Blob := fallbackBody ++ leBytes 64 (sha512 fallbackBody).toNat

/-- A state in which partition 3 is READY with a segment of 10,000 ns and a plate is loaded. -/
def partitionReady : State :=
  let a : Alloc := { Partition.init.alloc with seg := [10000, 10000, 10000, 10000] }
  let s : State := State.reset.setPart 3 { Partition.init with state := .ready, alloc := a }
  { s with plate.plate := some (plateOf 2 true) }

/-- Operand fields with every bit set, with small registers, and for memory: reference register S0, offset 4. -/
def fieldsMax : VFields := { pg := 7, d := 63, a := 63, b := 63, c := 63, imm := 0x1FFFFFFF }
def fieldsMid : VFields := { pg := 0, d := 4, a := 2, b := 6, c := 1, imm := 5 }
def fieldsMem : VFields := { pg := 0, d := 4, a := 0, b := 6, c := 0, imm := 4 }

/-- A bank of the house that is ON and in use. -/
def bankOn : Bank := { Bank.init with state := .on, req := .on, owner := 32, usable := true }

/-- A state in which unit `u` runs program slot 9 for the house, at its first instruction. -/
def unitRuns (u op : Nat) (f : VFields) : State :=
  let p : Program := { start := 0, code := [vword op f], cycles := 1, digest := 0 }
  let s : State := State.reset.setUnit u { VUnit.init with prog := some 9, owner := 32 }
  { s with vec := { s.vec with slots := Sparse.set (fun _ => none) s.vec.slots 9 (some p) } }

/-- A matrix shot of one INT8 tile, 64 by 64 by 64, on tile 1: first and last, operands at 0, output at 16 KiB (Tables 4.3-4.5). -/
def mmaShot : BitVec 512 :=
  BitVec.ofNat 512 (leNat (leBytes 1 0 ++ leBytes 1 1 ++ leBytes 2 (1 + 2 + 4 * 1) ++ leBytes 2 7 ++ leBytes 2 64 ++ leBytes 2 64 ++ leBytes 2 64 ++
    leBytes 2 0x0404 ++ leBytes 2 0 ++ leBytes 4 0 ++ leBytes 4 128 ++ leBytes 4 256 ++ leBytes 4 0 ++ leBytes 4 0 ++ leBytes 4 0 ++
    leBytes 4 4 ++ leBytes 4 1 ++ leBytes 2 1 ++ leBytes 2 1 ++ leBytes 2 1 ++ leBytes 2 0 ++ leBytes 8 0))

/-- A V-track shot of an operation on units 0 and 31, program slot 9, 128 pairs (Table 7.9). -/
def vShot (op : Nat) : BitVec 512 :=
  BitVec.ofNat 512 (leNat (leBytes 1 1 ++ leBytes 1 op ++ leBytes 2 0 ++ leBytes 4 0x80000001 ++ leBytes 1 9 ++ leBytes 1 0 ++ leBytes 2 384 ++
    leBytes 4 128 ++ leBytes 48 0))

/-- An M-track shot: operation, flags, first, count, stacks, tier F reference, length in 64-byte units, argument (Table 8.6). -/
def mShot (op flags first count stk ref len arg : Nat) : BitVec 512 :=
  BitVec.ofNat 512 (leNat (leBytes 1 2 ++ leBytes 1 op ++ leBytes 2 flags ++ leBytes 4 first ++ leBytes 4 count ++ leBytes 2 stk ++
    leBytes 1 0 ++ leBytes 1 0 ++ leBytes 4 ref ++ leBytes 4 len ++ leBytes 8 arg ++ leBytes 32 0))

/-- A house sheet whose M track has one cue of a descriptor, at cycle 128 for 1,024 cycles. -/
def mSheet (c : BitVec 128) (d : BitVec 512) : Sheet := { sheetOf [] [d] with cues := [[], [], [c], []] }

/-- A state in which NMD 3 has one command of an op code in front, for the step of tint 5: one vector of 64 elements on stacks 3 and 9,
and an UPDATE cue of both stacks is in progress. -/
def updSample (op : Nat) (ph : BatchPhase) : State :=
  let comp : Component := { kind := 2, fmt := 9, blk := 0, layer := 0, point := 0, index := 0, rank := 0, rows := 0, tiles := 1, handle := 100 }
  let o : Obj := { kind := .tintComponent, of := 5, home := .s, stack := 3, mirror := some 9, fmt := 9, blk := 0, tiles := [], written := 0, move := none }
  let m : Mat := { param := 100, stats := 101, rows := 1, cols := 64, layer := 0, lazy := false }
  let k := mkUpd op 5 1 m 0 1 9 1000 0 0 0 0
  let s := houseRuns (mSheet (cueOf 128 20000 2 0 0 0) (mShot 6 0 0 0 0x208 0 0 1))
  let s : State := { s with plate.plate := some { plateOf 1 true with points := [(64, 64)] } }
  let s := s.setTint 5 { Tint.init with state := .cold, stack := 3, comps := [comp], train.cur := { Batch.init with phase := ph, placed := true } }
  let s := (s.setObj 100 (some o)).setObj 101 (some { o with kind := .optimiser })
  let s := s.setCtx 32 { s.ctx 32 with started := [(.m, 0, 128)] }
  let cue : Mover := { owner := 32, cue := 0, op := 6, startTb := 0, hStart := 0, onStacks := [3, 9], tint := 0, rate := 0, tiles := [],
                       until_ := some 20000 }
  let s : State := { s with tiers.running := [cue] }
  (s.setNmd 3 { Nmd.init with state := .live }).setUpd 3 { UpdEngine.init with queue := [k] }

/-- A 4096-bit public modulus, and the signature that its key gives to the sample manifest, made outside the package. -/
def sampleModulus : Nat := [
    0x847d37d4b2cb4a7c583e1b73d3d3c85cc5e9982dd7bc24e81118b488a9aa0227312353ec1760fc17f64d85ee56a03ca89125b3901abee208c96c94db9527538e,
    0xd1c532d75a5616828c1a13d50261e775238b18be7150fc622c895503b629e5e75d01e5f64427eab648fdedca7ed17573661539feaf9510942ceb0d6c2205096b,
    0xadae1a80784048183c5c6ed26a40097c26154ca5670ce5e4c52a8feafe823ed843823aae03b538e1948a4ee500b914b447569f10db6e6c9289c436591deabab3,
    0xd2ddf77be7a510da6fd751b9ddf9030bfd2fb3f39c121dedae9e162ca9c67f70ca7f7ae333c5d4a323d3730b7e87eb1f0e12132725e9deb4bdfa963b9cef502f,
    0xf698147bb7c89c7d0d6f2f9ffea7a9bc753bd726075997d43d0c1db4341aa2817f592568517a3c7800a367be6335c0e0abfada9fd06e8c988e7cc43916b6e978,
    0xc48a94bc34cb5702471b1e0c9492d954d74982903b5b0c132628dafd2cd89c91104a62d584a52be3d15071b9b80fbf1bdc3714531b1b864ec527f354cb9d0b49,
    0x2b647536022ee2683bfcd307e1c61a2f584b3b605a6782b8ba4b3ecbe7b5604b6d4c7bdc28e0917e5c25a3228996e3bc82319c7a1b8c378b0793b7c4e85fd75e,
    0x98ae964c0cf10be6602ba58954c33be4bf569ac59ecbf887b4f1d5ffb615e6828d22e556ccc3833101a4070fcf66837a8187e36f1837a3e0a8751a8ae402e257].foldl (fun n x => n * 2 ^ 512 + x) 0

def sampleSignature : Nat := [
    0x5fe68079af758c901fd3ad6636f9e14f6fb1ddfae832f79619c432c0c424cb39e85826199f009ce6cf82baad46ad6b0ee88ab9fb9390907b3260d882e38fc167,
    0x40b9c3f096a0f4c6be528777fd5b81fc5ef3e2febaa621181bfb9b1f3a53c6c649ce86f1c253c64fdb447989867506d36a23cccfe1728a367229fc0d1b7220c5,
    0x24ab9c5d32681a4225348eee05fcf8365247953ae536c9a87a95c178153479f8bec9b99baed07f26a18ce76882f52b2f059a24cfc004a835385476987fe59ba9,
    0xb3c1aa2f246a9fe0152539d6f62a2045471c68f7912be8beddb22270d4e11a5895b722077ce1569d048f091e8fbf66a0f66897d20ab7acd365b06d4b6e81873b,
    0x3932d3e1c3f97a7eb8487e353928558efa07ff06524614e7a09099d718b50aa4998c62d55b8abd33080b57bd8e315e4d7c0828d5cfef2ad6fa51726625044e60,
    0x35711f127fcfe6222d95eaf36531dc3cf8ff3d068148af1a2dcec250f01baedef3fd13a17908694c4e56a3f60714809fb166e1ae4296c95f868621004517a3b6,
    0xd47e11468a18edac432ffb6d4301273dcda526590c662fb75092102eccb3e8ae1ab364fd8146ec24ecae7307a6fdb6cb79850bbb47fa752b534d8d7ad0e7b053,
    0x6faaab171545cba531779bd98320231b6d56c66b7d59f1f1dbea80c04369e0fc3a10a826ba49e8386278ae7b946211286822e5d5805a58f3130bcc78a924dc1f].foldl (fun n x => n * 2 ^ 512 + x) 0

/-- The manifest of a plate of one layer of one INT8 tile, one point, and one tile each of embedding table and output head, signed by the
sample key (R278-R280). -/
def sampleManifest : Blob :=
  leBytes 4 0x54454C50 ++ leBytes 2 1 ++ leBytes 2 1 ++ leBytes 1 1 ++ leBytes 1 0 ++ leBytes 2 0 ++ leBytes 4 64 ++ leBytes 4 256 ++ leBytes 2 64 ++
    leBytes 2 0 ++ leBytes 4 1 ++ leBytes 4 1 ++ leBytes 1 4 ++ leBytes 1 4 ++ leBytes 2 0 ++ leBytes 4 384 ++ leBytes 24 0 ++
    leBytes 128 0 ++ digestBytes (sha512 (beBytes 512 sampleModulus)) ++
    leBytes 4 1 ++ leBytes 1 4 ++ leBytes 75 0 ++ leBytes 4 64 ++ leBytes 4 64 ++ leBytes 40 0 ++
    beBytes 512 sampleSignature ++ beBytes 512 sampleModulus ++ leBytes 64 0

/-- A descriptor's item that has just been fetched: opcode, and fields as (offset, length, value). -/
def itemOf (op : Nat) (fs : List (Nat × Nat × Nat)) : Item :=
  { raw := BitVec.ofNat 512 (op + (fs.map fun f => f.2.2 % 256 ^ f.2.1 * 256 ^ f.1).sum), obs := 0, order := 0, phase := .fetched, done := none, returns := 0,
    late := false, reloaded := false, retaken := false, layers := 0, eligible := none, heldFrom := 0, aux := 0, segs := 0, stage := 0,
    lastFn := 0, firstFn := 0, units := 0, suspect := false, ids := [], shape := none }

/-- Entry 0 of submission ring 0 of partition 3. -/
def keyOf3 : ItemKey := { set := 3, sq := 0, idx := 0 }

/-- Partition 3 is ACTIVE with tints 1 to 9, two hot slots of one bank, contexts 1 to 9, and has one item; tint 5 is COLD. -/
def itemState (i : Item) : State :=
  let a : Alloc := { Partition.init.alloc with tintFirst := 1, tintLast := 9, slotFirst := 0, slotCount := 2, slotBanks := 1, sesFirst := 1, sesLast := 9, sGib := 1 }
  let s : State := State.reset.setPart 3 { Partition.init with state := .active, alloc := a }
  let s := s.setTint 5 { Tint.init with state := .cold, owner := 3 }
  { s with items := [(keyOf3, i)] }

/-- No format takes more than 4 scale bytes a row. -/
theorem scales_le (b : Nat) : scalesPerRow b ≤ 4 := by
  unfold scalesPerRow; split <;> omega
/-- No packed tile is larger than 16,384 bytes. -/
theorem packed_le (f b : Nat) : packedSize f b ≤ 16384 := by
  have h := scales_le b
  unfold packedSize rowBytes fmtBits
  repeat' split
  all_goals omega
/-- Tier S has room for a session of partition 3 where it holds nothing, whatever the format of K and V. -/
theorem empty_room (s : State) (h1 : s.plate.plate = none) (h2 : s.tiers.objs = []) (h3 : s.ses = []) (h4 : 1 ≤ (s.part 3).alloc.sGib)
    (h5 : s.liveStacks ≠ []) : s.sessionRoom 3 = true := by
  have hp := packed_le kvForm.1 kvForm.2
  have ho : s.openBytes ≤ 16384 := by
    simp only [State.openBytes, State.extentBytes, State.extentTiles, State.layerCount, h1]; omega
  have hu : s.sUsed 3 = 0 := by simp [State.sUsed, h2, h3]
  have hk : ∀ n, s.stackUsed n = 0 := by intro n; simp [State.stackUsed, h1, h2, h3]
  have hw : s.stacksWith s.openBytes = s.liveStacks := by
    unfold State.stacksWith; simp only [hk]; apply List.filter_eq_self.mpr; intro a _; simp; omega
  unfold State.sessionRoom State.sRoom
  rw [hw, hu]; cases hl : s.liveStacks with
  | nil => exact absurd hl h5
  | cons a b => simp; omega
/-- It has in the sample state. -/
theorem sample_room (i : Item) : (itemState i).sessionRoom 3 = true := empty_room _ rfl rfl rfl (Nat.le_refl 1) (by
  have : (itemState i).liveStacks = State.reset.liveStacks := rfl
  rw [this]; decide)

/-- A step of an insert program: one row of 32 INT8 elements times one INT8 tile, on tile 3, to 8 INT8 elements (R314). -/
def insertShot : BitVec 512 :=
  BitVec.ofNat 512 (leNat (leBytes 1 0 ++ leBytes 1 1 ++ leBytes 2 (1 + 2 + 4 * 3) ++ leBytes 2 0 ++ leBytes 2 32 ++ leBytes 2 1 ++ leBytes 2 8 ++
    leBytes 2 0x0404 ++ leBytes 2 0 ++ leBytes 24 0 ++ leBytes 4 4 ++ leBytes 4 1 ++ leBytes 2 1 ++ leBytes 2 1 ++ leBytes 2 1 ++ leBytes 2 0 ++ leBytes 8 0))

/-- The image of an insert program of that one step, with its tile (R313). -/
def insertImage : Blob :=
  leBytes 4 0x54534E49 ++ leBytes 2 1 ++ leBytes 1 1 ++ leBytes 1 4 ++ leBytes 1 32 ++ leBytes 3 0 ++ leBytes 4 4160 ++ leBytes 48 0 ++
    leBytes 64 insertShot.toNat ++ leBytes 4160 4

/-- Partition 3 has pinned that program in slot 5 and sends its INSERT, while the house segment runs at the cadence of 1,000 ns. -/
def insertState : State :=
  let p : Pin := { owner := 3, steps := [insertShot], inFmt := 4, inK := 32, ref := 0, len := 4288, digest := 0 }
  let s := (itemState (itemOf 0x20 [(0x10, 1, 5), (0x11, 1, 4), (0x12, 1, 32)])).setBank 0 { bankOn with owner := 3 }
  let s := (s.setFld Reg.tbCtrl 2 2 2).setCtx 32 { PlayCtx.init with state := .run, begun := true, endTb := 1000000 }
  { s with tbm.running := true, ins.pins := [(5, some p)] }

/-- Every logical array last passed its check in frame 5. -/
def passTable : Sparse (Option (BitVec 32)) := (List.range' 0 2560).map fun g => (g, some 5)

theorem get_range' {β : Type} (d : Nat → β) (v : β) : ∀ (n a k : Nat), a ≤ k → k < a + n →
    Sparse.get d ((List.range' a n).map fun g => (g, v)) k = v
  | 0, a, k, h1, h2 => by omega
  | n + 1, a, k, h1, h2 => by
    simp only [List.range'_succ, List.map_cons, Sparse.get]
    by_cases h : k = a
    · simp [h]
    · rw [if_neg h, if_neg (by omega)]
      exact get_range' d v n (a + 1) k (by omega) (by omega)

theorem checkedAfter_sample (s : State) (fn : BitVec 32) (strict : Bool) (h : s.grid.pass = passTable) (h1 : fnLe fn (5 : BitVec 32) = true)
    (h2 : fn ≠ 5) : s.checkedAfter fn 0 strict = true := by
  have hb : ∀ u, bitOf (0 : BitVec 32) u = false := by intro u; simp [bitOf]
  simp only [State.checkedAfter, h, Bool.and_eq_true, List.all_eq_true, List.mem_range, hb, Bool.not_false, Bool.true_or, implies_true, and_true]
  intro g hg
  rw [passTable, get_range' _ _ 2560 0 g (by omega) (by omega)]
  simpa using ⟨h1, Or.inr (Ne.symm h2)⟩

/-- Partition 3 has one held item of frame 4, and its tint 5 is affected by a check, has one clean snapshot and eight retakes of layer 2. -/
def checkedItem : Item := { itemOf 1 [] with phase := .held, lastFn := 4 }
def checkedSnap : Snap :=
  { handle := 77, gen := 0, sigma := 0, counts := (0, 0), batch := 0, k := 0, data := [], copied := true, auto := false, frame := some 0, tier := .s, units := 0 }
def checkedState : State :=
  let s := itemState checkedItem
  let s := s.setTint 5 { s.tintOf 5 with train.affected := true, train.snaps := [checkedSnap], train.retakes := [(2, 1, 8)], train.excursions := 16 }
  { s with grid.pass := passTable }

end Sys2Proof.Tests
end

