-- ==== Sys2Proof/WellFormed.lean ====
section
/-! DEFINITION. Well-formed commands: what a sender can say. Each check is a range that the spec gives for an operand. A command that is
not well formed still has a meaning, the one that its rule gives to a number out of range (mostly: no effect). -/

namespace Sys2Proof

open Sys2Proof.Machine

/-- A descriptor key: ring set 0-32, SQ 0-15, 16-bit index (R371, R384). -/
def keyOk (k : ItemKey) : Bool := decide (k.set ≤ 32) && decide (k.sq < 16) && decide (k.idx < 65536)

/-- An aligned offset within the 2 MiB setup window (R367, R370). -/
def offOk (off : Nat) : Bool := decide (off < 2097152) && off % 4 = 0

/-- A tick source: TICK_IN or the beacon of a port 0-7 (R62). -/
def sourceOk : TickSource → Bool
  | .tickIn => true
  | .beacon p => decide (p < 8)

/-- A hot slot 0-4095, or any (R293). -/
def slotOk : Option Nat → Bool
  | some h => decide (h < 4096)
  | none => true

/-- Bytes of a given length, where they could be read. -/
def blobOk (n : Nat) : Option Blob → Bool
  | some b => b.length = n
  | none => true

/-- A commit record: owner 0-32 and slot 0-63; bays below 63 and each bound once, tints and item keys in range (R76, R80, R92). -/
def recOk (r : Nat × CommitRec) : Bool :=
  decide (r.1 ≤ 32) && decide (r.2.slot < 64) && (r.2.training.all fun b => decide (b < 63)) &&
    decide ((r.2.bindings.map fun b => b.bay).Nodup) && r.2.bindings.all fun b => decide (b.bay < 63) && decide (b.tint < 65536) && b.items.all keyOk

/-- A master of the mailboxes (Table 14.4). -/
def masterIdOk (m : Nat) : Bool :=
  m ∈ [0x01, 0x02, 0x20, 0x70, 0x71] || decide (0x10 ≤ m ∧ m ≤ 0x1B) || decide (0x40 ≤ m ∧ m ≤ 0x5F)

/-- The operands of a command are in their ranges. -/
def Instr.wf : Instr → Bool
  | .registerWrite fn off _ => decide (fn ≤ 32) && offOk off
  | .registerAccessError fn _ _ => decide (fn ≤ 32)
  | .lockWrite _ => true
  | .tbNowRead | .tickLastRead | .clgCountRead | .runStart | .runStop | .framesStop | .syncArm | .tick | .longerProfile | .policyReview
    | .commitPoint | .srcReturn | .followerLock | .alignErr | .tickLost | .holdoverExit | .playerDisable | .checkDisable | .katDisable
    | .plateLoadEnd | .plateUnload | .insertComplete | .bulkAbortWrite | .wipeDone | .groupKeyActivate | .groupKeyRetire | .rngFail
    | .mctpTx | .mctpRxRelease | .lifecycleReturn | .safeReq | .directorHang | .refclkLoss | .logCommit | .mainPowerFail | .vauxFail
    | .directorReady | .bootWatchdog | .warmReset | .bootCommit | .flashErase | .extest | .idcode | .samplePreload | .vtarget
    | .jtagTrst => true
  | .setCadence _ => true
  | .profileWrite _ _ _ => true
  | .rehearseArm _ _ => true
  | .segmentStart owner | .insertWindow owner | .holdResume owner => decide (owner ≤ 33)
  | .directorCommit recs => recs.all recOk
  | .tickWord src _ _ => sourceOk src
  | .missedTick src => sourceOk src
  | .delayExchange port | .distTimeout port | .portTrainRetry port | .reelPortFence port | .reelFenceReq port
    | .bulkRx port => decide (port < 8)
  | .delayFlit port flit _ => decide (port < 8) && decide (flit.length = 256)
  | .sheetLoad owner slot => decide (owner ≤ 32) && decide (slot < 64)
  | .sheetLoadDone _ | .programLoadDone _ | .insertPinDone _ => true
  | .playerEnable _ => true
  | .setSheetStore mib => decide (mib ≤ 1023)
  | .fallbackDesignate owner _ => decide (owner ≤ 32)
  | .cueEnd owner _ idx => decide (owner ≤ 32) && decide (idx < 65536)
  | .mma owner idx | .shotEnd owner idx | .run owner idx | .kat owner idx | .meterShot owner idx | .reel owner idx | .gather owner idx
    | .scatter owner idx | .migrate owner idx | .host owner idx | .update owner idx | .tint owner idx | .send owner idx | .recv owner idx
    | .pass owner idx | .verdict owner idx => decide (owner ≤ 32) && decide (idx < 65536)
  | .drainEnd tile _ => decide (tile < 4)
  | .arrayFenceReq logical => decide (logical < 2560)
  | .katVerdict _ part => decide (part < 12)
  | .vNop u _ | .vEnd u _ | .vLoop u _ | .vSli u _ | .vSlh u _ | .vSadd u _ | .vSsub u _ | .vSmul u _ | .vSand u _ | .vSor u _
    | .vSxor u _ | .vSshl u _ | .vSshr u _ | .vSaddi u _ | .vSld u _ | .vSst u _ | .vIadd u _ | .vIsub u _ | .vImul u _ | .vImax u _
    | .vImin u _ | .vIand u _ | .vIor u _ | .vIxor u _ | .vIshl u _ | .vIsra u _ | .vIshr u _ | .vIcmp u _ | .vFadd u _ | .vFsub u _
    | .vFmul u _ | .vFfma u _ | .vFmax u _ | .vFmin u _ | .vFabs u _ | .vFneg u _ | .vFtsum u _ | .vFcmp u _ | .vFexp2 u _ | .vFlog2 u _
    | .vFrcp u _ | .vFsqrt u _ | .vFrsq u _ | .vSel u _ | .vBcast u _ | .vLidx u _ | .vRot u _ | .vVmov u _ | .vWext u _ | .vPand u _
    | .vPor u _ | .vPnot u _ | .vPfirst u _ | .vRedadd u _ | .vRedmax u _ | .vRedmin u _ | .vIredadd u _ | .vCvtn u _ | .vCvtw u _
    | .vItof u _ | .vFtoi u _ | .vTld u _ | .vTst u _ | .vTfin u _ | .vRng u _ | .vKseed u _ => decide (u < 32)
  | .vectorFenceReq u => decide (u < 32)
  | .programLoad slot | .programSlotClear slot | .insertUnpin slot => decide (slot < 64)
  | .layerFetchDone _ _ => true
  | .bankRequest b _ => decide (b < 1536)
  | .bankRequestEffect b | .bankTransitionDone b => decide (b < 1536)
  | .patrolScrub b _ => decide (b < 1536)
  | .maintenanceAccess n _ _ _ => decide (n < 12)
  | .tierSPatrol n _ _ => decide (n < 12)
  | .patrolLate n | .retrainLate n | .nmdFenceReq n | .stackLost n | .pass1 n | .pass2 n | .drop n | .updateDeadline n
    | .nmdHang n => decide (n < 12)
  | .dqOscCheck n _ => decide (n < 12)
  | .dqRetrain n _ _ => decide (n < 12)
  | .rowRetire n _ => decide (n < 12)
  | .updatePassDone n _ => decide (n < 12)
  | .plateLoad _ => true
  | .platePartArrived part _ => decide (part < 1026)
  | .tintRegister k _ _ => keyOk k
  | .tintRegisterDone t | .tintHot t | .evictionEffect t | .evictionComplete t | .withdrawEffect t | .withdrawComplete t
    | .autoSnapshot t | .snapshotCopyDone t | .rollback t | .trainingPause t | .tintDiverged t | .tintFenceReq t
    | .tintFence t => decide (t < 65536)
  | .tintLoad k | .tintPin k | .tintEvict k | .tintWithdraw k | .sessionOpen k | .sessionClose k | .serveStep k | .insert k | .meter k
    | .snapshot k | .restore k | .completionRelease k | .completionWrite k | .dailiesArm k | .freeze k | .freezeDone k | .save k
    | .attest k => keyOk k
  | .sessionCloseEffect ctx | .sessionScrubDone ctx | .sessionFenceReq ctx | .sessionFence ctx => decide (ctx < 65536)
  | .servePrefill k _ => keyOk k
  | .trainSample k _ _ => keyOk k
  | .insertPin slot owner => decide (slot < 64) && decide (owner ≤ 32)
  | .retakeHold t layer level => decide (t < 65536) && decide (layer < 1024) && decide (level ≤ 2)
  | .doorbellObserved _ words => decide (words.length = 16)
  | .descriptorFetch set sq bytes => decide (set ≤ 32) && decide (sq < 16) && blobOk 64 bytes
  | .sqEnable set n _ | .cqEnable set n _ => decide (set ≤ 32) && decide (n < 16)
  | .sqDisable set n | .sqDrainDone set n | .cqDisable set n => decide (set ≤ 32) && decide (n < 16)
  | .uclPortFence n | .uclPortFenceReq n => decide (n < 2)
  | .create p | .createDone p | .resize p | .activate p | .activateEffect p | .deactivate p | .deactivateEffect p | .teardown p
    | .teardownEffect p | .teardownDone p | .freezeEffect p | .importKeyReady p | .partitionFenceReq p
    | .partitionFence p => decide (p < 32)
  | .loadImage k _ => keyOk k
  | .mbxBindWrite c _ => decide (c < 64)
  | .mbxDataWrite m c w _ => masterIdOk m && decide (c < 64) && decide (w < 16)
  | .mbxSend m c | .mbxDone m c | .mbxAbortClear m c => masterIdOk m && decide (c < 64)
  | .idleFlit port flit | .dataFlit port flit | .voidFlit port flit | .plateReq port flit | .plateAck port flit | .nack port flit
    | .done port flit | .bulkOffer port flit | .bulkAccept port flit | .bulkDone port flit | .abort port flit
    | .tag port flit => decide (port < 8) && decide (flit.length = 256)
  | .portTrained port _ => decide (port < 8)
  | .bulkTx port _ => decide (port < 8)
  | .take _ | .transfer _ | .release _ | .pubAdd _ | .pubRemove _ | .cdk _ => true
  | .plateKeyImport _ | .groupKeyImport _ => true
  | .getVersion _ _ | .getCapabilities _ _ | .negotiateAlgorithms _ _ | .getDigests _ _ | .getCertificate _ _ | .challenge _ _
    | .getMeasurements _ _ | .setEndpointId _ _ | .getEndpointId _ _ | .getMctpVersionSupport _ _ | .getMessageTypeSupport _ _
    | .pldmRequest _ _ => true
  | .smbusPacket _ _ => true
  | .sensorUpdate _ => true
  | .safCtrlWrite _ | .safPromoteWrite _ => true
  | .supplyFault rail => decide (rail < 9)
  | .thermalSample _ => true
  | .droopTrip level => decide (1 ≤ level ∧ level ≤ 3)
  | .fadeRelease _ => true
  | .standbyPowerOn _ => true
  | .coldReset _ _ _ _ => true
  | .functionLevelReset fn => decide (fn ≤ 32)
  | .trialMaskWrite _ => true
  | .flashProgram _ => true
  | .flashOpDone _ => true
  | .recoveryBegin _ slot comp => decide (slot < 2) && decide (comp < 5)
  | .recoveryData _ _ _ => true
  | .recoveryEnd _ _ => true
  | .recoveryExit _ => true
  | .bypass _ | .jtagDebug _ => true
  | .directorClaim t slot => decide (t < 65536) && slotOk slot
  | .mbxDeniedRead m c off => masterIdOk m && decide (c < 64) && decide (off < 128) && off % 4 = 0
  | .clgSlotReadout slot => decide (slot < 262144)

end Sys2Proof
end

