-- ==== Sys2Proof/Tests/Slice0.lean ====
section
/-! SUPPORT. The model's own tests: worked examples of the spec, single steps, ill-formed commands, and for each statement with hypotheses a
state and operands that meet them. -/

open Sys2Proof Sys2Proof.Machine Sys2Proof.Tests

set_option Elab.async false

/-! ### Worked examples of the spec -/

/-- Chapter 06, the generator test vector: two steps from state 1. -/
theorem test_lane_generator : lstep 1 = 0x40822041 ∧ lstep 0x40822041 = 0x100041060C011441 ∧
    (ldraw 4 1).1 = 0 ∧ (ldraw 4 0x40822041).1 = 1 ∧ (ldraw 16 0x40822041).1 = 0x1000 := by decide
/-- Chapter 06, Table 6.2: E4M3 conversions to the nearest. -/
theorem test_table_6_2_rne : fpE4M3.convert (.ofInt 17) .rne false = (0x58, false) ∧ fpE4M3.convert (.ofInt 19) .rne false = (0x5A, false) ∧
    fpE4M3.convert (.ofInt 464) .rne false = (0x7E, false) ∧ fpE4M3.convert (.ofInt 470) .rne false = (0x7E, true) ∧
    fpE4M3.convert (.ofInt 470) .rne true = (0x7F, true) ∧ fpE4M3.convert (.fin true 1 (-10)) .rne false = (0x80, false) := by decide
/-- Chapter 06, Table 6.2: stochastic conversions round up from the stated draw on, 450.0 only at r = 15. -/
theorem test_table_6_2_sr : fpE4M3.convert (.ofInt 17) (.sr 4 7) false = (0x58, false) ∧ fpE4M3.convert (.ofInt 17) (.sr 4 8) false = (0x59, false) ∧
    fpE4M3.convert (.ofInt 450) (.sr 4 14) false = (0x7E, false) ∧ fpE4M3.convert (.ofInt 450) (.sr 4 15) false = (0x7E, true) := by decide
/-- Chapter 05: FP4 codes 0x7 and 0xB under scale byte 0x7A are 0.1875 and -0.046875; UINT4 codes with zero point 9. -/
theorem test_expand : (expand 2 0 (fun _ => 0) 0x7 (some 0x7A)).cmp (.fin false 3 (-4)) = 0 ∧
    (expand 2 0 (fun _ => 0) 0xB (some 0x7A)).cmp (.fin true 3 (-6)) = 0 ∧
    (elemVal 1 9 (fun _ => 0) 0x3).cmp (.ofInt (-6)) = 0 ∧ (elemVal 5 200 (fun _ => 0) 0x05).cmp (.ofInt (-195)) = 0 := by decide
/-- Chapter 05: a packed FP4 tile with B32 scales takes 2,176 bytes. -/
theorem test_tile_size : packedSize 2 2 = 2176 := by decide
/-- Chapter 07, the softmax example: 4/9 from 1 / 2.25, then BF16 codes. -/
theorem test_softmax : bf16Of (fmul 0x3F800000 (fdiv 0x3F800000 0x40100000)).1 = 0x3EE4 ∧
    bf16Of (fmul 0x3E800000 (fdiv 0x3F800000 0x40100000)).1 = 0x3DE4 := by decide +kernel
/-- Chapter 07, the meter example: block 48 has s = 48 and mse 3.0; block 2,068 has s = 25,600 and mse 1,600.0. -/
theorem test_meter_blocks :
    meterBlock ((List.replicate 12 ((0x42200000 : Word), (0x42280000 : Word))) ++ List.replicate 4 (0x42200000, 0x42200000)) =
      (0x42400000, 0x46C80000, 0, 0x40400000) ∧
    meterBlock (List.replicate 16 ((0x42200000 : Word), (0 : Word))) = (0x46C80000, 0x46C80000, 0, 0x44C80000) := by decide +kernel
/-- Chapter 12: a first step at the BF16 statistic 2^-7 is 1/8 of an ulp, so SR-16 rounds it up from r = 57,344 on. -/
theorem test_row_statistic : fpBF16.convert (.fin false 1025 (-17)) .rne true = (0x3C00, false) ∧
    fpBF16.convert (.fin false 1025 (-17)) (.sr 16 57343) true = (0x3C00, false) ∧
    fpBF16.convert (.fin false 1025 (-17)) (.sr 16 57344) true = (0x3C01, false) := by decide
/-- Chapter 02: a due frame past the wrap is 32 frames ahead; one exactly 2^31 ahead counts as past. -/
theorem test_due_frame : sdiff (0xFFFFFFF0 : Word) 0x10 = 32 ∧ sdiff (0xFFFFFFF0 : Word) 0x7FFFFFF0 < 0 := by decide
/-- The check values of the named CRCs on "123456789" (CRC-8/SMBUS and CRC-16/IBM-3740, R61 and R81). -/
theorem test_crc : crc8 [0x31, 0x32, 0x33, 0x34, 0x35, 0x36, 0x37, 0x38, 0x39] = 0xF4 ∧
    crc16 [0x31, 0x32, 0x33, 0x34, 0x35, 0x36, 0x37, 0x38, 0x39] = 0x29B1 := by decide +kernel

/-! ### Single steps -/

/-- The outcome is a next state of which a test holds. -/
def nextHolds (o : Out) (p : State → Bool) : Bool := match o with | .next t => p t | _ => false

/-- SAF_PROMOTE keeps the promotions that cannot be taken away (R478). -/
theorem test_saf_promote : nextHolds (exec (.safPromoteWrite 0) State.reset) fun t => decide (t.reg Reg.safPromote = 0x301C0) := by decide
/-- A binding of a reserved master sets MBX_STATUS.cfg_err and binds nothing (R408, Table 14.4). -/
theorem test_bind_reserved : nextHolds (exec (.mbxBindWrite 5 0x80080230) State.reset) fun t =>
    t.regBit Reg.mbxStatus 2 && decide (t.bound 5 = none) := by decide
/-- A message from the director to stack 0's NMD goes FULL (R409). -/
theorem test_send : nextHolds (exec (.mbxSend 0x01 5) (State.reset.setReg (bindKey 5) 0x80081001)) fun t => decide ((t.chan 5).state = .full) := by decide
/-- An empty queue lets a nanosecond pass (log entry 2). -/
theorem test_idle : nextHolds (step State.reset) fun t => decide (t.tbm.tb = State.reset.tbm.tb + 1) := by decide

/-! ### Ill-formed commands: one for each check of WellFormed.lean -/

theorem test_wf_key : keyOk ⟨32, 15, 65535⟩ = true ∧ keyOk ⟨33, 0, 0⟩ = false ∧ keyOk ⟨0, 16, 0⟩ = false ∧ keyOk ⟨0, 0, 65536⟩ = false := by decide
theorem test_wf_offset : Instr.wf (.registerWrite 33 0 0) = false ∧ Instr.wf (.registerWrite 0 2 0) = false ∧
    Instr.wf (.registerWrite 0 0x200000 0) = false ∧ Instr.wf (.registerWrite 0 0x1FFFFC 0) = true := by decide
theorem test_wf_source : sourceOk (.beacon 7) = true ∧ sourceOk (.beacon 8) = false := by decide
theorem test_wf_slot : slotOk (some 4095) = true ∧ slotOk (some 4096) = false := by decide
theorem test_wf_blob : Instr.wf (.descriptorFetch 0 0 (some [1])) = false ∧ Instr.wf (.descriptorFetch 0 0 none) = true := by decide
theorem test_wf_record : recOk (33, ⟨0, [], [], 0⟩) = false ∧ recOk (0, ⟨64, [], [], 0⟩) = false ∧ recOk (0, ⟨63, [], [63], 0⟩) = false := by decide
theorem test_wf_master : masterIdOk 0x1B = true ∧ masterIdOk 0x1C = false ∧ masterIdOk 0x60 = false := by decide
theorem test_wf_mailbox : Instr.wf (.mbxDataWrite 1 64 0 0) = false ∧ Instr.wf (.mbxDataWrite 1 0 16 0) = false ∧
    Instr.wf (.mbxDeniedRead 1 0 128) = false ∧ Instr.wf (.mbxSend 0 0) = false := by decide
theorem test_wf_units : Instr.wf (.vNop 32 fieldsMax) = false ∧ Instr.wf (.drop 12) = false ∧ Instr.wf (.drainEnd 4 []) = false := by decide
theorem test_wf_ranges : Instr.wf (.create 32) = false ∧ Instr.wf (.supplyFault 9) = false ∧ Instr.wf (.droopTrip 0) = false ∧
    Instr.wf (.droopTrip 4) = false ∧ Instr.wf (.bankRequestEffect 1536) = false ∧ Instr.wf (.portTrained 8 15) = false := by decide

/-! ### Witnesses: what meets the hypotheses of each statement -/

/-! O1, StepRunsTheFrontCommand. -/

theorem wit_idle_counting : State.reset.pending = [] ∧ State.reset.tbm.counting = true ∧ State.reset.tbm.phaseLeft = 0 ∧
    (State.reset.tbm.freqAcc + State.reset.tbm.freqPpb).natAbs < 1000000000 := by decide +kernel
theorem wit_idle_stopped : ({ State.reset with tbm.counting := false } : State).pending = [] ∧
    ({ State.reset with tbm.counting := false } : State).tbm.counting = false := by decide +kernel

/-! O3, RegisterWritesFollowTheAccessCodes. -/

theorem wit_registerWrite : State.reset.regsWf ∧ State.reset.fnPresent 0 = true ∧
    State.reset.regKey 0 Reg.tbTickSrc = some Reg.tbTickSrc ∧
    regRow (Reg.tbTickSrc % 4294967296) = some ⟨0x10014, 4, 1, 4, 1, 0x0, 0xFF, 0x0, 0x0⟩ ∧
    State.reset.lockedAt (Reg.tbTickSrc % 4294967296) = false ∧ State.reset.judge Reg.tbTickSrc 0x98 = .store 0x98 ∧
    Reg.tbTickSrc ≠ Reg.tbRehearse ∧ State.reset.anyActive = false ∧ State.reset.boot.stage ≠ .recovery ∧ State.reset.follower = false ∧
    ({ State.reset with tbm.running := true } : State).tbm.running = true ∧ (1 / 65536 ≠ 12) ∧ partSees Reg.tbCtrl = false := by decide +kernel
theorem wit_registerHidden : State.reset.fnPresent 0 = true ∧ (State.reset.setPart 3 { Partition.init with state := .ready }).fnPresent 4 = true ∧
    (State.reset.setPart 3 { Partition.init with state := .ready }).regKey 4 Reg.tbCtrl = none := by decide +kernel
theorem wit_registerAbsent : State.reset.fnPresent 1 = false ∧ State.reset.fnPresent 33 = false := by decide +kernel

/-! O4, FramesStartAndStop. -/

theorem wit_runStart : State.reset.regsWf ∧ State.reset.locked .tb = false ∧ State.reset.used State.reset.tbm.active.toNat = true ∧
    State.reset.valid State.reset.tbm.active.toNat = true ∧ State.reset.tbm.running = false ∧ State.reset.tbm.startDue = false ∧
    State.reset.tbm.waitSync = false ∧ State.reset.tbm.stopPending = false ∧ State.reset.follower = false := by decide +kernel

/-! O5, CadenceChangesOnlyWhenEveryUsedProfileStaysValid. -/

theorem wit_setCadence : State.reset.regsWf ∧ State.reset.locked .tb = false ∧ State.reset.anyActive = false ∧
    State.reset.allValid (2 : BitVec 2).toNat = true := by decide +kernel
theorem wit_setCadenceRefused :
    let s := State.reset.setPart 0 { Partition.init with state := .active }
    s.regsWf ∧ s.locked .tb = false ∧ s.anyActive = true := by decide +kernel

/-! O6, ProfilesPresetsAndSynchronisationAreArmed. -/

theorem wit_profileWrite : State.reset.regsWf ∧ State.reset.locked .tb = false ∧ State.reset.profileBusy 0 = false ∧
    State.reset.profileBusy 3 = false := by decide +kernel
theorem wit_profileBusy : let s : State := { State.reset with tbm.running := true }; s.regsWf ∧ s.profileBusy 0 = true := by decide +kernel
theorem wit_noneActive : State.reset.regsWf ∧ State.reset.anyActive = false := by decide +kernel
theorem wit_oneActive : let s := State.reset.setPart 31 { Partition.init with state := .frozen }; s.regsWf ∧ s.anyActive = true := by decide +kernel

/-! O7, FollowerCountsItsTicks. -/

theorem wit_missedTick :
    let s : State := { (State.reset.setReg Reg.tbTickSrc 0x98).setFld Reg.tbCtrl 1 1 1 with tbm.running := true }
    s.follower = true ∧ s.tbm.running = true ∧ s.configured (.beacon 0) = true ∧ s.configured (.beacon 1) = true := by decide +kernel
theorem wit_srcReturn : let s : State := { State.reset with tbm.srcActive := 2, tbm.primaryRun := 64 }
    s.tbm.srcActive = 2 ∧ 64 ≤ s.tbm.primaryRun := by decide +kernel
theorem wit_followerLock : let s : State := { State.reset.setFld Reg.tbCtrl 1 1 1 with tbm.lockRun := 16 }
    s.follower = true ∧ 16 ≤ s.tbm.lockRun := by decide +kernel
theorem wit_holdoverExit : let s : State := { State.reset with tbm.holdover := true, tbm.acceptRun := 4 }
    s.tbm.holdover = true ∧ 4 ≤ s.tbm.acceptRun := by decide +kernel

/-! O8, AlignmentErrorsAndLostTicksAreReported. -/

theorem wit_alignErr : let s : State := { State.reset with tbm.alignRun := 4 }; s.regsWf ∧ 4 ≤ s.tbm.alignRun := by decide +kernel
theorem wit_tickLost :
    let s : State := { (State.reset.setReg Reg.tbTickSrc 0x08).setFld Reg.tbCtrl 1 1 1 with tbm.running := true, tbm.missPrimary := 2 }
    s.regsWf ∧ s.follower = true ∧ s.tbm.running = true ∧ s.tbm.holdover = false ∧ s.primary ≠ 0 ∧ 2 ≤ s.tbm.missPrimary ∧
      s.secondary = 0 ∧ s.promoted 0x05 = false ∧ (s.setFld Reg.safPromote 5 1 1).promoted 0x05 = true ∧
      (s.setFld Reg.safPromote 5 1 1).regsWf ∧ (s.setFld Reg.safPromote 5 1 1).follower = true ∧
      (s.setFld Reg.safPromote 5 1 1).primary ≠ 0 ∧ (s.setFld Reg.safPromote 5 1 1).secondary = 0 := by decide +kernel

/-! O9, TickWordsSynchroniseAndDiscipline. -/

theorem wit_tickWordSync :
    let s : State := (State.reset.setReg Reg.tbTickSrc 0x01).setFld Reg.tbCtrl 5 1 1
    s.regsWf ∧ s.configured .tickIn = true ∧ tickWordOk (State.tickWord { s with tbm.fn := 7, tbm.epoch := 2, tbm.tLast := 1000 }) = true ∧
      s.regBit Reg.tbCtrl 5 = true := by decide +kernel
theorem wit_tickWordAccepted :
    let s : State := { (State.reset.setReg Reg.tbTickSrc 0x01).setFld Reg.tbCtrl 1 1 1 with
      tbm.running := true, tbm.srcActive := 1, tbm.tLast := 1000, tbm.tNext := 1001000, tbm.fn := 7 }
    let w := s.tickWord
    s.configured .tickIn = true ∧ tickWordOk w = true ∧ s.regBit Reg.tbCtrl 5 = false ∧ s.follower = true ∧ s.tbm.running = true ∧
      TickSource.tickIn.code = s.primary ∧ s.tbm.srcActive = 1 ∧ w.extractLsb' 64 32 = s.tbm.fn ∧ w.extractLsb' 96 16 = s.tbm.lastEpoch ∧
      w.extractLsb' 112 2 = s.tbm.active ∧
      (((1003 : BitVec 64).toNat : Int) - s.compensation .tickIn - s.tbm.tLast.toNat).natAbs ≤
        (((1003 : BitVec 64).toNat : Int) - s.compensation .tickIn - s.tbm.tNext.toNat).natAbs ∧
      -64 ≤ ((1003 : BitVec 64).toNat : Int) - s.compensation .tickIn - (w.extractLsb' 0 64).toNat ∧
      ((1003 : BitVec 64).toNat : Int) - s.compensation .tickIn - (w.extractLsb' 0 64).toNat ≤ 64 := by decide +kernel
theorem wit_tickWordBad : let s : State := { (State.reset.setReg Reg.tbTickSrc 0x01).setFld Reg.tbCtrl 1 1 1 with tbm.running := true }
    s.configured .tickIn = true ∧ tickWordOk 1 = false ∧ s.follower = true ∧ s.tbm.running = true := by decide +kernel

/-! O10, TicksCountFramesAndEpochs. -/

theorem wit_tickRunning : let s : State := { State.reset with tbm.running := true, tbm.cpPassed := true, tbm.fn := 0xFFFFFFFF }
    s.tickDue = true ∧ s.tbm.startDue = false ∧ s.tbm.presetArmed = false ∧
      ({ s with tbm.presetArmed := true } : State).tickDue = true ∧ ({ s with tbm.fn := 3 } : State).tickDue = true := by decide +kernel
theorem wit_tickStart : let s : State := { State.reset with tbm.startDue := true, tbm.heldEpoch := 0xFFFF }
    s.tickDue = true ∧ s.tbm.startDue = true ∧ s.tbm.presetArmed = false := by decide +kernel

/-! O11, TheHeartbeatTogglesAtEachTick. -/

theorem wit_tickHeartbeat : let s : State := { State.reset with tbm.startDue := true }
    s.tickDue = true ∧ s.saf.safe = false ∧ s.pins.vaux = true ∧ s.saf.hbA = false ∧ s.saf.hbB = false := by decide +kernel

/-! O12, CommitPointsFixTheNextFrame. -/

theorem wit_commitPoint : let s : State := { State.reset with tbm.running := true, tbm.tNext := 1000000 }
    s.tbm.running = true ∧ s.tbm.cpPassed = false ∧ s.saf.safe = false ∧ s.player.nextDone = false ∧ s.tbm.stopPending = false ∧
      ({ s with player.nextDone := true } : State).player.nextDone = true ∧ s.tbm.counting = true := by decide +kernel

/-! O13, StoppedFramesHoldFrameNumberEpochAndProfile. -/

theorem wit_framesStop : let s : State := { State.reset with tbm.running := true, tbm.stopPending := true }
    s.tbm.running = true ∧ s.tbm.stopPending = true ∧ s.tbm.restartQueued = false ∧ s.follower = false ∧ s.regsWf ∧
      ({ s with tbm.restartQueued := true } : State).follower = false := by decide +kernel

/-! O14, SegmentsStartAndHoldsResume. -/

theorem wit_segmentStart : let s : State := { State.reset with tbm.running := true }
    s.regsWf ∧ s.tbm.running = true ∧ s.saf.safe = false ∧ 32 ∈ s.segOrder ∧ 32 < s.player.ctx.length ∧ (s.ctx 32).begun = false ∧
      (∀ q ∈ s.segOrder.takeWhile (fun q => q ≠ 32), (s.ctx q).begun = true) ∧
      33 ∈ s.segOrder ∧ 33 < s.player.ctx.length ∧
      (∀ q ∈ (s.setCtx 32 { PlayCtx.init with begun := true }).segOrder.takeWhile (fun q => q ≠ 33),
        ((s.setCtx 32 { PlayCtx.init with begun := true }).ctx q).begun = true) := by decide +kernel
theorem wit_holdResume :
    let x : Sheet := sheetOf [cueOf 100 50 0 1 0 0, cueOf 200 50 0 0 0 0] []
    let s : State := (houseRuns x).setCtx 32 { (houseRuns x).ctx 32 with state := .hold, holdCue := some (.a, 0, 100, 1) }
    let s' : State := (houseRuns x).setCtx 32 { (houseRuns x).ctx 32 with state := .hold, holdCue := some (.a, 1, 200, 3) }
    (s.ctx 32).holdCue = some (.a, 0, 100, 1) ∧ s.playing 32 = some x ∧ x.cue? .a 0 = some (cueOf 100 50 0 1 0 0) ∧ Cue.gate (cueOf 100 50 0 1 0 0) = 1 ∧
      (s.ctx 32).state = .hold ∧ s.saf.safe = false ∧ 32 < s.player.ctx.length ∧ s.gateReady 1 = false ∧
      (s'.ctx 32).holdCue = some (.a, 1, 200, 3) ∧ s'.playing 32 = some x ∧ x.cue? .a 1 = some (cueOf 200 50 0 0 0 0) ∧ Cue.gate (cueOf 200 50 0 0 0 0) = 0 ∧
      (s'.ctx 32).state = .hold ∧ s'.gateReady 0 = true := by decide +kernel

/-! O15, SheetsAreLoadedCheckedAndDesignated. -/

theorem wit_sheetLoad : State.reset.regsWf ∧ State.reset.player.load = none := by decide +kernel
theorem wit_sheetLoadGood : let l : SheetLoad := ⟨3, 63, 0, 384⟩
    let s : State := { partitionReady with player.load := some l }
    s.player.load = some l ∧ s.hostBulk = true ∧ s.checkSheet l (slice fallbackImage 0 l.len) = 0 ∧
      Sparse.wf (fun _ => (none : Option Sheet)) s.player.store = true := by decide +kernel
theorem wit_sheetLoadBad : let l : SheetLoad := ⟨32, 63, 0, 320⟩
    let s : State := { State.reset with player.load := some l }
    s.player.load = some l ∧ s.hostBulk = true ∧ s.checkSheet l (slice [] 0 l.len) ≠ 0 := by decide +kernel
theorem wit_setSheetStore : State.reset.regsWf ∧ State.reset.locked .sht = false ∧ State.reset.regBit Reg.shtCtrl 0 = false := by decide +kernel
theorem wit_fallbackDesignate : State.reset.regsWf ∧ (31 ∉ State.reset.frameParts) ∧
    (State.reset.setSheet 31 5 (some { sheetOf [] [] with kind := 1 })).fallbacksOk 31 0x80000005 = true ∧
    State.reset.locked .sht = false ∧
    (State.reset.setSheet 32 5 (some { sheetOf [] [] with kind := 3 })).fallbacksOk 32 0x80000005 = true := by decide +kernel

/-! O16, ThePlayerIsEnabledAndDisabled. -/

theorem wit_playerEnable :
    let x : Sheet := { sheetOf [] [] with kind := 2 }
    let s : State := ((State.reset.setSheet 32 0 (some x)).setSheet 32 1 (some { x with kind := 3 })).setReg Reg.shtHouseFb 0x81010101
    s.regsWf ∧ s.locked .sht = false ∧ s.regBit Reg.shtCtrl 0 = false ∧ (2048, some x) ∈ s.player.store ∧ x.kind = 2 ∧
      x.profile.toNat = s.tbm.active.toNat ∧ s.hasFallback 32 s.tbm.active.toNat = true := by decide +kernel
theorem wit_playerEnableNone : State.reset.regsWf ∧ State.reset.locked .sht = false ∧ State.reset.regBit Reg.shtCtrl 0 = false ∧
    State.reset.hasFallback 32 State.reset.tbm.active.toNat = false ∧ State.reset.anyActive = false := by decide +kernel
theorem wit_playerDisableActive : let s := State.reset.setPart 7 { Partition.init with state := .active }
    s.regsWf ∧ s.locked .sht = false ∧ s.anyActive = true := by decide +kernel

/-! O17, TheDirectorsCommitsAndReviews. -/

theorem wit_directorCommit :
    let r : CommitRec := { slot := 0, bindings := [], training := [], profile := 0 }
    let s := State.reset
    s.saf.safe = false ∧ (∀ x ∈ ([(32, r), (3, r)] : List (Nat × CommitRec)), x.1 ≤ 32) ∧ (∀ x ∈ ([(32, r), (3, r)] : List (Nat × CommitRec)), x.1 = 32 → s.profileOk x.2.profile = true) ∧
      (∀ x ∈ ([(32, r), (3, r)] : List (Nat × CommitRec)), s.flexOk s.commitsLate x.1 x.2 = true) ∧
      s.commitsLate = false ∧ ({ s with tbm.running := true, tbm.cpPassed := true, tbm.ticksRun := 1 } : State).commitsLate = true ∧
      (let v := s.setSheet 32 0 (some { sheetOf [] [] with bays := [3] })
       v.flexOk v.commitsLate 32 { r with training := [0] } = false) := by decide +kernel
theorem wit_longerProfile :
    let x : Sheet := { sheetOf [] [] with profile := 1, kind := 3 }
    let y : Sheet := { sheetOf [] [] with profile := 1, kind := 2 }
    let s : State := { ((((State.reset.setReg (Reg.tbProfFrame + 8) 2000).setReg (Reg.tbProfHouse + 8) 12500).setReg Reg.shtHouseFb 0x80000100).setSheet 32 1 (some x)).setSheet 32 0 (some y) with
      tbm.running := true, player.ovrConsec := 3 }
    s.regsWf ∧ 3 ≤ s.player.ovrConsec ∧ s.follower = false ∧ s.saf.safe = false ∧ s.tbm.running = true ∧ s.nextLonger = some 1 ∧
      s.sheetsFor 1 = true ∧ s.profileOk (BitVec.ofNat 2 1) = true ∧ s.commitsLate = false ∧
      ({ State.reset with tbm.running := true, player.ovrConsec := 3 } : State).nextLonger = none := by decide +kernel
theorem wit_policyReview : let s : State := { State.reset with tbm.running := true, tbm.fn := 2048 }
    s.tbm.running = true ∧ s.fnNat % 1024 = 0 ∧ s.player.reviewFn ≠ some s.tbm.fn ∧ s.saf.safe = false ∧ s.player.cameFrom = none ∧
      Sparse.wf (fun _ => Tint.init) s.tints = true := by decide +kernel
theorem wit_policyReturn :
    let x : Sheet := { sheetOf [] [] with profile := 1, kind := 3 }
    let y : Sheet := { sheetOf [] [] with profile := 1, kind := 2 }
    let s : State := { ((((State.reset.setReg (Reg.tbProfFrame + 8) 2000).setReg (Reg.tbProfHouse + 8) 12500).setReg Reg.shtHouseFb 0x80000100).setSheet 32 1 (some x)).setSheet 32 0 (some y) with
      tbm.running := true, tbm.fn := 2048, player.cameFrom := some 1 }
    s.player.cameFrom = some 1 ∧ s.player.ovrReview = 0 ∧ s.follower = false ∧ s.profileOk 1 = true ∧ s.sheetsFor 1 = true ∧
      s.commitsLate = false ∧ s.fnNat % 1024 = 0 ∧ s.player.reviewFn ≠ some s.tbm.fn ∧ s.saf.safe = false := by decide +kernel

/-! O18, VectorWordsEncodeAndDecodeEveryInstruction. -/

theorem wit_vword : (255 : Nat) < 256 := by decide +kernel

/-! O19, ScalarInstructionsComputeModulo2To32. -/

theorem wit_scalarInstructions : ∀ op ∈ [0x08, 0x09, 0x0A, 0x0B, 0x0C, 0x0D, 0x0E, 0x0F, 0x10, 0x11, 0x12],
    (unitRuns 31 op fieldsMax).mayIssue 31 op fieldsMax = true ∧
    (((unitRuns 0 op fieldsMid).atIssue 0).unit 0).prog ≠ none ∧ (unitRuns 31 op fieldsMax).saf.safe = false ∧
      ((unitRuns 31 op fieldsMax).atIssue 31).unit 31 = (unitRuns 31 op fieldsMax).unit 31 ∧ ((unitRuns 31 op fieldsMax).unit 31).due = [] := by
  decide +kernel

/-! O20, IntegerLaneInstructionsComputeGuardedLanes. -/

theorem wit_integerInstructions : ∀ op ∈ [0x18, 0x19, 0x1A, 0x1B, 0x1C, 0x1D, 0x1E, 0x1F, 0x20, 0x21, 0x22, 0x23],
    (unitRuns 0 op fieldsMid).mayIssue 0 op fieldsMid = true ∧ (unitRuns 0 op fieldsMid).saf.safe = false ∧
      ((unitRuns 0 op fieldsMid).atIssue 0).unit 0 = (unitRuns 0 op fieldsMid).unit 0 ∧ ((unitRuns 0 op fieldsMid).unit 0).due = [] ∧ ((unitRuns 0 op fieldsMid).unit 0).prog ≠ none ∧
      fieldsMid.imm.toNat < 6 := by decide +kernel

/-! O21, FloatLaneInstructionsComputeGuardedLanes. -/

theorem wit_floatInstructions : ∀ op ∈ [0x28, 0x29, 0x2A, 0x2B, 0x2C, 0x2D, 0x2E, 0x2F, 0x30, 0x31, 0x32, 0x33, 0x34, 0x35, 0x36],
    (unitRuns 7 op fieldsMid).mayIssue 7 op fieldsMid = true ∧ (unitRuns 7 op fieldsMid).saf.safe = false ∧
      ((unitRuns 7 op fieldsMid).atIssue 7).unit 7 = (unitRuns 7 op fieldsMid).unit 7 ∧ ((unitRuns 7 op fieldsMid).unit 7).due = [] := by
  decide +kernel

/-! O22, MovesAndPredicatesComputeTheirRegisters. -/

theorem wit_moveInstructions : ∀ op ∈ [0x00, 0x38, 0x39, 0x3A, 0x3B, 0x3C, 0x3D, 0x40, 0x41, 0x42, 0x43],
    (unitRuns 1 op fieldsMid).mayIssue 1 op fieldsMid = true ∧ (unitRuns 1 op fieldsMid).saf.safe = false ∧
      ((unitRuns 1 op fieldsMid).atIssue 1).unit 1 = (unitRuns 1 op fieldsMid).unit 1 ∧ ((unitRuns 1 op fieldsMid).unit 1).due = [] := by
  decide +kernel

/-! O23, ReductionsAndConversionsHaveTheirResults. -/

theorem wit_reductionInstructions : ∀ op ∈ [0x48, 0x49, 0x4A, 0x4B, 0x50, 0x51, 0x52, 0x53],
    (unitRuns 30 op fieldsMid).mayIssue 30 op fieldsMid = true ∧ (unitRuns 30 op fieldsMid).saf.safe = false ∧
      ((unitRuns 30 op fieldsMid).atIssue 30).unit 30 = (unitRuns 30 op fieldsMid).unit 30 ∧
      ((unitRuns 30 op fieldsMid).unit 30).due = [] := by decide +kernel
theorem wit_conversions : ∀ sem ∈ [semCvtn 30 fieldsMid, semCvtw fieldsMid, semFtoi 30 fieldsMid],
    (sem ((unitRuns 30 0x50 fieldsMid).atIssue 30) (((unitRuns 30 0x50 fieldsMid).atIssue 30).unit 30)).isSome = true := by decide +kernel

/-! O24, MemoryInstructionsReachTierFUnderTheAccessRules. -/

theorem wit_memoryInstructions : ∀ op ∈ [0x13, 0x14, 0x58, 0x59, 0x5A, 0x60, 0x61],
    (unitRuns 3 op fieldsMem).mayIssue 3 op fieldsMem = true ∧ (unitRuns 3 op fieldsMem).saf.safe = false ∧
      ((unitRuns 3 op fieldsMem).atIssue 3).unit 3 = (unitRuns 3 op fieldsMem).unit 3 ∧ ((unitRuns 3 op fieldsMem).unit 3).due = [] ∧
      (unitRuns 3 op fieldsMem).unit 3 = ((unitRuns 3 op fieldsMem).unit 3) ∧
      (((unitRuns 3 op fieldsMem).atIssue 3).unitPlace ((unitRuns 3 op fieldsMem).unit 3) (((unitRuns 3 op fieldsMem).unit 3).sReg 0).toNat).plus fieldsMem.imm.toNat
        = .at_ 4 ∧
      ((unitRuns 3 op fieldsMem).atIssue 3).accessOk ((unitRuns 3 op fieldsMem).unit 3).owner false (.at_ 4) 4 = false ∧
      (((unitRuns 3 op fieldsMem).setBank 0 bankOn).atIssue 3).accessOk ((unitRuns 3 op fieldsMem).unit 3).owner true (.at_ 4) 4 = true ∧
      (((unitRuns 3 op fieldsMem).setBank 0 bankOn).atIssue 3).accessOk ((unitRuns 3 op fieldsMem).unit 3).owner false (.at_ 4) 4 = true ∧
      ((unitRuns 3 op fieldsMem).setBank 0 bankOn).mayIssue 3 op fieldsMem = true ∧
      ((unitRuns 3 op fieldsMem).atIssue 3).clashAt ((unitRuns 3 op fieldsMem).unit 3).owner 3 (vword 0x13 fieldsMem) = false ∧
      ((unitRuns 3 op fieldsMem).unit 3).prog = some 9 ∧
      (let s := ((unitRuns 3 op fieldsMem).setBank 0 bankOn).atIssue 3
       let t := s.unitRead (s.unit 3) ((Place.at_ 4).run 4)
       (t.unit 3).cycle = ((unitRuns 3 op fieldsMem).unit 3).cycle ∧ (t.unit 3).prog ≠ none ∧ (t.unit 3).due = []) := by decide +kernel
theorem wit_tileInstructions : ∀ sem ∈ [semTld fieldsMem, semTst fieldsMem, semTfin 3 fieldsMem, semRng 3 fieldsMem],
    (sem (((unitRuns 3 0x58 fieldsMem).setBank 0 bankOn).atIssue 3)
      ((((unitRuns 3 0x58 fieldsMem).setBank 0 bankOn).atIssue 3).unit 3)).isSome = true := by decide +kernel

/-! O25, ProgramsLoopAndEnd. -/

theorem wit_controlInstructions : ∀ op ∈ [0x01, 0x02],
    (unitRuns 0 op fieldsMid).mayIssue 0 op fieldsMid = true ∧ (unitRuns 0 op fieldsMid).saf.safe = false ∧
    (unitRuns 31 op fieldsMax).mayIssue 31 op fieldsMax = true ∧
    (((unitRuns 0 op fieldsMid).atIssue 0).unit 0).prog ≠ none := by decide +kernel

/-! O26, MatrixShotsAccumulateInAscendingOrder. -/

theorem wit_mma :
    let c := cueOf 128 64 0 0 0 0
    let x := sheetOf [c, cueOf 300 64 0 0 1 0] [mmaShot]
    let s := (houseRuns x).setBank 0 bankOn
    s.mayStart 32 .a 0 x c (fun d => d.f 0 1 = 0 && d.op = 1) 128 ∧
      (let s' := s.started 32 .a 0 c 128
       let b := s'.cueBinding 32 c
       let runs := (s'.shotAccesses mmaShot b).flatMap fun e => if e.2.2 = true then [] else e.1.run e.2.1
       let r := (s'.usePort (mkUse Rq.grid 32 false runs (s'.cycleT 32 128) (s'.cycleT 32 (128 + Shot.kCycles mmaShot)))).shotRead 32 c runs
       ((s'.ctx 32).startOf .a 0).getD 0 = 128 ∧
       ((s'.shotAccesses mmaShot b).all fun e => s'.accessOk 32 e.2.2 e.1 e.2.1) = true ∧
       (s'.tile (Shot.tile mmaShot)).collides mmaShot 128 = false ∧ (r.ctx 32).state ≠ .void ∧ r.grid.tiles.length = 4 ∧
       Sparse.wf (fun _ => (0 : Word)) r.grid.acc = true) ∧
      Shot.tilesM mmaShot * Shot.tilesN mmaShot ≤ 640 := by
  refine ⟨⟨by decide +kernel, by decide +kernel, by decide +kernel, by decide +kernel, by decide +kernel, by decide +kernel, by decide +kernel, by decide +kernel, by decide +kernel, Or.inr (by decide +kernel)⟩, by decide +kernel, by decide +kernel⟩

/-! O27, DrainsFollowTheLastShot. -/

theorem wit_shotEnd :
    let x := sheetOf [cueOf 128 64 0 0 0 0] [mmaShot]
    let s := (houseRuns x).setTile 1 { AccTile.init with state := .acc, shot := some (32, 0) }
    s.playing 32 = some x ∧ x.cue? .a 0 = some (cueOf 128 64 0 0 0 0) ∧ x.shot (cueOf 128 64 0 0 0 0) = mmaShot ∧
      (s.tile (Shot.tile mmaShot)).state = .acc ∧ (s.tile (Shot.tile mmaShot)).shot = some (32, 0) ∧ Shot.last mmaShot = true ∧
      s.grid.tiles.length = 4 := by decide +kernel
theorem wit_drainEnd :
    let dr : Drain := { tile := 1, owner := 32, seg := 32, shot := mmaShot, binding := none, bay := none, nibbles := [], acc := [], shadow := [], endCyc := 0, startTb := 0, fn := 0, lane := false }
    let s := (State.reset.setTile 1 { AccTile.init with state := .drain })
    let s : State := { s with grid.drains := [dr] }
    let a := ((s.drainRuns dr).headD (0, 0)).1
    let h : State := { s with vec.stores := [(32, 0, a, 32)] }
    s.grid.drains.find? (fun d => d.tile = 1) = some dr ∧ s.ports = [] ∧ s.player.jobs = [] ∧ h.regsWf ∧ s.grid.drains.erase dr = [] ∧ 1 < s.grid.tiles.length ∧ (s.tile 1).state = .drain ∧
      (s.toDrainEnd dr).drainHits dr = [] ∧ h.grid.drains.find? (fun d => d.tile = 1) = some dr ∧ (h.toDrainEnd dr).drainHits dr = [a] := by
  decide +kernel

/-! O28, VectorCuesStartTheirUnits. -/

theorem wit_vectorCues : ∀ op ∈ [1, 2, 3],
    let c := cueOf 128 1024 1 0 0 0
    let x : Sheet := { sheetOf [] [vShot op] with cues := [[], [c], [], []] }
    let s := houseRuns x
    s.mayStart 32 .v 0 x c (fun d => d.f 0 1 = 1 && d.op = op) 128 ∧ s.vec.units.length = 32 ∧
      (s.started 32 .v 0 c 128).regBit Reg.vecCtrl 0 = true ∧ (s.started 32 .v 0 c 128).unitGrey (s.fnNat % 32) = false ∧
      31 ∈ Shot.unitList (vShot 1) := by
  unfold State.mayStart; decide +kernel

/-! O29, TheBuiltInTestPassesOrFencesItsUnit. -/

theorem wit_katVerdict : let s : State := { State.reset with vec.katParts := 12 }
    s.regsWf ∧ s.vec.katResult = 2 ∧ 11 < s.vec.katParts ∧ (s.ctx 32).state ≠ .void ∧ s.saf.safe = false ∧ s.promoted 0x02 = false ∧
      (s.setFld Reg.safPromote 2 1 1).promoted 0x02 = true ∧ s.unitGrey 31 = false ∧ 31 ∉ s.vec.greyNext ∧ s.locked .vec = false ∧
      s.anyActive = false ∧ s.regBit Reg.vecCtrl 0 = true := by decide +kernel

/-! O30, ProgramsAreLoadedCheckedAndCleared. -/

theorem wit_programLoad :
    let f : VFields := { pg := 0, d := 0, a := 0, b := 0, c := 0, imm := 0 }
    let img := leBytes 8 (vword 0 f).toNat ++ leBytes 8 (vword 1 f).toNat
    let s : State := { State.reset with vec.load := some (63, 0, 2) }
    s.vec.load = some (63, 0, 2) ∧ s.hostBulk = true ∧ Sparse.wf (fun _ => (none : Option Program)) s.vec.slots = true ∧
      (s.checkProgram 63 (slice img 0 16) 2).1 = 0 ∧ (s.checkProgram 63 (slice img 0 16) 2).2.isSome = true ∧
      s.checkProgram 63 (slice [] 0 16) 2 = (0x03, none) ∧ State.reset.vec.load = none ∧ State.reset.regsWf ∧ s.progInUse 63 = false ∧
      (State.reset.setSheet 32 0 (some (sheetOf [] [vShot 1]))).progInUse 9 = true := by decide +kernel

/-! O31, ArrayFencesAndTheCheckSwitch. -/

theorem wit_arrayFence : State.reset.freeSpares.isEmpty = false ∧ State.reset.physState (State.reset.physOf 2559) ≠ 2 ∧
    (State.reset.setPhys (State.reset.physOf 2559) 2).physState (State.reset.physOf 2559) = 2 ∧
    Sparse.wf (fun p => if p % 672 < 640 then 0 else 1) State.reset.grid.phys = true ∧ State.reset.regsWf ∧ State.reset.locked .grd = false ∧
    State.reset.anyActive = false ∧ State.reset.checking = true ∧
    (State.reset.setPart 0 { Partition.init with state := .active }).anyActive = true ∧
    (State.reset.setPart 0 { Partition.init with state := .active }).locked .grd = false := by decide +kernel

/-! O32, CuesEndOnTheirTracks. -/

theorem wit_cueEnd : ∀ k ∈ [Track.a, .v, .m],
    let c := cueOf 128 1024 (match k with | .a => 0 | .v => 1 | _ => 2) 0 0 0
    let x : Sheet := { sheetOf [] [vShot 1] with cues := [if k = .a then [c] else [], if k = .v then [c] else [], if k = .m then [c] else [], []] }
    let s := houseRuns x
    let s := s.setCtx 32 { s.ctx 32 with started := [(k, 0, 128)] }
    s.playing 32 = some x ∧ x.cue? k 0 = some c ∧ (s.ctx 32).startOf k 0 = some 128 ∧ (k, 0) ∉ (s.ctx 32).ended ∧ s.saf.safe = false ∧
      Shot.op (x.shot c) = 1 ∧ s.vec.units.length = 32 ∧ s.regsWf ∧ (∀ u < 32, (s.unit u).due = []) := by decide +kernel
theorem wit_cueEnd_late :
    let m : Mover := { owner := 32, cue := 0, op := 2, startTb := 0, tint := 0, rate := 0, tiles := [(1, 0, 0, 9)], onStacks := [], hStart := 0, until_ := none }
    m.owner = 32 ∧ m.cue = 0 ∧ m.endTb = none := by decide +kernel
theorem wit_cueEnd_kat :
    let c := cueOf 128 384 1 0 0 0
    let x : Sheet := { sheetOf [] [vShot 2] with cues := [[], [c], [], []] }
    let s := houseRuns x
    let s := s.setCtx 32 { s.ctx 32 with started := [(.v, 0, 128)] }
    s.playing 32 = some x ∧ x.cue? .v 0 = some c ∧ (x.shot c).op = 2 ∧ (s.ctx 32).startOf .v 0 = some 128 ∧ (Track.v, 0) ∉ (s.ctx 32).ended ∧
      s.saf.safe = false ∧ s.vec.units.length = 32 := by decide +kernel

/-! O33, ReelCuesFetchStripesOfTheNextLayer. -/

theorem wit_reel :
    let c := cueOf 128 1024 2 0 0 0
    let x := mSheet c (mShot 1 0 0 1 0 0 0 0)
    let l : PlatePart := { emptyPart with tiles := 11, fmt := 4, blk := 0, data := [] }
    let p : Plate := { plateOf 3 false with layers := [l, l, l, l] }
    let s : State := { houseRuns x with plate.plate := some p }
    let s := s.setBank 0 bankOn
    s.mayStart 32 .m 0 x c (fun d => d.f 0 1 = 2 && d.op = 1) 128 ∧
      (let s' := s.started 32 .m 0 c 128
       let d := x.shot c
       let b := s'.reelBuffer (Shot.mReverse d)
       s'.plate.plate = some p ∧ p.resident = false ∧ s'.reelTarget (!Shot.mReverse d) ≠ s'.reelTarget (Shot.mReverse d) ∧
        s'.bufBegun b (s'.reelTarget (Shot.mReverse d)) = false ∧ s'.accessBanks (s'.bufRun b l) = true ∧ s'.ports = [] ∧
        s'.tiers.bufs.length = 4 ∧
        1 ≤ Shot.mCount d ∧ Shot.mFirst d + Shot.mCount d ≤ (p.layers.getD (s'.reelTarget (Shot.mReverse d)) p.embed).stripes) := by
  unfold State.mayStart; decide +kernel
theorem wit_layerFetchDone : ∀ m ∈ [0, 1],
    let l : PlatePart := { emptyPart with tiles := 0, data := [], digest := sha512 [] }
    let p : Plate := { plateOf 3 false with layers := [l, l, l] }
    let s : State := { State.reset with plate.plate := some p }
    let s := s.setBuf 0 { LayerBuf.init with layer := some 1, stripes := [], startTb := 100, endTb := 400, misses := m }
    let r := ((s.advance 400).readStripes 1 l).writeLayer 0 1 l
    s.plate.plate = some p ∧ s.arrived false = some 0 ∧ (s.buf 0).layer = some 1 ∧ (s.buf 0).misses = m ∧ (s.buf 0).endTb = 400 ∧
      r.regsWf ∧ r.tiers.bufs.length = 4 ∧ r.saf.safe = false ∧ r.ports = [] ∧ r.promoted 0x0E = false ∧
      sha512 (r.fetchedData 1 l) = l.digest := by decide +kernel

/-! O34, MoversStartInTheirCues. -/

theorem wit_movers : ∀ op ∈ [2, 3, 4, 5, 6, 7],
    let c := cueOf 128 1024 2 0 0 0
    let x := mSheet c (mShot op 2 0 1 1 0 0 (if op = 6 then 1 else 0))
    let s := (houseRuns x).setBank 0 bankOn
    let s := s.setCtx 32 { s.ctx 32 with bindings := [{ bay := 0, tint := 0, items := [], count := 0, tokenRef := 0, gen := 0 }] }
    s.mayStart 32 .m 0 x c (fun d => d.f 0 1 = 2 && d.op = op) 128 ∧
      (let s' := s.started 32 .m 0 c 128
       s'.accessOk 32 true (s'.mArea 32 c (x.shot c)).1 (s'.mArea 32 c (x.shot c)).2 = true ∧ (s'.moveBinding 32 c (x.shot c)).isSome = true ∧
        s'.memoryWf ∧ s'.hostWf ∧ s'.ports = [] ∧ s'.tiers.fErr = [] ∧
        Sparse.wf (fun _ => Ses.init) s'.ses = true ∧ s'.tiers.stackFree.length = 12 ∧ s'.upd.length = 12 ∧ s'.sets.length = 33 ∧
        s'.isResident = false ∧ s'.player.reelPos + 1 ≠ s'.layerCount) := by
  unfold State.mayStart; decide +kernel

/-! O35, BankRequestsAreCheckedAndRunTheirSequences. -/

theorem wit_bankRequest :
    let s := State.reset.setBank 5 bankOn
    fld (0x2001 : Word) 8 6 = 32 ∧ fld (0x2001 : Word) 0 2 = 1 ∧ (s.bank 5).state = .on ∧ (s.bank 5).written = (.on, 32) ∧
      bitOf (0x2001 : Word) 14 = false ∧ fld (0x2003 : Word) 0 2 = 3 ∧
      ((s.setBank 6 { bankOn with state := .queuedOn, endTb := some 9 }).bank 6).state = .queuedOn ∧
      ((s.setBank 6 { bankOn with state := .queuedOn, endTb := some 9 }).bank 6).written = (.on, 32) ∧
      ({ s with tiers.winBase := 5, tiers.winBanks := 1 } : State).bankHeld 5 = true := by decide +kernel
theorem wit_bankEffect : ∀ k ∈ [BankState.off, .on, .ret], ∀ o ∈ [32, 7], ∀ r ∈ [BankReq.off, .on, .ret],
    let s := State.reset.setBank 5 { bankOn with state := k, owner := o, next := some (r, 32), due := true }
    (s.bank 5).next = some (r, 32) ∧ (s.bank 5).due = true ∧ (s.bank 5).endTb = none ∧ (s.bank 5).state = k ∧ (s.bank 5).owner = o ∧
      Sparse.wf (fun _ => Bank.init) s.banks.bank = true := by decide +kernel
theorem wit_bankDone : ∀ k ∈ [BankState.goingOff, .queuedOn, .waking, .on, .ret],
    let s := State.reset.setBank 5 { bankOn with state := k, target := .on, endTb := some 700 }
    (s.bank 5).endTb = some 700 ∧ (s.bank 5).state = k ∧ Sparse.wf (fun _ => Bank.init) s.banks.bank = true ∧ s.memoryWf := by
  decide +kernel

/-! O36, PatrolScrubCountsAndFencesItsBank. -/

theorem wit_patrolScrub :
    let s := State.reset.setBank 1535 { bankOn with scrub := 524287 }
    (s.bank 1535).state = .on ∧ (s.bank 1535).fence = 0 ∧ Sparse.wf (fun _ => Bank.init) s.banks.bank = true ∧ s.regsWf ∧
      (s.bank 1535).scrub < 524288 := by decide +kernel

/-! O37, StacksAreScrubbedInTheirGaps. -/

theorem wit_gap : ∀ p ∈ [0, 1610612735],
    let s := State.reset.setNmd 11 { Nmd.init with state := .live, patrol := p, rowSeen := [9], rowRuns := [(7, 4)] }
    s.gap 11 0 = true ∧ s.regsWf ∧ s.nmd.length = 12 ∧ (s.nmdOf 11).patrol = p ∧ (s.nmdOf 11).state = .live ∧
      Sparse.get (fun _ => EccResult.clean) (s.nmdOf 11).errs p = .clean ∧ s.heldAt 11 0 = .nothing ∧ (s.nmdOf 11).ueSpan = 0 ∧
      1 < max 1 ((s.setFld Reg.nmdCtrl 0 8 2).regFld Reg.nmdCtrl 0 8) ∧
      (s.nmdOf 11).patrolLate = false ∧ (((s.nmdOf 11).rowRuns.find? fun e => e.1 = 7).map fun e => e.2).getD 0 = 4 ∧
      (let s : State := { s with tbm.tb := BitVec.ofNat 64 (3600000000000 * 31 + 1) }
       (s.nmdOf 11).passTb + 3600000000000 * s.regFld Reg.nmdCtrl 8 5 < s.now) := by decide +kernel

/-! O38, StacksRetrainAndAreFencedAndLost. -/

theorem wit_retrain :
    let s := State.reset.setNmd 11 { Nmd.init with state := .live }
    let s : State := { s with tbm.running := true }
    (s.nmdOf 11).state = .live ∧ s.tbm.running = true ∧ s.fnNat % 1024 = 0 ∧ (s.nmdOf 11).retrainWait = none ∧ s.regsWf ∧ s.memoryWf ∧
      s.nmd.length = 12 ∧ s.upd.length = 12 ∧ s.tiers.anyLost = false ∧ s.promoted 0x04 = false ∧ s.saf.safe = false ∧
      (let s := s.setNmd 11 { Nmd.init with state := .live, retrainWait := some 1025 }
       s.gap 11 50000 = true ∧ (s.nmdOf 11).retrainWait = some 1025 ∧ (s.nmdOf 11).retrainLate = false) := by decide +kernel
theorem wit_lost :
    let s : State := { State.reset with tiers.anyLost := true }
    let u := ((State.reset.setNmd 3 { Nmd.init with state := .grey }).setTint 2 { Tint.init with state := .cold, stack := 3 }).setSes 9
      { Ses.init with state := .opened, home := 3 }
    (s.nmdOf 3).state ≠ .grey ∧ s.tiers.anyLost = true ∧ s.saf.safe = false ∧ (u.nmdOf 3).state = .grey ∧ u.upd.length = 12 ∧
      Sparse.wf (fun _ => Tint.init) u.tints = true ∧ Sparse.wf (fun _ => Ses.init) u.ses = true ∧ (u.tintOf 2).state ≠ .free ∧
      (u.tintOf 2).stack = 3 ∧ (u.sesOf 9).home = 3 ∧ (u.sesOf 9).state = .opened := by decide +kernel

/-! O39, UpdateEnginesRunTheirCommands. -/

theorem wit_updFront : ∀ e ∈ [(1, BatchPhase.pass1), (2, .pass2), (3, .pass1)],
    let s := updSample e.1 e.2
    let k := (s.updOf 3).queue.headD 0
    let m : Mat := { param := 100, stats := 101, rows := 1, cols := 64, layer := 0, lazy := false }
    s.frontCmd 3 e.1 = some k ∧ s.cmdOk 3 k = true ∧ (e.1 = 3 ∨ s.passMayStart (updF k 2 2) e.2 (updStacks 3 k) = true) ∧
      s.cmdMat k = some m ∧ (s.obj m.param).isSome = true ∧ s.upd.length = 12 ∧ Sparse.wf (fun _ => Tint.init) s.tints = true ∧ s.memoryWf ∧
      updF k 0x2C 4 < 2147483648 := by decide +kernel
theorem wit_updBad : ∀ op ∈ [1, 2, 3],
    let s := updSample op .pass1
    let s := s.setUpd 3 { s.updOf 3 with queue := [(s.updOf 3).queue.headD 0 ||| BitVec.ofNat 512 (2 ^ 168)] }
    let k := (s.updOf 3).queue.headD 0
    s.frontCmd 3 op = some k ∧ s.cmdOk 3 k = false ∧ s.upd.length = 12 ∧ s.memoryWf ∧ updF k 0x2C 4 < 2147483648 := by decide +kernel
theorem wit_updDone : ∀ op ∈ [1, 2],
    let s := updSample op .pass1
    let k := (s.updOf 3).queue.headD 0
    let s := s.setUpd 3 { s.updOf 3 with running := true, slotTb := some 500, result := some ([7], 1) }
    (s.updOf 3).queue = [k] ∧ (s.updOf 3).result = some ([7], 1) ∧ (s.updOf 3).slotTb = some 500 ∧ (s.updOf 3).running = true ∧
      (s.updOf 3).paused = false ∧ (match s.updCueEnd (updStacks 3 k) with
        | some e => decide (500 + (s.passNs k - (s.updOf 3).doneNs) ≤ e)
        | none => false) = true ∧ s.saf.safe = false ∧ s.ports = [] ∧ s.memoryWf ∧ s.regsWf ∧ updF k 0x2C 4 < 2147483648 ∧ updF k 0 1 = op ∧
      ({ s with tbm.cpPassed := true } : State).tbm.cpPassed = true ∧ s.tintsWith 3 1 = (if op = 1 then [5] else []) := by decide +kernel

/-! O40, PlatesAreLoadedCheckedAndUnloaded. -/

theorem wit_plateRefused :
    let s := State.reset.setReg Reg.shtCtrl 1
    let u : State := { State.reset with plate.plate := some (plateOf 1 true) }
    s.plate.load = none ∧ s.plate.asking = none ∧ s.regBit Reg.shtCtrl 0 = true ∧ State.reset.regBit Reg.shtCtrl 0 = false ∧
      State.reset.regBit Reg.tntPlateCtrl 2 = false ∧ State.reset.regsWf ∧ State.reset.judgeManifest [] true ≠ 0 ∧ u.plate.plate.isSome = true ∧
      u.anyActive = false := by decide +kernel
theorem wit_plateEnd :
    let l : PlateLoad := { plate := plateOf 1 true, port := none, done := [0, 1, 2], missed := [] }
    let s : State := { State.reset with plate.load := some l }
    let s := s.setTint 7 { Tint.init with state := .dormant }
    s.plate.load = some l ∧ l.plate.layers.length + 2 ≤ l.done.length ∧ s.plateBanksOn l.plate = true ∧
      Sparse.wf (fun _ => Tint.init) s.tints = true ∧ s.fullParam = none ∧ s.regsWf ∧ (s.tintOf 7).state = .dormant ∧
      (s.tintOf 7).plate = l.plate.digest ∧ s.regBit Reg.shtCtrl 0 = false ∧ s.anyActive = false := by decide +kernel
theorem wit_platePart :
    let l : PlateLoad := { plate := plateOf 1 true, port := none, done := [0], missed := [] }
    let s : State := { State.reset with plate.load := some l, sec.plateKey := some (5, 0) }
    s.plate.load = some l ∧ l.port = none ∧ l.done.length < l.plate.layers.length + 2 ∧ l.done.length ∉ l.done ∧
      s.sec.plateKey = some (5, l.plate.digest) ∧ openPart 5 (l.plate.partStream 1) 0 (packedSize 4 0) [] = some [] ∧
      sha512 ([] : Blob) ≠ (l.plate.part (l.plate.partStream 1)).digest := by decide +kernel
theorem wit_distTimeout :
    let d : Dist := { receiver := true, since := some 5, relay := none, stream := 0, got := [], resend := [] }
    let s := State.reset.setPort 7 { Port.init with use := .dist, dist := some d }
    (s.port 7).dist = some d ∧ s.regsWf ∧ s.reel.port.length = 8 := by decide +kernel
theorem wit_plateSound :
    let s : State := { State.reset.setReg Reg.tntPlateLen 5 with sec.pubs := [sha512 (beBytes 512 sampleModulus)] }
    s.plate.load = none ∧ s.plate.asking = none ∧ s.regBit Reg.shtCtrl 0 = false ∧ s.plate.plate = none ∧
      s.regBit Reg.tntPlateCtrl 2 = false ∧ s.judgeManifest sampleManifest true = 0 ∧ s.regsWf := by decide +kernel

/-! O41, TintsAreRegisteredLoadedEvictedAndWithdrawn. -/

theorem wit_tintRegister :
    let i := itemOf 0x10 [(0x10, 2, 6)]
    let s := itemState i
    let s : State := { s with sec.part := s.sec.part.set 3 { imp := some 77, generating := false, tierH := none } }
    s.fresh keyOf3 0x10 = some i ∧ s.tintInRange 3 (i.field 0x10 2) = true ∧ (s.tintOf (i.field 0x10 2)).state = .free ∧
      s.sec.part[3]? = some { imp := some 77, generating := false, tierH := none } ∧ Sparse.wf (fun _ => Tint.init) s.tints = true := by
  decide +kernel
theorem wit_tintLoad : ∀ op ∈ [0x11, 0x12],
    let i := itemOf op [(0x10, 2, 5), (0x12, 2, if op = 0x11 then 0xFFFF else 1)]
    let s := itemState i
    s.fresh keyOf3 op = some i ∧ i.field 0x10 2 = 5 ∧ s.registered 3 5 = true ∧
      s.earlier keyOf3 i (fun op => op = 0x11 || op = 0x12) = false ∧ (s.tintOf 5).state = .cold ∧
      (match s.claimSlot 5 none 0 with | .ok h => decide (h = 0) | .error _ => false) = true ∧
      (match s.claimSlot 5 (some 1) 0 with | .ok h => decide (h = 1) | .error _ => false) = true ∧
      (match s.claimSlot 5 (some 1) 4 with | .ok _ => false | .error e => decide (e = 0x11)) = true ∧
      Sparse.wf (fun _ => Tint.init) s.tints = true ∧ Sparse.wf (fun _ => HotSlot.init) s.slots = true ∧ s.saf.safe = false ∧
      (op = 0x12 → i.field 0x12 1 % 2 = 1) ∧
      (let s := s.setTint 5 { s.tintOf 5 with state := .hot, slot := some 0 }
       s.registered 3 5 = true ∧ (s.tintOf 5).state = .hot) := by decide +kernel
theorem wit_tintEnds :
    let s := (itemState (itemOf 0x13 [(0x10, 2, 5)])).setSlot 0 { HotSlot.init with tint := some 5 }
    let e := s.setTint 5 { s.tintOf 5 with state := .hot, slot := some 0, evict := some .due }
    let c := s.setTint 5 { s.tintOf 5 with state := .evicting, slot := some 0 }
    let l := s.setTint 5 { s.tintOf 5 with state := .loading, slot := some 0, hotDue := true }
    let w := s.setTint 5 { s.tintOf 5 with withdraw := some .due }
    let r := s.setTint 6 { Tint.init with state := .registering, regItem := some keyOf3 }
    s.fresh keyOf3 0x13 = some (itemOf 0x13 [(0x10, 2, 5)]) ∧ s.registered 3 5 = true ∧ (s.tintOf 5).evict = none ∧ (s.tintOf 5).withdraw = none ∧
      (itemState (itemOf 0x14 [(0x10, 2, 5)])).fresh keyOf3 0x14 = some (itemOf 0x14 [(0x10, 2, 5)]) ∧
      (e.tintOf 5).evict = some .due ∧ (e.tintOf 5).withdraw ≠ some .due ∧ (e.tintOf 5).state = .hot ∧
      Sparse.wf (fun _ => Ses.init) s.ses = true ∧ (c.tintOf 5).state = .evicting ∧ (c.tintOf 5).slot = some 0 ∧ (c.tintOf 5).queued = none ∧
      c.inPassageWith 3 5 = false ∧ c.memoryWf ∧ (l.tintOf 5).hotDue = true ∧ (w.tintOf 5).withdraw = some .due ∧
      (r.tintOf 6).regItem = some keyOf3 ∧ (r.tintOf 6).state = .registering ∧
      ((r.item? keyOf3).map fun i => i.done) = some none ∧
      ((s.setTint 5 { s.tintOf 5 with state := .withdrawing }).tintOf 5).state = .withdrawing := by decide +kernel

/-! O42, SessionsOpenServeAndClose. -/

theorem wit_sessionRoom : (itemState (itemOf 0x18 [(0x10, 2, 4), (0x12, 2, 5)])).sessionRoom 3 = true := sample_room _
theorem wit_sessionOpen :
    let i := itemOf 0x18 [(0x10, 2, 4), (0x12, 2, 5)]
    let s := itemState i
    let b := itemOf 0x18 [(0x10, 2, 4), (0x12, 2, 8)]
    let j := itemOf 0x19 [(0x10, 2, 4)]
    let u := (itemState j).setSes 4 { Ses.init with state := .opened, owner := 3, tint := 5 }
    s.fresh keyOf3 0x18 = some i ∧ s.sessionPlacement 3 0xFFFF (i.field 0x14 4) = none ∧ s.mayLease 3 5 = true ∧ i.field 0x12 2 = 5 ∧
      i.field 0x10 2 = 4 ∧ s.ctxInRange 3 4 = true ∧ (s.sesOf 4).state = .free ∧ Sparse.wf (fun _ => Ses.init) s.ses = true ∧
      (itemState b).fresh keyOf3 0x18 = some b ∧ (itemState b).mayLease 3 (b.field 0x12 2) = false ∧
      u.fresh keyOf3 0x19 = some j ∧ j.ctxNo = 4 ∧ (u.sesOf 4).state = .opened ∧ (u.sesOf 4).close = none ∧
      Sparse.wf (fun _ => Ses.init) u.ses = true ∧
      ((u.setSes 4 { u.sesOf 4 with close := some .due }).sesOf 4).close = some .due ∧
      ((u.setSes 4 { u.sesOf 4 with state := .closing }).sesOf 4).queued = none := by decide +kernel
theorem wit_serve : ∀ op ∈ [1, 2], ∀ n ∈ [0, 16777215, 16777216],
    let i := itemOf op [(0x10, 2, 4), (0x14, 4, if op = 1 then 7 else n % 16777216), (0x1C, 4, if op = 1 then 0 else 1)]
    let s := (itemState i).setSes 4 { Ses.init with state := .opened, owner := 3, tint := 5, positions := n, sExt := 1 }
    s.fresh keyOf3 op = some i ∧ s.sessionEarlier keyOf3 i = false ∧ (match s.serveCheck keyOf3 i with | .ok t => t == 5 | .error _ => false) = true ∧
      s.tokenOk 5 7 = true ∧ Sparse.wf (fun _ => Ses.init) s.ses = true ∧ s.sessionHead 3 i.ctxNo = some keyOf3 ∧ i.ctxNo = 4 ∧
      (op = 2 → i.field 0x14 4 % 16777216 = n % 16777216 ∧ i.field 0x1C 4 = 1) ∧ s.regsWf ∧
      (n = 0 → (s.place 4 (i.field 0x18 4)).growRoom 4 1 = true) := by decide +kernel
theorem wit_noRoom :
    let s := (itemState (itemOf 1 [(0x10, 2, 4), (0x14, 4, 7)])).setSes 4 { Ses.init with state := .opened, owner := 3, tint := 5, positions := 4096, sExt := 1 }
    let s : State := { s with plate.plate := some (plateOf 1 true) }
    let s := s.setPart 3 { s.part 3 with alloc := { (s.part 3).alloc with sGib := 0 } }
    s.growRoom 4 4097 = false := by
  intro s1 s2 s
  have hk : ∀ f b, 1 ≤ packedSize f b := by
    intro f b; unfold packedSize rowBytes fmtBits; repeat' split
    all_goals omega
  have h : 1 ≤ s.extentBytes := Nat.mul_pos (by decide +kernel) (hk _ _)
  unfold State.growRoom State.sRoom
  have h0 : (s.part (s.sesOf 4).owner).alloc.sGib = 0 := by decide +kernel
  have h1 : extentsAt 4097 - ((s.sesOf 4).sExt + (s.sesOf 4).hExt) = 1 := by decide +kernel
  simp only [h0, h1]; simp; omega

/-! O43, InsertProgramsArePinnedAndRunInTheirWindows. -/

theorem wit_insertPin :
    let s := (((itemState (itemOf 0 [])).setReg Reg.sesInsLen 4288).setReg Reg.sesInsRef 0).setBank 0 { bankOn with owner := 3 }
    let s : State := { s with ins.pinning := some (5, 3) }
    State.reset.ins.pinning = none ∧ State.reset.regsWf ∧ s.ins.pinning = some (5, 3) ∧ s.ownerExists 3 = true ∧
      (s.reg Reg.sesInsLen).toNat = 4288 ∧ s.regFld Reg.sesInsRef 0 31 = 0 ∧ insertImageOk (slice insertImage 0 4288) 4288 = true ∧
      s.pin 5 = none ∧ banksOf 0 4288 = [0] ∧ (s.bank 0).owner = 3 ∧ s.regsWf ∧ s.memoryWf ∧
      Sparse.wf (fun _ => (none : Option Pin)) s.ins.pins = true ∧ s.pinBusy 5 = false := by decide +kernel
theorem wit_insert :
    let s := insertState
    let i := itemOf 0x20 [(0x10, 1, 5), (0x11, 1, 4), (0x12, 1, 32)]
    let p : Pin := { owner := 3, steps := [insertShot], inFmt := 4, inK := 32, ref := 0, len := 4288, digest := 0 }
    let q : State := { s with ins.queue := [keyOf3] }
    s.fresh keyOf3 0x20 = some i ∧ i.field 0x10 1 = 5 ∧ s.pin 5 = some p ∧ s.cadenceCycles = 1750 ∧ i.field 0x11 1 = p.inFmt ∧
      i.field 0x12 1 = p.inK ∧ fld i.raw (8 * 0x20 + fmtBits p.inFmt * p.inK) (256 - fmtBits p.inFmt * p.inK) = 0 ∧
      (itemState i).pin 5 = none ∧ q.pinBusy 5 = true ∧ q.tbm.running = true ∧ (q.ctx 32).begun = true ∧ q.saf.safe = false ∧
      q.cycleTb 32 ((q.ctx 32).winK * q.cadenceCycles) + 37 ≤ (q.ctx 32).endTb ∧ 32 < q.player.ctx.length ∧ (q.part 3).state ≠ .frozen ∧
      q.laneDrain = none ∧ q.ports = [] ∧ q.tiers.fErr = [] ∧ q.ins.step = 0 ∧ q.ins.row = none ∧ q.ins.last = none ∧ q.ins.lastOpen = none ∧ q.ins.draining = false ∧
      ((Shot.dataRuns (p.steps.getD 0 0)).all fun r =>
        q.accessOk p.owner false (.at_ (64 * p.ref + 64 + 64 * p.steps.length + r.1)) r.2) = true ∧
      (q.part 3).alloc.checked = false := by decide +kernel
theorem wit_insertComplete :
    let s : State := { insertState with ins.queue := [keyOf3], ins.row := some ([1], [], 0), ins.draining := true }
    s.endLane.ins.queue = [keyOf3] ∧ s.endLane.ins.row = some ([1], [], 0) ∧ s.endLane.ins.draining = true ∧ s.saf.safe = false ∧
      (s.endLane.pin (((s.item? keyOf3).map fun i => i.field 0x10 1).getD 0)).isSome = true ∧ (s.endLane.item? keyOf3).map (fun i => i.done) = some none ∧ (s.part 3).alloc.checked = false := by decide +kernel

/-! O44, SamplesJoinBatchesAndSnapshotsAreKept. -/

theorem wit_trainSample : ∀ batch ∈ [0, 1],
    let i := itemOf 3 [(0x10, 2, 5), (0x12, 2, batch), (0x14, 3, 2), (0x28, 2, 0x3F80), (0x2C, 2, 0x3F80), (0x2E, 2, 1)]
    let s := itemState i
    s.fresh keyOf3 3 = some i ∧ s.sampleEarlier keyOf3 i = false ∧ s.registered 3 i.tTint = true ∧ (s.tintOf i.tTint).state ≠ .withdrawing ∧
      blockOk i.tBlock = true ∧ i.tLen = 2 ∧ (s.tintOf i.tTint).train.paused = false ∧
      (match (s.tintOf i.tTint).train.place i with | .ok b => b == (batch == 0) | .error _ => false) = true ∧
      s.tokenOk i.tTint 7 = true ∧ Sparse.wf (fun _ => Tint.init) s.tints = true := by decide +kernel
theorem wit_meter : ∀ n ∈ [1, 5],
    let h := 3 * 67108864 + 9
    let o : Obj := { kind := .other, of := 0, home := .f, stack := 0, mirror := none, fmt := 4, blk := 0, tiles := [[]], written := 0, move := none }
    let i := itemOf 0x21 [(0x10, 4, h), (0x14, 4, h), (0x1C, 1, n), (0x1E, 2, 0x3F80)]
    let s := (itemState i).setObj h (some o)
    s.fresh keyOf3 0x21 = some i ∧ s.obj (i.field 0x10 4) = some o ∧ s.obj (i.field 0x14 4) = some o ∧ i.field 0x10 4 / 67108864 = 3 ∧
      o.tiles.length = cdiv i.meterRows 64 * cdiv i.meterCols 64 ∧ s.objShape h = none ∧ s.inF h o = true ∧ zpOk o.fmt (i.field 0x28 1) = true ∧
      zpOk o.fmt (i.field 0x29 1) = true ∧ i.field 0x1D 1 ≤ 1 ∧ i.field 0x1C 1 = n ∧ (fpBF16.value (i.field 0x1E 2)).isFin = true ∧
      0 < (fpBF16.value (i.field 0x1E 2)).cmp (.fin false 0 0) := by decide +kernel
theorem wit_snapshot :
    let i := itemOf 0x28 [(0x10, 2, 5)]
    let y : Snap := { handle := 77, gen := 0, sigma := 0, counts := (0, 0), batch := 0, k := 0, data := [], copied := false, auto := false, frame := none, units := 0, tier := .s }
    let j := itemOf 0x29 [(0x10, 2, 5), (0x14, 4, 77)]
    let s := itemState i
    let x := s.tintOf 5
    let d := s.setTint 5 { x with train.snapDue := true, train.snaps := [y] }
    let r := (itemState j).setTint 5 { x with train.snaps := [{ y with copied := true }] }
    s.fresh keyOf3 0x28 = some i ∧ i.field 0x14 4 % 4 = 0 ∧ s.registered 3 (i.field 0x10 2) = true ∧ x.state ≠ .withdrawing ∧
      x.train.cur.inFlight = false ∧ s.snapRoom 5 .s = true ∧ Sparse.wf (fun _ => Tint.init) s.tints = true ∧
      (d.tintOf 5).train.snapDue = true ∧ (d.tintOf 5).state = .cold ∧ (d.tintOf 5).train.snapTier = .s ∧ d.snapRoom 5 .s = true ∧
      y ∈ (d.tintOf 5).train.snaps ∧ d.snapCopied (d.tintOf 5).owner 77 = true ∧ r.fresh keyOf3 0x29 = some j ∧
      r.registered 3 (j.field 0x10 2) = true ∧ ({ y with copied := true } : Snap) ∈ (r.tintOf 5).train.snaps ∧ j.field 0x14 4 = 77 := by
  decide +kernel
theorem wit_snapRoom :
    let s := itemState (itemOf 0x28 [(0x10, 2, 5)])
    let c : Component := { kind := 2, fmt := 9, blk := 0, layer := 0, point := 0, index := 0, rank := 0, rows := 0, tiles := 1, handle := 100 }
    let o : Obj := { kind := .tintComponent, of := 5, home := .s, stack := 3, mirror := some 9, fmt := 9, blk := 0, tiles := [[]], written := 0, move := none }
    let s := (s.setTint 5 { s.tintOf 5 with comps := [c] }).setObj 100 (some o)
    let s : State := { s with plate.plate := some { plateOf 1 true with points := [(64, 64)] } }
    let s := s.setPart 3 { s.part 3 with alloc := { (s.part 3).alloc with sGib := 0 } }
    s.snapRoom 5 .s = false ∧ s.fresh keyOf3 0x28 = some (itemOf 0x28 [(0x10, 2, 5)]) ∧ s.registered 3 5 = true := by decide +kernel
theorem wit_checked : checkedState.item? keyOf3 = some checkedItem ∧ checkedState.checkedAfter checkedItem.lastFn checkedItem.units false = true ∧
    checkedState.saf.safe = false ∧ (checkedState.tintOf 5).train.affected = true ∧ checkedState.cleanSnap 5 = some checkedSnap ∧
    (2, 1, 8) ∈ (checkedState.tintOf 5).train.retakes ∧ (checkedState.tintOf 5).train.hold = none ∧
    (checkedState.tintOf 5).train.excursions = 16 ∧ (checkedState.tintOf 5).train.paused = false ∧
    Sparse.wf (fun _ => Tint.init) checkedState.tints = true ∧ (checkedState.items.all fun e => !(e.2.op = 3)) = true :=
  have h : (checkedState.tintOf 5).train.snaps = [checkedSnap] := by decide +kernel
  ⟨by decide +kernel, checkedAfter_sample _ _ _ rfl (by decide) (by decide), by decide +kernel, by decide +kernel,
    by have hc : checkedState.genClean checkedSnap = true := by
         show checkedState.checkedAfter 0 0 true = true
         exact checkedAfter_sample _ _ _ rfl (by decide) (by decide)
       rw [State.cleanSnap, h, List.filter_cons, hc]; rfl,
    by decide +kernel, by decide +kernel, by decide +kernel, by decide +kernel, by decide +kernel, by decide +kernel⟩

/-! O45, RingsFetchDescriptorsAndWriteCompletions. -/

/-- Manager ring set with SQ 0 and CQ 0 on, of 64 entries, on lines 7 and 8. -/
def ringState : State :=
  let x := RingSet.init
  let s := State.reset.setRingSet 32 { x with sq := x.sq.set 0 { SubRing.init with mode := .on, tail := { index := 1, phase := true } },
                                              cq := x.cq.set 0 { CompRing.init with mode := .on } }
  (((s.setReg (sqCfgKey 32 0) 25).setReg (cqCfgKey 32 0) 49).setReg (ringKey 32 0 + 8) 448).setReg (ringKey 32 16 + 8) 512
theorem wit_ringEnable :
    let s := State.reset
    s.saf.safe = false ∧ ((s.ringSet 32).sqOf 15).mode = .off ∧ s.ringCfg 32 15 (25 ||| 1) = some 25 ∧ s.sets.length = 33 ∧
      (s.ringSet 32).sq.length = 16 ∧ s.regsWf ∧ s.watchFull 32 15 = false ∧ (s.ringSet 0).sq.length = 16 ∧
      s.watchFull 0 0 = true ∧ s.ringCfg 0 0 (25 ||| 1) = some 25 ∧ ((s.ringSet 32).cqOf 15).mode = .off ∧
      wakeReserved 31 49 = false ∧ s.ringCfg 32 31 (49 ||| 1) = some 49 ∧ s.watchFull 32 31 = false ∧ (s.ringSet 32).cq.length = 16 := by decide +kernel
theorem wit_ringDisable :
    let s := ringState
    let d := s.setSq 32 0 { SubRing.init with mode := .draining }
    let u : State := { s with items := [({ set := 32, sq := 0, idx := 0 }, itemOf 0x38 [])] }
    ((s.ringSet 32).sqOf 0).mode = .on ∧ ((s.ringSet 32).cqOf 0).mode = .on ∧ s.cqNamed 32 0 = false ∧ u.cqNamed 32 0 = true ∧
      ((d.ringSet 32).sqOf 0).mode = .draining ∧ d.sqItems 32 0 = false ∧ s.sets.length = 33 ∧ s.regsWf := by decide +kernel
theorem wit_doorbell :
    let s := ringState
    s.ringMode 32 0 = .on ∧ s.ringLine 32 0 = 7 ∧ s.ringMode 32 16 = .on ∧ s.ringLine 32 16 = 8 ∧ s.ringLog 32 0 = 6 ∧ s.ringLog 32 16 = 6 ∧
      s.ringWord 32 0 = 0 ∧ s.ringWord 32 16 = 0 ∧
      ((List.range 33).all fun k => (List.range 32).all fun r => (k, r) = (32, 0) || (k, r) = (32, 16) || s.ringMode k r == .off) = true ∧
      ptrWord 0x10040 6 = none ∧ ptrWord 0x1003F 6 = some { index := 63, phase := true } ∧
      ringDist 6 ((s.ringSet 32).sqOf 0).head { index := 63, phase := true } ≤ 64 ∧
      (0x10040 : Word) ≠ Sparse.get (fun _ => 0x10000) (s.ringSet 32).lastRead (16 * 7 + 0) := by decide +kernel
theorem wit_fetch :
    let s := ringState
    let f : State := { s with items := (List.range 1024).map fun j => ({ set := 32, sq := 1, idx := j }, itemOf 0x38 []) }
    let f := f.setSq 32 0 { (f.ringSet 32).sqOf 0 with seen := [({ index := 1, phase := true }, some 0)] }
    (f.ringSet 32).sq.any (fun q => q.seen ≠ []) = true ∧ s.pendUsed 32 + 1 < s.pendShare 32 ∧ s.fetchable 32 0 = true ∧ s.insertFirst = false ∧ s.pendUsed 32 < s.pendShare 32 ∧ f.fetchable 32 0 = true ∧ f.insertFirst = false ∧
      f.pendShare 32 ≤ f.pendUsed 32 ∧ ((s.ringSet 32).cqOf 0).mode ≠ .off ∧ (Item.fetched 0 0 0).cq = 0 ∧ s.sets.length = 33 := by decide +kernel
theorem wit_completion :
    let d : Done := { status := 0, info := 0, result := 0, outs := [] }
    let i := { itemOf 0x38 [] with phase := .done, done := some d }
    let k : ItemKey := { set := 32, sq := 0, idx := 63 }
    let s : State := { ringState with items := [(k, i)] }
    let w := s.setReg (cqCfgKey 32 0) 53
    let f := s.setCq 32 0 { (s.ringSet 32).cqOf 0 with tail := { index := 0, phase := false } }
    s.item? k = some i ∧ s.writable k i = true ∧ k.replayed = false ∧ ((s.ringSet 32).cqOf i.cq).mode = .on ∧ s.hostWf ∧ s.regsWf ∧
      ringDist 6 ((s.ringSet 32).cqOf i.cq).head ((s.ringSet 32).cqOf i.cq).tail < 64 ∧ s.wakes 32 i.cq i = false ∧ w.wakes 32 i.cq i = true ∧
      s.ringLog 32 16 = 6 ∧ w.ringLog 32 16 = 6 ∧ i.cq < (s.ringSet 32).cq.length ∧
      64 ≤ ringDist 6 ((f.ringSet 32).cqOf i.cq).head ((f.ringSet 32).cqOf i.cq).tail := by decide +kernel
theorem wit_dailies :
    let i := itemOf 0x30 [(0x10, 1, 1), (0x11, 1, 6)]
    let u : State := { itemState i with tbm.running := true, tbm.tLast := 5 }
    u.fresh keyOf3 0x30 = some i ∧ u.tbm.running = true ∧ i.obs.toNat < u.tbm.tLast.toNat ∧ (itemState i).tbm.running = false ∧
      (itemState i).fresh keyOf3 0x30 = some i ∧ 3 < (itemState i).sets.length ∧ (State.reset.uclPort 1).grey = false ∧
      State.reset.ucl.length = 2 := by decide +kernel

/-! O46, PartitionsAreCreatedPlayedAndTornDown. -/

theorem wit_create : let s : State := { State.reset with sec.custody := .held }
    s.wiping = false ∧ (s.part 31).state = .free ∧ s.sec.custody ≠ .none ∧ s.sec.rngFail = false ∧ s.prt.part.length = 32 ∧ s.sets.length = 33 ∧
      s.sec.part.length = 32 ∧ Sparse.wf (fun _ => Bank.init) s.banks.bank = true ∧ Sparse.wf (fun _ => HotSlot.init) s.slots = true ∧
      s.checkAlloc 31 (s.staged 31) Alloc.init (s.stagedShares 31).1 (s.stagedShares 31).2 = 0 ∧
      (let s := s.setReg (Reg.prtPReel + 64 * 31) 255
       s.checkAlloc 31 (s.staged 31) Alloc.init (s.stagedShares 31).1 (s.stagedShares 31).2 = 8) ∧
      (State.reset.part 31).state = .free ∧ State.reset.sec.custody = .none ∧ State.reset.wiping = false ∧
      (let s : State := { s with sec.custody := .wiping }; s.wiping = true) := by decide +kernel
theorem wit_createDone : let c := fun ph => partitionReady.setPart 3 { partitionReady.part 3 with state := ph }
    (c .creating).runReady 3 = true ∧ (c .creating).lanes.length = 33 ∧ ((c .creating).part 3).loading = false ∧
      (c .queuedOn).wiping = false ∧ ((c .queuedOn).part 3).state = .queuedOn ∧ ((c .tearing).part 3).state = .tearing ∧
      (let s := (itemState { itemOf 0x3A [] with phase := .busy }).setPart 3 { partitionReady.part 3 with state := .creating, loading := true }
       s.runReady 3 = true ∧ (s.part 3).loading = true ∧ ((List.range 32).all fun q => q = 3 || !(s.part q).loading) = true ∧
       (s.item? keyOf3).map (fun i => (i.op, i.phase, i.done)) = some (0x3A, .busy, none)) := by decide +kernel
theorem wit_resize : let s := partitionReady.setPart 3 { Partition.init with state := .ready }
    s.wiping = false ∧ (s.part 3).state = .ready ∧ s.checkAlloc 3 (s.staged 3) (s.part 3).alloc (s.stagedShares 3).1 (s.stagedShares 3).2 = 0 ∧
      s.segInUse 3 (s.staged 3) (s.part 3).alloc = false ∧ (s.part 3).alloc.run = [] ∧
      (let s := s.setSheet 3 0 (some (sheetOf [] []))
       s.checkAlloc 3 (s.staged 3) (s.part 3).alloc (s.stagedShares 3).1 (s.stagedShares 3).2 = 0 ∧
       (let s := s.setPart 3 { s.part 3 with alloc := { (s.part 3).alloc with seg := [8, 0, 0, 0] } }
        s.checkAlloc 3 (s.staged 3) (s.part 3).alloc (s.stagedShares 3).1 (s.stagedShares 3).2 = 0 ∧
        s.segInUse 3 (s.staged 3) (s.part 3).alloc = true)) ∧
      (let s := s.setReg (Reg.prtPReel + 64 * 3) 255
       s.checkAlloc 3 (s.staged 3) (s.part 3).alloc (s.stagedShares 3).1 (s.stagedShares 3).2 = 8) := by decide +kernel
theorem wit_activate : let x := { sheetOf [] [] with kind := 1 }
    let s := ((partitionReady.setSheet 3 0 (some x)).setReg (Reg.shtFb + 12) 0x80000000)
    s.wiping = false ∧ (s.part 3).state = .ready ∧ (s.part 3).saved = false ∧ bitOf (s.reg (Reg.shtFb + 12)) 31 = true ∧
      s.fallbacksOk 3 (s.reg (Reg.shtFb + 12)) = true ∧ s.frameFits [3] = true ∧ s.frameParts = [] ∧ (s.part 0).activate = none ∧
      bitOf (partitionReady.reg (Reg.shtFb + 12)) 31 = false := by decide +kernel
theorem wit_effects : let i := { itemOf 1 [(1, 1, 2), (8, 4, 0x10)] with phase := .passage }
    let s := itemState i
    let f := s.setPart 3 { s.part 3 with state := .frozen, activate := some .due, fnFreeze := 0xFFFFFF00 }
    let d := s.setPart 3 { s.part 3 with deactivate := some .due }
    let e := (s.setPart 3 { s.part 3 with teardown := some .due }).setReg (bindKey 63) 0x80104301
    let n := (s.setPart 3 { Partition.init with state := .tearing, teardown := some .due })
    s.item? keyOf3 = some i ∧ i.done = none ∧ keyOf3.replayed = false ∧ s.saf.safe = false ∧ s.prt.part.length = 32 ∧ s.player.ctx.length = 34 ∧
      (f.part 3).state = .frozen ∧ (f.part 3).activate = some .due ∧
      ((partitionReady.setPart 3 { partitionReady.part 3 with activate := some .due }).part 3).state = .ready ∧
      (d.part 3).deactivate = some .due ∧ (d.part 3).state = .active ∧ (e.part 3).teardown = some .due ∧ e.regsWf ∧ e.mbx.length = 64 ∧
      e.isReceiver 0x43 63 = true ∧ Sparse.wf (fun _ => Tint.init) e.tints = true ∧ Sparse.wf (fun _ => Ses.init) e.ses = true ∧
      n.tornDown 3 = true ∧ (n.part 3).state = .tearing ∧ n.wiping = false ∧
      ((n.setPart 3 { n.part 3 with state := .queuedOn }).tornDown 3) = true := by decide +kernel

/-! O47, PartitionsFreezeAndAreSavedAndLoaded. -/

theorem wit_freeze : ∀ p ∈ [3, 0xFF],
    let i := itemOf 0x38 [(0x10, 1, p)]
    let s := itemState i
    s.fresh keyOf3 0x38 = some i ∧ i.field 0x10 1 = p ∧ (s.part 3).state = .active ∧ s.prt.part.length = 32 ∧
      ((List.range 32).all fun q => (s.part q).state ≠ .creating && (s.part q).state ≠ .tearing && (s.part q).state ≠ .queuedOn) = true ∧
      ((itemState i).setPart 3 { Partition.init with state := .ready }).fresh keyOf3 0x38 = some i := by decide +kernel
theorem wit_freezeEffect : let i := { itemOf 1 [] with phase := .passage }
    let j := { itemOf 0x38 [(0x10, 1, 3)] with phase := .waiting }
    let s := (itemState i).setPart 3 { Partition.init with state := .active, freeze := some .due, freezeItems := [keyOf3] }
    (s.part 3).freeze = some .due ∧ (s.part 3).state = .active ∧ s.saf.safe = false ∧ s.player.ctx.length = 34 ∧ s.item? keyOf3 = some i ∧
      i.done = none ∧
      (let s := (itemState j).setPart 3 { s.part 3 with state := .ready }
       (s.part 3).freeze = some .due ∧ (s.part 3).state = .ready ∧ s.item? keyOf3 = some j ∧ j.op = 0x38 ∧ j.field 0x10 1 = 3 ∧ j.done = none ∧
         keyOf3 ∈ (s.part 3).freezeItems) := by decide +kernel
theorem wit_freezeDone : let i := { itemOf 0x38 [] with phase := .waiting }
    let s := (itemState i).setPart 3 { Partition.init with state := .frozen, freezeItems := [keyOf3] }
    s.item? keyOf3 = some i ∧ i.op = 0x38 ∧ i.done = none ∧ s.capturedAll 3 = true ∧ (s.part 0).freezeItems = [] := by decide +kernel
theorem wit_save : let i := itemOf 0x39 [(0x10, 1, 3), (0x18, 8, 0x1000), (0x20, 8, 0x1000000)]
    let s := (itemState i).setPart 3 { Partition.init with state := .frozen }
    let r : State := { s.setReg Reg.secDestDig 1 with sec.cdk := some 7 }
    s.fresh keyOf3 0x39 = some i ∧ i.field 0x10 1 = 3 ∧ s.sec.cdk = none ∧ r.fresh keyOf3 0x39 = some i ∧ (r.part 3).state = .frozen ∧
      (r.part 3).saved = false ∧ r.sec.rngFail = false ∧ r.sec.cdk = some 7 ∧ allZero r.destDigest = false ∧ r.capturedAll 3 = true ∧
      r.hostBulk = true ∧ r.hostWf ∧ ((r.setFld Reg.shtCtrl 0 1 1).hostBulk = false) := by decide +kernel
theorem wit_loadImage : let i := itemOf 0x3A [(0x10, 1, 4), (0x18, 8, 0x1000), (0x20, 8, 320)]
    let s : State := { itemState i with sec.cdk := some 7 }
    let bs : Blob := leBytes 4 0x47494D49 ++ leBytes 2 1 ++ leBytes 2 0x0500 ++ leBytes 8 0 ++ leBytes 8 320 ++ leBytes 296 0
    s.fresh keyOf3 0x3A = some i ∧ i.field 0x10 1 = 4 ∧ (s.part 4).state = .free ∧ s.sec.rngFail = false ∧ s.wiping = false ∧
      s.hostBulk = true ∧ ((s.setFld Reg.shtCtrl 0 1 1).hostBulk = false) ∧ s.sec.cdk = some 7 ∧ imageLayout bs (i.field 0x20 8) false = true ∧
      imageLayout [] (i.field 0x20 8) false = false ∧ (s.part 3).state ≠ .free := by decide +kernel

/-! O48, MailboxAccessesFollowTheBindingAndTheProtocol. -/

theorem wit_mbx : let s := State.reset.setReg (bindKey 63) 0x80105F01
    s.regsWf ∧ s.isSender 0x5F 63 = false ∧ s.isReceiver 0x01 63 = false ∧ s.isSender 0x40 0 = false ∧ s.isReceiver 0x40 0 = false ∧
      s.isSender 0x01 63 = true ∧ s.isReceiver 0x5F 63 = true ∧ s.mbxWords 63 = 16 ∧ (s.chan 63).state = .empty ∧ (s.chan 63).resetTb = none ∧ s.mbx.length = 64 ∧
      s.locked .mbx = false ∧ masterOk 0x5F = true ∧ masterOk 0x60 = false ∧ (s.setReg Reg.mbxLock 1).locked .mbx = true ∧
      (let s := s.setChan 63 { s.chan 63 with state := .full }
       s.isSender 0x01 63 = true ∧ s.isReceiver 0x5F 63 = true ∧ (s.chan 63).state = .full ∧ s.regsWf) := by decide +kernel

/-! O49, ScheduledTransfersAreSentReceivedAndJudged. -/

def lShot (op stream bay bytes tint : Nat) : BitVec 512 :=
  BitVec.ofNat 512 (leNat (leBytes 1 3 ++ leBytes 1 op ++ leBytes 2 0x0270 ++ leBytes 2 stream ++ leBytes 1 bay ++ leBytes 1 0 ++ leBytes 4 bytes ++
    leBytes 4 0 ++ leBytes 2 0 ++ leBytes 2 tint ++ leBytes 44 0))
def lCue : BitVec 128 := cueOf 0 1024 3 0 0 0
def lSheet (d : BitVec 512) : Sheet := { sheetOf [] [d] with cues := [[], [], [], [lCue]] }
def lGroupKey : GroupKey := { gen := 3, key := 99, boots := 1 }
def lState (d : BitVec 512) : State :=
  let s := (houseRuns (lSheet d)).setBank 0 bankOn
  let s := (s.setPort 0 { Port.init with state := .up }).setPort 7 { Port.init with state := .up }
  { s with sec.gk := some lGroupKey }
theorem wit_lCues : ∀ op ∈ [1, 2, 3, 4],
    let c := lCue
    let x := lSheet (lShot op 5 63 240 6)
    let s := lState (lShot op 5 63 240 6)
    let place := (s.lStarted 32 0 c).resolve ((s.lStarted 32 0 c).cueBinding 32 c) (x.shot c).lRef
    (s.playing 32 = some x ∧ x.cue? .l 0 = some c ∧ (x.shot c).lOp = op ∧ (s.ctx 32).state ≠ .idle ∧ (s.ctx 32).state ≠ .void ∧
      (s.ctx 32).fallback = false ∧ (s.ctx 32).gone .l 0 = false ∧ (s.ctx 32).selected c = true ∧ s.saf.safe = false ∧ Cue.fault c .l = none) ∧
      (s.lStarted 32 0 c).accessOk 32 false place 240 = true ∧ (s.lStarted 32 0 c).accessOk 32 true place 240 = true ∧
      s.tiers.fErr = [] ∧ s.sec.gk = some lGroupKey ∧ (s.port (x.shot c).portOut).carries = true ∧ s.reel.port.length = 8 ∧ (x.shot c).lOrigin = true ∧
      (let v := s.setCtx 32 { s.ctx 32 with state := .void }
       v.playing 32 = some x ∧ (v.ctx 32).gone .l 0 = false ∧ (v.ctx 32).selected c = true ∧ (v.ctx 32).state = .void ∧
         (v.port (x.shot c).portOut).carries = true) := by decide +kernel
def lTransfer : Transfer :=
  { owner := 32, cue := 0, stream := 5, bytes := 240, dest := some 0, out := some 0, bay := 2, got := [], crcs := 0, bad := false, void := false,
    sealed := true, held := [], tag := none }
theorem wit_lFlits : let s := (State.reset.setPort 0 { Port.init with state := .up }).setPort 7 { Port.init with state := .up, xfers := [lTransfer] }
    let e := State.reset.setPort 7 { Port.init with state := .up }
    s.xfer 7 5 = some lTransfer ∧ cdiv lTransfer.bytes 240 = 1 ∧ (s.port 0).carries = true ∧ lTransfer.out = some 0 ∧ (s.port 7).state = .up ∧
      s.reel.port.length = 8 ∧ s.openL 4 7 5 = [] ∧ e.xfer 7 5 = none ∧ e.xfer 7 (flitStream []) = none ∧ s.xfer 7 (flitStream (leBytes 3 0x50000 ++ [0])) = some lTransfer ∧
      (e.port 7).dist = none ∧ (e.port 7).bulk = none ∧ e.openL 4 7 5 = [] ∧ e.promoted 0x0B = false ∧ e.regsWf ∧ (e.port 7).state = .up := by
  decide +kernel
theorem wit_lFlitForms (pl : Blob) : ∀ k ∈ [0, 1, 2, 5], ∀ q ∈ [0, 1], let f := mkFlit k 1 5 q 0 pl
    flitCrcOk f = true ∧ flitKind f = k ∧ flitFlags f < 4 ∧ flitStream f = 5 ∧ flitSeq f = q ∧ flitFn f = 0 ∧ flitCrcOk [] = false := by
  intro k hk q hq
  simp only [flitCrcOk_mkFlit, flitKind_mkFlit, flitFlags_mkFlit, flitStream_mkFlit, flitSeq_mkFlit, flitFn_mkFlit, true_and]
  revert k q; decide
theorem wit_lTag : let f := mkFlit 5 1 5 0 0 (leBytes 1 0x10 ++ leBytes 29 77)
    leAt (flitPayload f) 0 1 = 0x10 ∧ allZero ((flitPayload f).drop 30) = true := by
  simp only [flitPayload_mkFlit]; decide +kernel
def lVerdictState (lost : Bool) : State :=
  let s := (lState (lShot 4 5 63 0 6)).setTint 6 { Tint.init with state := .cold }
  let s := s.setCtx 32 { s.ctx 32 with started := [(.l, 0, 0)] }
  let v : Verdict := { tint := 6, k := s.stepK 6, t := 0, ok := false, recorded := false, fails := 0, cues := 2, seen := false, own := true, lost := lost }
  { s with reel := { s.reel with verdicts := [v] } }
theorem wit_lVerdict : let d := lShot 4 5 63 0 6
    let s := lVerdictState false
    let l := lVerdictState true
    s.openL 4 7 5 = [d] ∧ Shot.lTint d = 6 ∧ (s.verdictOf 6).seen = false ∧ s.xfer 7 5 = none ∧ (s.verdictOf 6).k = 1 ∧
      s.playing 32 = some (lSheet d) ∧ (lSheet d).cue? .l 0 = some lCue ∧ ((lSheet d).shot lCue).lOp = 4 ∧ (s.ctx 32).startOf .l 0 = some 0 ∧
      (Track.l, 0) ∉ (s.ctx 32).ended ∧ (s.verdictOf 6).cues = 2 ∧ (s.verdictOf 6).own = true ∧ (s.verdictOf 6).recorded = false ∧
      (l.verdictOf 6).lost = true ∧ (l.verdictOf 6).own = true ∧ (l.tintOf 6).state ≠ .free ∧ (l.tintOf 6).diverged = false ∧
      l.saf.safe = false ∧ Sparse.wf (fun _ => Tint.init) l.tints = true ∧ l.regsWf := by decide +kernel
theorem wit_lVerdictFlit : let f := mkFlit 1 3 5 0 0 (leBytes 2 6 ++ leBytes 4 1)
    leAt (flitPayload f) 0 2 = 6 ∧ leAt (flitPayload f) 2 4 = (1 : BitVec 32).toNat := by
  simp only [flitPayload_mkFlit]; decide +kernel
def lSealed : Blob × Blob := gcmSeal 99 (leBytes 12 5) (linkAad 5 0 240) (leBytes 240 7)
def lEndTransfer : Transfer :=
  { lTransfer with out := none, got := [0], held := [(0, lSealed.1)], tag := some (leBytes 1 3 ++ (leBytes 12 5 ++ lSealed.2)) }
def lEndState (tr : Transfer) : State :=
  let s := (lState (lShot 2 5 2 240 0)).setPort 7 { Port.init with state := .up, xfers := [tr] }
  s.setCtx 32 { s.ctx 32 with started := [(.l, 0, 0)] }
theorem wit_lEnd : let d := lShot 2 5 2 240 0
    let tr := { lTransfer with out := none }
    let s := lEndState tr
    s.playing 32 = some (lSheet d) ∧ (lSheet d).cue? .l 0 = some lCue ∧ ((lSheet d).shot lCue).lOp = 2 ∧ (s.ctx 32).startOf .l 0 = some 0 ∧
      (Track.l, 0) ∉ (s.ctx 32).ended ∧ s.saf.safe = false ∧ (s.ctx 32).state ≠ .void ∧
      (s.port ((lSheet d).shot lCue).portIn).xfers.find? (fun t => decide (t.owner = 32) && decide (t.cue = 0)) = some tr ∧
      s.promoted 0x0B = false ∧ s.promoted 0x0C = false ∧ s.reel.port.length = 8 ∧ s.memoryWf := by decide +kernel
theorem wit_lEnd_good : (lEndTransfer.void = false ∧ (List.range (cdiv lEndTransfer.bytes 240)).all lEndTransfer.got.contains = true ∧
    lEndTransfer.bad = false) ∧ (lEndTransfer.tag.bind ((lEndState lEndTransfer).openTransfer lEndTransfer)).isSome = true := by
  have h16 : lSealed.2.length = 16 := by
    have : (gcmBlock (leBytes 32 (99 : BitVec 256).toNat) (leBytes 12 5) 1).length = 16 := by decide +kernel
    simp only [lSealed, gcmSeal, gcmTag, xorBytes, List.length_zipWith, this]; simp [beBytes]
  have h0 : leAt (leBytes 1 3 ++ (leBytes 12 5 ++ lSealed.2)) 0 1 = 3 := by
    have : ∀ b : Blob, leAt (leBytes 1 3 ++ b) 0 1 = 3 := fun b => rfl
    exact this _
  have h1 : slice (leBytes 1 3 ++ (leBytes 12 5 ++ lSealed.2)) 1 12 = leBytes 12 5 := by
    rw [slice, List.drop_append_of_le_length (by simp), List.drop_of_length_le (by simp), List.nil_append,
      List.take_append_of_le_length (by simp), List.take_of_length_le (by simp)]; simp
  have h2 : slice (leBytes 1 3 ++ (leBytes 12 5 ++ lSealed.2)) 13 16 = lSealed.2 := by
    rw [← List.append_assoc, slice, List.drop_append_of_le_length (by simp), List.drop_of_length_le (by simp), List.nil_append,
      List.take_of_length_le (by omega), h16]; simp
  refine ⟨⟨rfl, by decide +kernel, rfl⟩, ?_⟩
  rw [show lEndTransfer.tag = some (leBytes 1 3 ++ (leBytes 12 5 ++ lSealed.2)) from rfl, Option.bind_some]
  have hk : (lEndState lEndTransfer).linkKey 3 = some lGroupKey := by rfl
  have hf : (lEndState lEndTransfer).fnNat = 0 := by rfl
  have hs : (sortBy (fun (h : Nat × Blob) => h.1) lEndTransfer.held).flatMap (fun h => h.2) = lSealed.1 := by
    show [(0, lSealed.1)].flatMap (fun h => h.2) = _; simp
  rw [State.openTransfer, h0, h1, h2, hk, hf, hs]
  have := gcmOpen_gcmSeal 99 (leBytes 12 5) (linkAad 5 0 240) (leBytes 240 7)
  dsimp only
  rw [Option.isSome_map, show lEndTransfer.stream.toNat = 5 from rfl, show lEndTransfer.bytes = 240 from rfl, show lGroupKey.key = 99 from rfl]
  exact this

/-! O50, PortsTrainFenceAndCarryPlatesAndBuffers. -/

def ctlFlit (pl : Blob) : Blob := mkFlit 5 3 0 0 0 pl
theorem wit_ctlFlit (pl : Blob) : flitCrcOk (ctlFlit pl) = true ∧ flitKind (ctlFlit pl) = 5 ∧ flitFlags (ctlFlit pl) = 3 ∧ flitSeq (ctlFlit pl) = 0 ∧
    flitPayload (ctlFlit pl) = (padTo 240 pl).take 240 := by
  simp only [ctlFlit, flitCrcOk_mkFlit, flitKind_mkFlit, flitFlags_mkFlit, flitSeq_mkFlit, flitPayload_mkFlit]; decide
theorem wit_delayFlit (pl : Blob) : let f := mkFlit 4 3 0 0 0 pl
    flitCrcOk f = true ∧ flitKind f = 4 ∧ flitFlags f = 3 ∧ flitPayload f = (padTo 240 pl).take 240 := by
  simp only [flitCrcOk_mkFlit, flitKind_mkFlit, flitFlags_mkFlit, flitPayload_mkFlit]; decide
theorem wit_bulkFlit (pl : Blob) : let f := mkFlit 1 1 strBulk 0 0 pl
    flitCrcOk f = true ∧ flitKind f = 1 ∧ flitFlags f = 1 ∧ flitStream f = strBulk ∧ flitSeq f = 0 := by
  simp only [flitCrcOk_mkFlit, flitKind_mkFlit, flitFlags_mkFlit, flitStream_mkFlit, flitSeq_mkFlit]; decide
def padded (pl : Blob) : Blob := (padTo 240 pl).take 240
theorem wit_ctlBodies : let ok := fun (sub used : Nat) (pl : Blob) => leAt (padded pl) 0 1 = sub ∧ allZero ((padded pl).drop used) = true
    ok 1 68 (leBytes 1 1 ++ leBytes 3 1 ++ leBytes 64 7) ∧ digestOf (slice (padded (leBytes 1 1 ++ leBytes 3 1 ++ leBytes 64 7)) 4 64) = 7 ∧
      leAt (padded (leBytes 1 1 ++ leBytes 3 1 ++ leBytes 64 7)) 1 1 = 1 ∧ leAt (padded (leBytes 1 1 ++ leBytes 3 1 ++ leBytes 64 7)) 2 2 = 0 ∧
      ok 2 70 (leBytes 4 2 ++ leBytes 64 7) ∧ digestOf (slice (padded (leBytes 4 2 ++ leBytes 64 7)) 4 64) = 7 ∧
      ok 3 12 (leBytes 2 0x103 ++ leBytes 2 0 ++ leBytes 8 1) ∧ leAt (padded (leBytes 2 0x103 ++ leBytes 2 0 ++ leBytes 8 1)) 1 1 = 1 ∧
      ok 4 68 [4] ∧ ok 8 2 [8, 3] ∧ leAt (padded [8, 3]) 1 1 = 3 ∧ ok 5 12 (leBytes 4 5 ++ leBytes 8 64) ∧
      leAt (padded (leBytes 4 5 ++ leBytes 8 64)) 4 8 = 64 ∧ leAt (padded [5]) 4 8 = 0 ∧ ok 6 12 [6, 1] ∧ leAt (padded [6, 1]) 1 1 = 1 ∧
      ok 6 12 [6] ∧ leAt (padded [6]) 1 1 = 0 ∧ leAt (padded [6]) 2 2 = 0 ∧ ok 7 12 [7, 1] ∧ leAt (padded [7, 1]) 2 2 = 0 := by decide +kernel
def portUp (x : Port) : State := State.reset.setPort 7 { x with state := .up }
def sender : Dist := { receiver := false, since := none, relay := none, stream := 0, got := [], resend := [] }
def bulkEnd (tx acc : Bool) (off : Option Nat) : Bulk :=
  { tx := tx, addr := 0, len := 64, offered := off, accepted := acc, since := none, got := [], resend := [], data := some (leBytes 64 0) }
theorem wit_ports : let p := portUp Port.init
    (State.reset.port 0).mayTrain State.reset.now = true ∧
      ((State.reset.setPort 7 { Port.init with state := .training, trainTb := some 0 }).port 7).trainOver 0 = false ∧
      (p.port 7).askAgain p.tbm.fn = true ∧ (p.port 7).state = .up ∧ p.reel.port.length = 8 ∧ p.saf.fenceCnt.length = 11 ∧ p.regsWf ∧ (p.port 7).carries = true ∧ (p.port 7).dist = none ∧
      (State.reset.port 0).state = .down ∧ ((State.reset.setPort 7 { Port.init with state := .training }).port 7).state = .training ∧
      ((State.reset.setPort 7 { Port.init with state := .align }).port 7).state = .align ∧ p.bulkBusy = false ∧ p.bulkFree 7 = true ∧ p.bulkFree 0 = false ∧
      (let q : State := { (p.setFld Reg.reelDist 0 1 1).setFld Reg.reelDist 1 3 7 with plate.plate := some { plateOf 1 true with digest := 7 }, sec.plateKey := some (1, 7) }
       q.passOn 7 = some (7, 1) ∧ q.regBit Reg.reelDist 0 = true ∧ q.regFld Reg.reelDist 1 3 = 7 ∧ (q.port 7).use = .free ∧ q.scheduled 7 = false) := by
  decide +kernel
theorem wit_portUses : let r := { portUp { Port.init with dist := some { sender with receiver := true } } with plate.asking := some 7, sec.plateKey := some (1, 7) }
    let n := fun res => { portUp { Port.init with dist := some sender } with plate.plate := some (plateOf 1 res) }
    let b := fun tx acc off => portUp { Port.init with use := .bulk, bulk := some (bulkEnd tx acc off) }
    (r.port 7).dist = some { sender with receiver := true } ∧ r.plate.asking = some 7 ∧ r.sec.plateKey = some (1, 7) ∧
      ((n true).port 7).dist = some sender ∧ (n true).streamReady (plateOf 1 true) 0 = true ∧ (n false).streamReady (plateOf 1 false) 0 = false ∧
      ((b true true none).port 7).bulk = some (bulkEnd true true none) ∧ ((b true true none).port 7).dist = none ∧
      ((b false false none).port 7).bulk = some (bulkEnd false false none) ∧ ((b true false none).port 7).bulk = some (bulkEnd true false none) ∧
      ((b false true (some 64)).port 7).bulk = some (bulkEnd false true (some 64)) ∧ (b false true (some 64)).xfer 7 strBulk = none ∧
      (b false true (some 64)).openL 4 7 strBulk = [] ∧ (b false true (some 64)).hostWf ∧ (b false true (some 64)).bulkBusy = true := by decide +kernel

/-! O51, CustodyCommandsKeysAndReports. -/

theorem wit_custody : let s := State.reset
    s.regsWf ∧ s.sec.wipe = none ∧ s.prt.part.length = 32 ∧ s.cmdDetail [] = 1 ∧ s.sec.custody = .none ∧
      (let w : State := { s with sec.wipe := some { newKey := some 5 } }
       w.sec.wipe = some { newKey := some 5 } ∧ (w.prt.part.all fun p => p.state = .free) = true ∧ w.plate.plate = none ∧ w.plate.load = none ∧
         w.plate.asking = none ∧ w.regsWf) := by decide +kernel
theorem wit_keys : let s : State := { State.reset with sec.custody := .held }
    State.reset.keyBarred = true ∧ s.keyBarred = false ∧ s.plate.load = none ∧ s.plate.asking = none ∧ s.regsWf ∧ s.sec.gkSpent = false ∧
      (let k : GroupKey := { gen := 3, key := 7, boots := 0 }
       let a : State := { s with sec.gkPending := some (k, 5), tbm.running := true, tbm.fn := 5, sec.gkPrev := some (k, 0) }
       a.sec.gkPending = some (k, 5) ∧ a.tbm.running = true ∧ fnLe 5 a.tbm.fn = true ∧ a.saf.safe = false ∧ a.sec.gkPrev = some (k, 0)) ∧
      (let g : State := { s with sec.part := s.sec.part.set 31 { imp := none, generating := true, tierH := none } }
       g.sec.part[31]? = some { imp := none, generating := true, tierH := none } ∧ g.sec.rngFail = false) := by decide +kernel
theorem wit_attest : let i := itemOf 0x40 [(0x10, 1, 2), (0x14, 4, 4096), (0x18, 8, 0x1000)]
    let s := itemState i
    let r : State := { s with tbm.running := true, tbm.tLast := 1000 }
    s.fresh keyOf3 0x40 = some i ∧ s.returned = false ∧ s.tbm.running = false ∧ r.fresh keyOf3 0x40 = some i ∧ r.tbm.running = true ∧
      i.obs.toNat < r.tbm.tLast.toNat ∧ r.returned = false ∧ ({ s with sec.life := .returned } : State).returned = true ∧
      ({ s with sec.life := .returned } : State).fresh keyOf3 0x40 = some i := by decide +kernel

/-! O52, TheResponderAnswersItsMessages. -/

theorem wit_messages : let s : State := { State.reset with pins.vaux := true, pins.mainOn := true }
    let r : State := { s with sec.life := .returned }
    let t : State := { s with sec.transcript := [[0x10, 0x04], [0x12, 0x61], [0x12, 0x63]] }
    s.pathUp .ucl = true ∧ s.pathUp .smbus = true ∧ s.returned = false ∧ r.returned = true ∧ s.spoken 0x04 = false ∧
      ([0x04, 0x61, 0x63].all fun a => t.spoken a) = true ∧
      (∀ c ∈ [0x84, 0xE1, 0xE3, 0x81, 0x82, 0x83, 0xE0], leAt (leBytes 1 0x12 ++ leBytes 1 c ++ leBytes 64 0) 1 1 = c ∧
        leAt (leBytes 1 0x12 ++ leBytes 1 c ++ leBytes 64 0) 0 1 = 0x12 ∧ leAt (leBytes 1 0x12 ++ leBytes 1 c ++ leBytes 64 0) 2 1 % 16 = 0 ∧
        leAt (leBytes 1 0x12 ++ leBytes 1 c ++ leBytes 64 0) 3 1 = 0) ∧
      (∀ c ∈ [1, 2, 4, 5], leAt (leBytes 1 0x80 ++ leBytes 1 c ++ leBytes 1 0 ++ leBytes 1 9) 1 1 = c ∧
        leAt (leBytes 1 0x80 ++ leBytes 1 c ++ leBytes 1 0 ++ leBytes 1 9) 0 1 = 128 ∧
        leAt (leBytes 1 0x80 ++ leBytes 1 c ++ leBytes 1 0 ++ leBytes 1 9) 3 1 = 9) ∧
      s.sensorUp 24 = true ∧ ({ s with pins.mainOn := false } : State).sensorUp 24 = false ∧ s.pwr.sensors.length = 24 ∧
      (s.setFld Reg.secMctpCtrl 0 7 68).regFld Reg.secMctpCtrl 0 7 = 68 ∧ s.sec.rxQueue = [] := by decide +kernel
theorem wit_smbus : let s : State := { State.reset with pins.vaux := true }
    let a := BitVec.ofNat 7 (0x64 + s.pins.smbAddr.toNat)
    let body : Blob := [0x0F, 1, 1]
    let bs := body ++ [crc8 (leBytes 1 (2 * a.toNat) ++ body)]
    a.toNat = 0x64 + s.pins.smbAddr.toNat ∧ 2 ≤ bs.length ∧ crc8 (leBytes 1 (2 * a.toNat) ++ bs.dropLast) = bs.getLastD 0 ∧
      crc8 (leBytes 1 (2 * a.toNat) ++ (body ++ [0]).dropLast) ≠ (body ++ [0]).getLastD 0 := by decide +kernel

/-! O53, DetectionsFencesAndTheContinuityLog. -/

def logSample : LogRec := State.reset.mkRec 0x0A01 0xFF 0xFF 0 [] 0
theorem wit_safety : let s := State.reset
    let f : State := { s with saf.safe := true, saf.causeTb := 5 }
    s.saf.safe = false ∧ f.saf.safe = true ∧ f.saf.causeTb ≠ f.tbm.tb ∧ ({ s with saf.missedCommits := 3 } : State).saf.missedCommits = 3 ∧
      ({ s with saf.missedCommits := 3 } : State).saf.safe = false ∧ s.saf.missedCommits < 3 ∧ s.regsWf ∧ (s.uclPort 1).grey = false ∧
      s.fenceWaits 5 1 = false ∧ s.locked .saf = false ∧ (s.setReg Reg.safLock 1).locked .saf = true ∧ s.pins.vaux = true ∧ s.clog.holdup = false ∧
      (let h : State := { s with saf.nmdAlive := List.replicate 12 (0, 3) }
       3 ≤ (h.saf.nmdAlive.getD 11 (0, 0)).2 ∧ (h.nmdOf 11).state ≠ .grey ∧ h.tiers.anyLost = false ∧ h.promoted 0x04 = false ∧ h.promoted 0x09 = false ∧
         h.nmd.length = 12 ∧ h.saf.fenceCnt.length = 11) ∧
      (let l : State := { s with clog.staged := [logSample], tbm.counting := true }
       l.clog.staged = [logSample] ∧ Sparse.wf (fun _ => (none : Option (BitVec 512))) l.clog.mram = true ∧ l.tbm.counting = true ∧ l.now + 2000 < 2 ^ 64 ∧
         ({ l with tbm.counting := false } : State).tbm.counting = false) := by decide +kernel
theorem wit_fences : let i := itemOf 1 [(0x10, 2, 4)]
    let s := itemState i
    let s := s.setSes 4 { Ses.init with state := .opened, owner := 3, tint := 5 }
    let q : FenceReq := { kind := 6, unit := 3, since := 0, armed := true, due := true, requested := true }
    let r : State := { s with saf.reqs := [q, { q with kind := 7, unit := 5 }, { q with kind := 8, unit := 4 }] }
    r.dueFence? 6 3 = some q ∧ r.dueFence? 7 5 = some { q with kind := 7, unit := 5 } ∧ r.dueFence? 8 4 = some { q with kind := 8, unit := 4 } ∧
      r.saf.safe = false ∧ (r.part 3).state = .active ∧ r.prt.part.length = 32 ∧ r.saf.fenceCnt.length = 11 ∧ r.regsWf ∧
      (r.tintOf 5).state = .cold ∧ Sparse.wf (fun _ => Tint.init) r.tints = true ∧ (r.sesOf 4).state = .opened ∧
      Sparse.wf (fun _ => Ses.init) r.ses = true ∧ r.item? keyOf3 = some i ∧ i.done = none ∧ ofSession 3 4 keyOf3 i = true ∧
      (decide (3 ≤ 31) && !s.saf.greyParts.contains 3 && decide ((s.part 3).state = .active)) = true ∧ s.fenceWaits 6 3 = false ∧
      r.fenceWaits 6 3 = true ∧ (decide (40 ≤ 31)) = false := by decide +kernel

/-! O54, FadeHeatSupplyAndTheJtagPort. -/

theorem wit_power : let s := State.reset
    let f : State := { s with pwr.step := 2 }
    s.pwr.gated = false ∧ s.pins.mainOn = true ∧ s.pwr.step < 1 ∧ s.regsWf ∧ s.player.ctx.length = 34 ∧ f.pwr.step = 2 ∧ 1 < f.pwr.step ∧
      f.pwr.hot = false ∧ (max 5 f.pwr.countFrom + 2000 < 2 ^ 64) ∧ ({ f with tbm.counting := true } : State).tbm.counting = true ∧
      s.pwr.hotRuns.length = 7 ∧ s.pwr.refLost = false ∧ s.pins.perst = true ∧ s.boot.flashOp = none ∧ s.pins.vaux = true ∧
      ({ s with pins.vaux := false } : State).boot.flashOp = none ∧ ({ s with pins.perst := false } : State).pins.perst = false := by decide +kernel
theorem wit_heat : let h : State := { State.reset with pwr.hotRuns := List.replicate 7 (1, 1, 1) }
    let runs := (h.pwr.hotRuns.zip [1250, 0, 0, 0, 0, 0, 0]).map fun (e : (Nat × Nat × Nat) × Int) => nextRuns e.1 e.2
    h.pwr.hotRuns.length = 7 ∧ h.pwr.hotRuns.any (fun r => decide (2 ≤ r.2.2)) = false ∧ runs.any (fun r => decide (2 ≤ r.2.2)) = true ∧
      h.pwr.hot = false ∧ runs.any (fun r => decide (2 ≤ r.2.1)) = true ∧ h.pwr.step < 3 ∧ h.promoted 0x0A = false := by decide +kernel
theorem wit_jtag : let d : State := { State.reset with sec.life := .development }
    let p : State := { State.reset with sec.life := .production }
    d.pins.vaux = true ∧ d.sec.life = .development ∧ p.sec.life ≠ .development ∧ p.pins.vaux = true ∧ 0x80 ≤ (0xFE : Byte).toNat ∧
      (0xFE : Byte).toNat ≤ 0xFE ∧ (0xFF : Byte) ∉ [(0x00 : Byte), 0x01, 0x02, 0x10] := by decide +kernel

/-! O55, ResetsBootUpdateAndRecovery. -/

theorem wit_boot : let s := State.reset
    let t : State := { s with boot.stage := .train, tbm.counting := true }
    s.pins.vaux = true ∧ s.boot.flashOp = none ∧ t.boot.stage = .train ∧ t.booting = true ∧ t.boot.startTb + 30000000000 < 2 ^ 64 ∧ s.regsWf ∧
      s.anyActive = false ∧ s.saf.safe = false ∧ s.mbx.length = 64 ∧ ({ s with saf.safe := true } : State).saf.safe = true ∧ s.fnPresent 0 = true ∧
      (itemState (itemOf 1 [])).fnPresent 4 = true ∧ s.sets.length = 33 ∧ (s.ringSet 32).sq.length = 16 ∧ (s.ringSet 32).cq.length = 16 ∧
      s.boot.trial = false ∧ ({ s with boot.trial := true, boot.stage := .ready } : State).boot.trial = true ∧ 2 ≤ ({ s with boot.fails := 2 } : State).boot.fails ∧
      (let f : FlashOp := { op := 2, off := 0x2000000, len := 256, data := some [1] }
       let o : State := { s with boot.flashOp := some f }
       o.boot.flashOp = some f ∧ Sparse.wf (fun _ => (0xFF : Byte)) o.boot.flash = true ∧ o.regsWf ∧
         ({ o with boot.flashOp := some { f with op := 1 } } : State).boot.flashOp = some { f with op := 1 }) ∧
      (let r : State := { s with boot.stage := .recovery, boot.recovery := some { slot := 1, comp := 5, offset := 56 } }
       r.recoveryOpen true = true ∧ r.recoveryOpen false = true ∧ r.mbx.length = 64 ∧ r.boot.recovery = some { slot := 1, comp := 5, offset := 56 }) := by
  decide +kernel

/-! O57, EveryStepHoldsTheHeartbeatPairInTheSafeState. -/

theorem wit_heartbeat : let s : State := { State.reset with saf.safe := true, pending := [.safeReq] }
    s.heartbeatHeld ∧ ∃ t, step s = .next t := by
  refine ⟨⟨fun _ => ⟨rfl, rfl⟩, by rintro ⟨h, -⟩; cases h⟩, _, rfl⟩

/-! O58, TheSafeStateLastsUntilTheNextReset. -/

theorem wit_safeLasts : let s : State := { State.reset with saf.safe := true, pending := [.safeReq] }
    s.pending = .safeReq :: [] ∧ endsSafe .safeReq = false ∧ s.saf.safe = true ∧ s.saf.hbA = false ∧ ∃ t, step s = .next t := ⟨rfl, rfl, rfl, rfl, _, rfl⟩

/-! O59, EveryStepKeepsMemoryAndRegistersCanonical. -/

theorem wit_canonical : State.reset.memoryWf ∧ State.reset.hostWf ∧ State.reset.regsWf ∧ ∃ t, step State.reset = .next t := by
  exact ⟨by decide, by decide, by decide, _, rfl⟩
end

section
/-! PROOFS. A move of TB, which fields the passes of a training step write, the parts of a commit point; the statement O12. -/

namespace Sys2Proof.Machine

/-! ### Moving TB forward -/

theorem State.advance_eq (s : State) (n : Nat) : s.advance n = { s with tbm := { s.tbm with tb := (s.advance n).tbm.tb } } := by
  unfold State.advance; split <;> rfl

/-- Where TB counts, it stands at the later of its present value and the instant asked for. -/
theorem State.now_advance (s : State) (n : Nat) (hc : s.tbm.counting = true) (hn : n < 2 ^ 64) : (s.advance n).now = max s.now n := by
  unfold State.advance State.now
  by_cases h : s.tbm.tb.toNat < n
  · rw [if_pos ⟨hc, h⟩, BitVec.toNat_ofNat, Nat.mod_eq_of_lt hn, Nat.max_eq_right (Nat.le_of_lt h)]
  · rw [if_neg (fun k => h k.2), Nat.max_eq_left (Nat.not_lt.mp h)]

/-! ### Which fields the passes of a training step write -/

/-- One more operation, which writes no field that is not listed already. -/
theorem State.writes_then {fs gs : List Fld} {s t u : State} (h : State.writes fs s t) (k : State.writes gs t u) (hg : ∀ f ∈ gs, f ∈ fs) :
    State.writes fs s u := State.writes_trans h (State.writes_mono k hg)

theorem State.modBatch_writes (s : State) (t : Nat) (f : Batch → Batch) : State.writes [.tints] s (s.modBatch t f) := State.setTint_writes s t _

theorem State.updStatus_writes (s : State) (c : UpdCmd) (code : Nat) : State.writes [.tiers] s (s.updStatus c code) := State.writeAt_writes s _ _

theorem State.bumpReg_writes (s : State) (k : Nat) : State.writes [.regs] s (s.bumpReg k) := State.setReg_writes s k _

theorem State.trainLog_writes (s : State) (t what arg : Nat) : State.writes [.clog, .regs] s (s.trainLog t what arg) :=
  State.logUnit_writes s _ _ _ _ _

theorem State.resultRef_writes (s : State) : State.writes [.free] s s.resultRef.2 :=
  fun f hf => by cases f <;> first | rfl | exact absurd (by decide) hf

theorem State.runPass1_writes (s : State) (t : Nat) (m : Mat) (w k : Word) : State.writes [.tints] s (s.runPass1 t m w k).1 :=
  State.modBatch_writes s t _

theorem State.addPartials_writes (s : State) (t h : Nat) (ws : List Word) : State.writes [.tints] s (s.addPartials t h ws) :=
  State.modBatch_writes s t _

theorem State.queueStep_writes (s : State) (t op : Nat) (kappa eta : Word) : State.writes [.upd, .tiers, .free] s (s.queueStep t op kappa eta) := by
  refine State.writes_foldl _ (fun s m => ?_) _ s
  have href : State.writes [.upd, .tiers, .free] s s.resultRef.2 := State.writes_mono (State.resultRef_writes s) (by decide)
  exact State.writes_trans href (State.writes_ite (State.writes_refl _ _)
    (State.writes_seq (State.setUpd_writes _ _ _) (State.updStatus_writes _ _ _) (by decide) (by decide)))

theorem State.vecPass1_writes (s : State) (t : Nat) : State.writes [.tints, .tiers] s (s.vecPass1 t) := by
  unfold State.vecPass1
  dsimp only
  have hpass : State.writes [.tints, .tiers] s ((s.matrices t).foldl (fun (s : State) m =>
      (s.runPass1 t m (s.stepW t) (s.stepK t)).1.addPartials t m.param (s.runPass1 t m (s.stepW t) (s.stepK t)).2) s) :=
    State.writes_foldl _ (fun s m => State.writes_seq (State.runPass1_writes s t m _ _) (State.addPartials_writes _ t _ _) (by decide) (by decide)) _ s
  refine State.writes_trans hpass ?_
  split
  · exact State.writes_ite (State.writes_mono (State.writeAt_writes _ _ _) (by decide)) (State.writes_refl _ _)
  · exact State.writes_refl _ _

theorem State.dropStep_writes (s : State) (t : Nat) : State.writes [.tints, .tiers, .upd, .free, .regs, .clog] s (s.dropStep t) := by
  unfold State.dropStep
  refine State.writes_then ?_ (State.modBatch_writes _ t _) (by decide)
  refine State.writes_then ?_ (State.queueStep_writes _ t 3 0 0) (by decide)
  refine State.writes_then ?_ (State.trainLog_writes _ t 7 0) (by decide)
  refine State.writes_then ?_ (State.raise_writes _ _ _) (by decide)
  refine State.writes_then ?_ (State.bumpReg_writes _ _) (by decide)
  exact State.writes_mono (State.abandonCmds_writes s t) (by decide)

theorem State.skipStep_writes (s : State) (t what : Nat) : State.writes [.tints, .tiers, .upd, .regs, .clog, .sets] s (s.skipStep t what) := by
  unfold State.skipStep
  refine State.writes_ite (State.writes_refl _ s) ?_
  refine State.writes_then ?_ (State.modBatch_writes _ t _) (by decide)
  refine State.writes_then ?_ (State.writes_ite (State.writes_refl _ _) (State.abandonCmds_writes _ t)) (by decide)
  refine State.writes_then ?_ (State.event_writes _ _ _ _ _ _ _ _) (by decide)
  refine State.writes_then ?_ (State.trainLog_writes _ t 2 0) (by decide)
  refine State.writes_then ?_ (State.bumpReg_writes _ _) (by decide)
  exact State.writes_ite (State.writes_mono (State.raise_writes s _ _) (by decide)) (State.writes_refl _ s)

theorem State.reduceNorm_writes (s : State) (t : Nat) : State.writes [.tints, .tiers, .upd, .regs, .clog, .sets] s (s.reduceNorm t) :=
  State.writes_ite (State.skipStep_writes s t 2) (State.writes_mono (State.modBatch_writes s t _) (by decide))

theorem State.reducePasses_writes (s : State) : State.writes [.tints, .tiers, .upd, .free, .regs, .clog, .sets] s s.reducePasses := by
  unfold State.reducePasses
  refine State.writes_then (gs := [.tints, .tiers, .upd, .free, .regs, .clog, .sets]) ?_ (State.writes_each _ (fun s t => ?_) _ _) (by decide)
  · refine State.writes_then ?_ (State.writes_each _ (fun s t => State.dropStep_writes s t) _ _) (by decide)
    exact State.writes_each _ (fun s t => State.writes_mono (State.vecPass1_writes s t) (by decide)) _ s
  · refine State.writes_trans (State.writes_mono (State.reduceNorm_writes s t) (by decide)) ?_
    dsimp only
    split
    · exact State.writes_ite (State.writes_mono (State.queueStep_writes _ t 2 _ _) (by decide)) (State.writes_refl _ _)
    · exact State.writes_refl _ _

/-! ### The parts of a commit point -/

/-- The commits fixed are the records for the next frame; beside them no more than the announced profile and TB_PROFILE.pending may move. -/
theorem State.fixCommits_eq (s : State) : s.fixCommits =
    { s with player := { s.player with fixedRecs := s.player.nextRecs, lastHouse := s.fixCommits.player.lastHouse },
             tbm := { s.tbm with announced := s.fixCommits.tbm.announced, pending := s.fixCommits.tbm.pending } } := by
  unfold State.fixCommits
  dsimp only
  split <;> rfl

theorem State.judgeCommit_of_done (s : State) (h : s.player.nextDone = true) :
    s.judgeCommit = { s with saf := { s.saf with missedCommits := 0 } } := if_pos h

/-- A missed commit is counted and its frame marked; the log record and its status bit are the only other traces. -/
theorem State.judgeCommit_of_missed (s : State) (h : s.player.nextDone = false) (hs : s.tbm.stopPending = false) :
    s.judgeCommit = { s with saf := { s.saf with missedCommits := s.saf.missedCommits + 1 }, player := { s.player with missed := true },
                             regs := s.judgeCommit.regs, clog := s.judgeCommit.clog } := by
  unfold State.judgeCommit
  rw [if_neg (by simp [h]), if_neg (by simp [hs])]
  dsimp only
  split
  · rw [State.logUnit_eq]; rfl
  · rfl

/-- Arming the requests and reducing the passes leave the timebase, the player and the count of missed commits. -/
theorem State.armRequests_reducePasses_frame (s : State) :
    s.armRequests.reducePasses.tbm = s.tbm ∧ s.armRequests.reducePasses.player = s.player ∧
      s.armRequests.reducePasses.saf.missedCommits = s.saf.missedCommits := by
  have h := State.reducePasses_writes s.armRequests
  have hsaf : s.armRequests.reducePasses.saf = s.armRequests.saf := h .saf (by decide)
  exact ⟨h .tbm (by decide), h .player (by decide), by rw [hsaf]; rfl⟩

/-- The state at the instant of the commit point: TB has come to 20,000 ns before the next tick and the frame's commit point has passed. -/
def State.atCommitPoint (s : State) : State :=
  let u := s.advance (s.tbm.tNext.toNat - 20000)
  { u with tbm := { u.tbm with cpPassed := true } }

/-- Only TB and the mark of the commit point differ at its instant. -/
theorem State.atCommitPoint_eq (s : State) : s.atCommitPoint = { s with tbm := { s.tbm with tb := s.atCommitPoint.tbm.tb, cpPassed := true } } := by
  unfold State.atCommitPoint
  rw [State.advance_eq]

theorem State.now_atCommitPoint (s : State) (hc : s.tbm.counting = true) :
    s.atCommitPoint.now = max s.now (s.tbm.tNext.toNat - 20000) :=
  s.now_advance _ hc (by have := s.tbm.tNext.isLt; omega)

/-- COMMIT_POINT as the sequence of its parts, where the commit point is still to come and the device is not in its safe state. -/
theorem exec_commitPoint (s : State) (hr : s.tbm.running = true) (hcp : s.tbm.cpPassed = false) (hsafe : s.saf.safe = false) :
    exec .commitPoint s = .next s.atCommitPoint.fixCommits.judgeCommit.armRequests.reducePasses := by
  have hsafe' : s.atCommitPoint.saf.safe = false := by rw [State.atCommitPoint_eq]; exact hsafe
  change execCommitPoint s = _
  unfold execCommitPoint
  rw [if_neg (by simp [hr, hcp])]
  exact if_neg fun h => absurd (h.symm.trans hsafe') (by decide)

/-- What the instant of the commit point and the fixing of the commits keep of the timebase, the player and the safety unit. -/
theorem State.atCommitPoint_fixCommits_frame (s : State) :
    s.atCommitPoint.fixCommits.tbm.tb = s.atCommitPoint.tbm.tb ∧ s.atCommitPoint.fixCommits.tbm.cpPassed = true ∧
    s.atCommitPoint.fixCommits.tbm.fn = s.tbm.fn ∧ s.atCommitPoint.fixCommits.tbm.epoch = s.tbm.epoch ∧
    s.atCommitPoint.fixCommits.tbm.stopPending = s.tbm.stopPending ∧ s.atCommitPoint.fixCommits.player.nextDone = s.player.nextDone ∧
    s.atCommitPoint.fixCommits.player.fixedRecs = s.player.nextRecs ∧
    s.atCommitPoint.fixCommits.saf.missedCommits = s.saf.missedCommits := by
  rw [State.fixCommits_eq, State.atCommitPoint_eq]
  exact ⟨rfl, rfl, rfl, rfl, rfl, rfl, rfl, rfl⟩

/-- Settles O12: the commit point fixes the next frame's records, and a commit clears the count of missed ones where its absence adds one. -/
theorem commitPointsFixTheNextFrame : Obligations.CommitPointsFixTheNextFrame := by
  unfold Obligations.CommitPointsFixTheNextFrame
  constructor
  · intro s hr hcp hsafe hdone
    obtain ⟨htb, hpassed, hfn, hepoch, -, hnext, hfixed, -⟩ := s.atCommitPoint_fixCommits_frame
    obtain ⟨htbm, hplayer, hmissed⟩ := s.atCommitPoint.fixCommits.judgeCommit.armRequests_reducePasses_frame
    refine ⟨_, exec_commitPoint s hr hcp hsafe, ?_⟩
    rw [State.now, htbm, hplayer, hmissed, State.judgeCommit_of_done _ (hnext.trans hdone)]
    exact ⟨hpassed, hfixed, rfl, hfn, hepoch, fun hc => (congrArg BitVec.toNat htb).trans (s.now_atCommitPoint hc)⟩
  · intro s hr hcp hsafe hdone hstop
    obtain ⟨-, hpassed, hfn, -, hstopped, hnext, hfixed, hcount⟩ := s.atCommitPoint_fixCommits_frame
    obtain ⟨htbm, hplayer, hmissed⟩ := s.atCommitPoint.fixCommits.judgeCommit.armRequests_reducePasses_frame
    refine ⟨_, exec_commitPoint s hr hcp hsafe, ?_⟩
    rw [htbm, hplayer, hmissed, State.judgeCommit_of_missed _ (hnext.trans hdone) (hstopped.trans hstop)]
    exact ⟨hpassed, congrArg (· + 1) hcount, rfl, hfixed, hfn⟩

end Sys2Proof.Machine
end

section
/-! PROOFS. The director's commits of records and of profiles, and the policy review; the statement O17. -/

namespace Sys2Proof.Machine

/-! ### A commit of records -/

/-- House records whose profile may be taken are taken as they are, and nothing is logged (R53). -/
theorem State.judgeProfile_of_ok (s : State) (fixed : BitVec 2) (recs : List (Nat × CommitRec))
    (h : ∀ r ∈ recs, r.1 = 32 → s.profileOk r.2.profile = true) : s.judgeProfile fixed recs = (s, recs) := by
  have hfold : ∀ (rest kept : List (Nat × CommitRec)), (∀ r ∈ rest, r.1 = 32 → s.profileOk r.2.profile = true) →
      rest.foldl (fun (a : State × List (Nat × CommitRec)) r =>
        if r.1 = 32 ∧ !a.1.profileOk r.2.profile then (a.1.logProfile fixed r.2.profile 1, a.2 ++ [(32, { r.2 with profile := fixed })])
        else (a.1, a.2 ++ [r])) (s, kept) = (s, kept ++ rest) := by
    intro rest
    induction rest with
    | nil => intro kept _; simp
    | cons r rest ih =>
      intro kept hr
      have hok : ¬ (r.1 = 32 ∧ (!s.profileOk r.2.profile) = true) := fun ⟨h1, h2⟩ => by
        rw [hr r List.mem_cons_self h1] at h2; exact absurd h2 (by decide)
      rw [List.foldl_cons, if_neg hok, ih _ fun x hx => hr x (List.mem_cons_of_mem _ hx), List.append_assoc, List.singleton_append]
  exact hfold recs [] h

theorem filter_owner_eq (recs : List (Nat × CommitRec)) (h : ∀ r ∈ recs, r.1 ≤ 32) : recs.filter (fun r => decide (r.1 ≤ 32)) = recs :=
  List.filter_eq_self.mpr fun r hr => decide_eq_true (h r hr)

/-- A commit that R329 allows is taken. -/
theorem exec_directorCommit (s : State) (recs : List (Nat × CommitRec)) (hsafe : s.saf.safe = false) (hown : ∀ r ∈ recs, r.1 ≤ 32)
    (hflex : ∀ r ∈ recs, s.flexOk s.commitsLate r.1 r.2 = true) : exec (.directorCommit recs) s = .next (s.takeCommit recs) := by
  have hall : (recs.all fun r => s.flexOk s.commitsLate r.1 r.2) = true := List.all_eq_true.mpr hflex
  change execDirectorCommit recs s = _
  unfold execDirectorCommit
  rw [filter_owner_eq recs hown]
  exact if_neg (by simp [hsafe, hall])

/-- A commit with a record that breaks R329 has no effect. -/
theorem exec_directorCommit_refused (s : State) (recs : List (Nat × CommitRec)) (r : Nat × CommitRec) (hr : r ∈ recs) (hown : r.1 ≤ 32)
    (hflex : s.flexOk s.commitsLate r.1 r.2 = false) : exec (.directorCommit recs) s = .next s := by
  have hall : ((recs.filter fun r => decide (r.1 ≤ 32)).all fun r => s.flexOk s.commitsLate r.1 r.2) = false :=
    List.all_eq_false.mpr ⟨r, List.mem_filter.mpr ⟨hr, decide_eq_true hown⟩, by simp [hflex]⟩
  change execDirectorCommit recs s = _
  unfold execDirectorCommit
  exact if_pos (by rw [hall]; simp)

/-- Before the commit point the records replace those for the next frame. -/
theorem State.takeCommit_early (s : State) (recs : List (Nat × CommitRec)) (hok : ∀ r ∈ recs, r.1 = 32 → s.profileOk r.2.profile = true)
    (hl : s.commitsLate = false) :
    s.takeCommit recs = { s with player := { s.player with nextRecs := recs, nextDone := true } }.updatePending := by
  unfold State.takeCommit
  simp only [hl, State.judgeProfile_of_ok s _ recs hok]
  rfl

/-- After the commit point they replace those for the frame after the next. -/
theorem State.takeCommit_late (s : State) (recs : List (Nat × CommitRec)) (hok : ∀ r ∈ recs, r.1 = 32 → s.profileOk r.2.profile = true)
    (hl : s.commitsLate = true) :
    s.takeCommit recs = { s with player := { s.player with afterRecs := recs, afterDone := true } }.updatePending := by
  unfold State.takeCommit
  simp only [hl, State.judgeProfile_of_ok s _ recs hok]
  rfl

/-! ### A commit of a profile -/

/-- The records with a house record of profile `p`: every house record takes `p`; where there is none, `house` with `p` goes in front. -/
def withHouseProfile (p : BitVec 2) (house : CommitRec) (rs : List (Nat × CommitRec)) : List (Nat × CommitRec) :=
  if rs.any fun r => r.1 = 32 then rs.map fun r => if r.1 = 32 then (32, { r.2 with profile := p }) else r
  else (32, { house with profile := p }) :: rs

theorem withHouseProfile_profile (p : BitVec 2) (house : CommitRec) (rs : List (Nat × CommitRec)) (r : CommitRec)
    (h : (32, r) ∈ withHouseProfile p house rs) : r.profile = p := by
  unfold withHouseProfile at h
  split at h
  case isTrue =>
    obtain ⟨x, -, hx⟩ := List.mem_map.mp h
    by_cases h32 : x.1 = 32
    · rw [if_pos h32] at hx
      exact (congrArg (·.2.profile) hx).symm
    · rw [if_neg h32] at hx
      exact absurd (congrArg (·.1) hx) h32
  case isFalse hnone =>
    rcases List.mem_cons.mp h with he | hr
    · exact congrArg (·.2.profile) he
    · exact absurd (List.any_eq_true.mpr ⟨_, hr, decide_eq_true rfl⟩) hnone

theorem withHouseProfile_exists (p : BitVec 2) (house : CommitRec) (rs : List (Nat × CommitRec)) :
    ∃ r : CommitRec, (32, r) ∈ withHouseProfile p house rs := by
  unfold withHouseProfile
  split
  case isTrue hany =>
    obtain ⟨x, hx, h32⟩ := List.any_eq_true.mp hany
    exact ⟨{ x.2 with profile := p }, List.mem_map.mpr ⟨x, hx, if_pos (of_decide_eq_true h32)⟩⟩
  case isFalse => exact ⟨_, List.mem_cons_self⟩

/-- The house record that a commit of a profile starts from where no committed record is the house's: the last one committed, else one of
the house's fallback sheet. -/
def State.houseBase (s : State) : CommitRec :=
  s.player.lastHouse.getD { slot := (s.fallbackSlot 32 s.tbm.active.toNat).getD 0, bindings := [], training := [], profile := 0 }

/-- Before the commit point a commit of a profile changes the house record for the next frame. -/
theorem State.commitProfile_early (s : State) (p : BitVec 2) (hl : s.commitsLate = false) :
    s.commitProfile p =
      { s with player := { s.player with nextRecs := withHouseProfile p s.houseBase s.player.nextRecs, nextDone := true } }.updatePending := by
  unfold State.commitProfile withHouseProfile State.houseBase
  rw [if_neg (by simp [hl])]
  cases s.player.lastHouse <;> rfl

/-! ### LONGER_PROFILE -/

theorem exec_longerProfile (s : State) (p : Nat) (hovr : 3 ≤ s.player.ovrConsec) (hf : s.follower = false) (hsafe : s.saf.safe = false)
    (hr : s.tbm.running = true) (hp : s.nextLonger = some p) (hsheets : s.sheetsFor p = true) (hok : s.profileOk (BitVec.ofNat 2 p) = true) :
    exec .longerProfile s = .next { s.commitProfile (BitVec.ofNat 2 p) with
      player := { (s.commitProfile (BitVec.ofNat 2 p)).player with cameFrom := some s.tbm.active } } := by
  change execLongerProfile s = _
  unfold execLongerProfile
  rw [if_neg (by simp [hf, hsafe, hr]; omega)]
  simp [hp, hsheets, hok]

/-- Where no longer profile can be committed the director says so in SHT_STATUS and the log, naming that profile or the present one. -/
theorem exec_longerProfile_stays (s : State) (hovr : 3 ≤ s.player.ovrConsec) (hf : s.follower = false) (hsafe : s.saf.safe = false)
    (hr : s.tbm.running = true)
    (hp : s.nextLonger = none ∨ ∃ p, s.nextLonger = some p ∧ (s.sheetsFor p = false ∨ s.profileOk (BitVec.ofNat 2 p) = false)) :
    ∃ q, exec .longerProfile s = .next ((s.raise Reg.shtStatus 5).logProfile s.tbm.active q 3) := by
  change ∃ q, execLongerProfile s = _
  unfold execLongerProfile
  rw [if_neg (by simp [hf, hsafe, hr]; omega)]
  rcases hp with hp | ⟨p, hp, hbad⟩
  · exact ⟨s.tbm.active, by simp [hp]⟩
  · refine ⟨BitVec.ofNat 2 p, ?_⟩
    simp only [hp]
    exact if_neg (by rcases hbad with h | h <;> simp [h])

theorem State.raise_logProfile_eq (s : State) (k i : Nat) (old new : BitVec 2) (what : Nat) :
    (s.raise k i).logProfile old new what =
      { s with regs := ((s.raise k i).logProfile old new what).regs, clog := ((s.raise k i).logProfile old new what).clog } := by
  unfold State.logProfile
  rw [State.log_eq]
  rfl

/-! ### POLICY_REVIEW -/

/-- A tint as a policy review leaves it: no retake hold, no retake counts (R337). -/
def reviewedTint (t : Tint) : Tint := { t with train := { t.train with hold := none, retakes := [] } }

/-- The state in which a policy review weighs the return to the shorter profile: every tint reviewed, the count of overrun frames started
anew, the frame marked as reviewed. -/
def State.reviewed (s : State) : State :=
  { s with tints := Sparse.mapListed (fun _ => Tint.init) (fun _ => reviewedTint) s.tints,
           player := { s.player with ovrReview := 0, reviewFn := some s.tbm.fn } }

theorem State.tintOf_reviewed (s : State) (k : Nat) (h : Sparse.wf (fun _ => Tint.init) s.tints = true) :
    s.reviewed.tintOf k = reviewedTint (s.tintOf k) := Sparse.get_mapListed _ (fun _ => reviewedTint) _ k h rfl

/-- POLICY_REVIEW in a frame that is due for it, as the review of the tints and the choice whether to return. -/
theorem exec_policyReview (s : State) (hr : s.tbm.running = true) (hfn : s.fnNat % 1024 = 0) (hnew : s.player.reviewFn ≠ some s.tbm.fn)
    (hsafe : s.saf.safe = false) :
    exec .policyReview s = match s.player.cameFrom with
      | some p =>
        if decide (s.player.ovrReview = 0) && !s.follower && s.profileOk p && s.sheetsFor p.toNat then
          .next { s.reviewed.commitProfile p with player := { (s.reviewed.commitProfile p).player with cameFrom := none } }
        else .next s.reviewed
      | none => .next s.reviewed := by
  change execPolicyReview s = _
  unfold execPolicyReview
  rw [if_neg (by simp [hr, hfn, hnew, hsafe])]
  rfl

/-- No profile to return to, or an overrun in the reviewed frames: the review itself is all. -/
theorem exec_policyReview_stays (s : State) (hr : s.tbm.running = true) (hfn : s.fnNat % 1024 = 0)
    (hnew : s.player.reviewFn ≠ some s.tbm.fn) (hsafe : s.saf.safe = false) (hstay : s.player.cameFrom = none ∨ s.player.ovrReview ≠ 0) :
    exec .policyReview s = .next s.reviewed := by
  rw [exec_policyReview s hr hfn hnew hsafe]
  split
  case h_1 p hp =>
    have hovr : s.player.ovrReview ≠ 0 := hstay.resolve_left (by simp [hp])
    exact if_neg (by simp [hovr])
  case h_2 => rfl

/-- After 1,024 frames without an overrun a master commits the profile that it left. -/
theorem exec_policyReview_returns (s : State) (p : BitVec 2) (hr : s.tbm.running = true) (hfn : s.fnNat % 1024 = 0)
    (hnew : s.player.reviewFn ≠ some s.tbm.fn) (hsafe : s.saf.safe = false) (hcame : s.player.cameFrom = some p)
    (hovr : s.player.ovrReview = 0) (hf : s.follower = false) (hok : s.profileOk p = true) (hsheets : s.sheetsFor p.toNat = true) :
    exec .policyReview s =
      .next { s.reviewed.commitProfile p with player := { (s.reviewed.commitProfile p).player with cameFrom := none } } := by
  rw [exec_policyReview s hr hfn hnew hsafe, hcame]
  exact if_pos (by simp [hovr, hf, hok, hsheets])

/-- Settles O17: a commit of records or of a profile before its frame's commit point rewrites the records for the next frame, one after it
those for the frame after that; the review changes the tints and the count of overrun frames. -/
theorem theDirectorsCommitsAndReviews : Obligations.TheDirectorsCommitsAndReviews := by
  unfold Obligations.TheDirectorsCommitsAndReviews
  refine ⟨?early, ?late, exec_directorCommit_refused, ?longer, ?stays, ?review, ?returns⟩
  case early =>
    intro s recs hsafe hown hflex hok hl
    refine ⟨_, exec_directorCommit s recs hsafe hown hflex, ?_⟩
    rw [State.takeCommit_early s recs hok hl]
    exact ⟨rfl, rfl, rfl⟩
  case late =>
    intro s recs hsafe hown hflex hok hl
    refine ⟨_, exec_directorCommit s recs hsafe hown hflex, ?_⟩
    rw [State.takeCommit_late s recs hok hl]
    exact ⟨rfl, rfl⟩
  case longer =>
    intro s p hovr hf hsafe hr hp hsheets hok hl
    refine ⟨_, exec_longerProfile s p hovr hf hsafe hr hp hsheets hok, ?_⟩
    rw [State.commitProfile_early s _ hl]
    exact ⟨rfl, rfl, withHouseProfile_profile _ _ _, withHouseProfile_exists _ _ _, rfl⟩
  case stays =>
    intro s hwf hovr hf hsafe hr hp
    obtain ⟨q, hq⟩ := exec_longerProfile_stays s hovr hf hsafe hr hp
    refine ⟨_, hq, ?_, s.raise_logProfile_eq _ _ _ _ _⟩
    rw [State.regBit, State.logProfile, State.log_reg _ _ _ _ (s.regsWf_raise _ _ hwf) (by decide)]
    exact (s.regBit_raise _ 5 5 hwf (by decide)).trans (by simp)
  case review =>
    intro s hwf hr hfn hnew hsafe hstay
    exact ⟨_, exec_policyReview_stays s hr hfn hnew hsafe hstay, fun k => s.tintOf_reviewed k hwf, rfl⟩
  case returns =>
    intro s p hwf hr hfn hnew hsafe hcame hovr hf hok hsheets hl
    refine ⟨_, exec_policyReview_returns s p hr hfn hnew hsafe hcame hovr hf hok hsheets, ?_⟩
    rw [State.commitProfile_early s.reviewed p hl]
    exact ⟨rfl, rfl, withHouseProfile_profile _ _ _, withHouseProfile_exists _ _ _, fun k => s.tintOf_reviewed k hwf⟩

end Sys2Proof.Machine
end

section
/-! PROOFS. A physical array turning grey, the fence request for a logical array and the switch of the comparisons; the statement O31. -/

namespace Sys2Proof.Machine

/-- Counting the fence of an array of no owner: the count, a device event and a status bit, and no log record of its own (R113). -/
theorem State.countFence_array_eq (s : State) (p : Nat) (req : Bool) :
    s.countFence 0 p 0xFF req = { s with saf := { s.saf with fenceCnt := s.saf.fenceCnt.modify 0 fun n => satAdd 32 n 1 },
                                         regs := (s.countFence 0 p 0xFF req).regs, sets := (s.countFence 0 p 0xFF req).sets } := by
  unfold State.countFence
  dsimp only
  rw [if_neg (by decide), if_neg (by decide), State.event_eq]
  rfl

theorem State.greyArray_of_grey (s : State) (p : Nat) (req : Bool) (h : s.physState p = 2) : s.greyArray p req = s := if_pos h

/-- An array that is not grey yet turns grey and is counted, in the grid and among the fences. -/
theorem State.greyArray_of_not_grey (s : State) (p : Nat) (req : Bool) (h : s.physState p ≠ 2) :
    s.greyArray p req = { s with
      grid := { (s.setPhys p 2).grid with greyCnt := s.grid.greyCnt + 1 },
      saf := { s.saf with fenceCnt := s.saf.fenceCnt.modify 0 fun n => satAdd 32 n 1 },
      regs := (s.greyArray p req).regs, sets := (s.greyArray p req).sets } := by
  unfold State.greyArray
  rw [if_neg h]
  dsimp only
  rw [State.countFence_array_eq]
  rfl

/-- A physical array's state reads as written, every other one's as before. -/
theorem State.physState_setPhys (s : State) (p st j : Nat) (h : Sparse.wf (fun p => if p % 672 < 640 then 0 else 1) s.grid.phys = true) :
    (s.setPhys p st).physState j = if j = p then st else s.physState j := Sparse.get_set _ _ _ _ _ h

/-- The arrays with a fence requested, with one more: each stands once. -/
def withFence (fences : List Nat) (g : Nat) : List Nat := if fences.contains g then fences else fences ++ [g]

theorem mem_withFence (fences : List Nat) (g h : Nat) : h ∈ withFence fences g ↔ h = g ∨ h ∈ fences := by
  unfold withFence
  split
  case isTrue hg =>
    have hmem : g ∈ fences := List.contains_iff_mem.mp hg
    exact ⟨Or.inr, fun hh => hh.elim (fun e => e ▸ hmem) id⟩
  case isFalse => rw [List.mem_append, List.mem_singleton, or_comm]

/-- A fence request that R115 allows turns the physical array grey and leaves its logical one to the next tick. -/
theorem exec_arrayFenceReq (s : State) (g : Nat) (hg : g ≤ 2559) (hfree : s.freeSpares ≠ []) :
    exec (.arrayFenceReq g) s = .next { s.greyArray (s.physOf g) true with
      grid := { (s.greyArray (s.physOf g) true).grid with fences := withFence (s.greyArray (s.physOf g) true).grid.fences g } } := by
  change execArrayFenceReq g s = _
  unfold execArrayFenceReq
  rw [if_neg (by simp [hfree]; omega)]
  rfl

/-- A fence request for a number that does not exist, or with no spare free, is a configuration error. -/
theorem exec_arrayFenceReq_refused (s : State) (g : Nat) (h : 2559 < g ∨ s.freeSpares = []) :
    exec (.arrayFenceReq g) s = .next (s.raise Reg.grdStatus 4) := by
  change execArrayFenceReq g s = _
  exact if_pos (h.imp_right fun h => by rw [h]; rfl)

theorem exec_checkDisable (s : State) (hlock : s.locked .grd = false) (hact : s.anyActive = false) (hchk : s.checking = true) :
    exec .checkDisable s = .next ((s.setFld Reg.grdCtrl 0 1 0).log 0x0304 [0]) := by
  change execCheckDisable s = _
  unfold execCheckDisable
  rw [if_neg (by simp [hlock]), if_neg (by simp [hact]), if_pos hchk]

theorem exec_checkDisable_refused (s : State) (hlock : s.locked .grd = false) (hact : s.anyActive = true) :
    exec .checkDisable s = .next (s.raise Reg.grdStatus 4) := by
  change execCheckDisable s = _
  unfold execCheckDisable
  rw [if_neg (by simp [hlock]), if_pos hact]

/-- Settles O31: a fence request greys its physical array once and waits for the tick; the check's switch moves only while no partition is
in the frame. -/
theorem arrayFencesAndTheCheckSwitch : Obligations.ArrayFencesAndTheCheckSwitch := by
  unfold Obligations.ArrayFencesAndTheCheckSwitch
  have hraised : ∀ s : State, s.regsWf → (s.raise Reg.grdStatus 4).regBit Reg.grdStatus 4 = true := fun s hwf => by
    simp [s.regBit_raise _ 4 4 hwf (by decide)]
  refine ⟨?fence, ?again, ?refused, ?switch, ?active⟩
  case fence =>
    intro s g hg hfree hnew hwf
    refine ⟨_, exec_arrayFenceReq s g hg hfree, ?_⟩
    rw [State.greyArray_of_not_grey s _ true hnew]
    exact ⟨(mem_withFence _ g g).mpr (Or.inl rfl), fun h hne => (mem_withFence _ g h).trans (or_iff_right hne),
      fun p => s.physState_setPhys _ 2 p hwf, rfl, rfl, rfl⟩
  case again =>
    intro s g hg hfree hgrey
    refine ⟨_, exec_arrayFenceReq s g hg hfree, ?_⟩
    rw [State.greyArray_of_grey s _ true hgrey]
    exact ⟨(mem_withFence _ g g).mpr (Or.inl rfl), rfl⟩
  case refused =>
    intro s g hwf hbad
    exact ⟨_, exec_arrayFenceReq_refused s g hbad, hraised s hwf, s.regsBut_raise _ 4 hwf, rfl⟩
  case switch =>
    intro s hwf hlock hact hchk
    have hwf' : (s.setFld Reg.grdCtrl 0 1 0).regsWf := s.regsWf_setFld _ _ _ _ hwf
    refine ⟨_, exec_checkDisable s hlock hact hchk, ?_, ?_, ?_⟩
    · rw [State.checking, State.regBit, State.log_reg _ _ _ _ hwf' (by decide)]
      exact (s.regBit_setFld _ 0 1 0 0 hwf (by decide)).trans rfl
    · intro k hk
      rw [List.mem_cons, List.mem_singleton, not_or] at hk
      rw [State.log_reg _ _ _ k hwf' hk.2]
      exact s.regsBut_setFld _ 0 1 0 hwf k (by simpa using hk.1)
    · rw [State.log_eq]; rfl
  case active =>
    intro s hwf hlock hact
    exact ⟨_, exec_checkDisable_refused s hlock hact, hraised s hwf, s.regsBut_raise _ 4 hwf, rfl⟩

end Sys2Proof.Machine
end

section
/-! PROOFS. Where the accumulators of a shot stand, the loop over them, and what a matrix shot on a free tile does; the statement O26. -/

namespace Sys2Proof.Machine

/-! ### Reading and rewriting many entries -/

/-- Rewrites one entry by a function of what it read as. -/
def Sparse.update {β : Type} [DecidableEq β] (d : Nat → β) (m : Sparse β) (k : Nat) (g : β → β) : Sparse β :=
  Sparse.set d m k (g (Sparse.get d m k))

/-- A loop over items with keys of their own rewrites each item's entry once, from what stood there before the loop. -/
theorem Sparse.get_foldl_update {α β : Type} [DecidableEq β] (d : Nat → β) (key : α → Nat) (g : α → β → β) (xs : List α) :
    ∀ m : Sparse β, Sparse.wf d m = true → (xs.map key).Nodup →
      (∀ a ∈ xs, Sparse.get d (xs.foldl (fun m a => Sparse.update d m (key a) (g a)) m) (key a) = g a (Sparse.get d m (key a))) ∧
      (∀ k, k ∉ xs.map key → Sparse.get d (xs.foldl (fun m a => Sparse.update d m (key a) (g a)) m) k = Sparse.get d m k) := by
  induction xs with
  | nil => exact fun m _ _ => ⟨fun _ h => absurd h List.not_mem_nil, fun _ _ => rfl⟩
  | cons x xs ih =>
    intro m hw hnd
    rw [List.map_cons, List.nodup_cons] at hnd
    obtain ⟨hx, hnd⟩ := hnd
    have hget : ∀ j, Sparse.get d (Sparse.update d m (key x) (g x)) j =
        if j = key x then g x (Sparse.get d m (key x)) else Sparse.get d m j := fun j => Sparse.get_set d m (key x) j _ hw
    obtain ⟨hin, hout⟩ := ih (Sparse.update d m (key x) (g x)) (Sparse.wf_set d m _ _ hw) hnd
    constructor
    · intro a ha
      rcases List.mem_cons.mp ha with rfl | ha
      · rw [List.foldl_cons, hout _ hx, hget, if_pos rfl]
      · have hne : key a ≠ key x := fun e => hx (e ▸ List.mem_map_of_mem ha)
        rw [List.foldl_cons, hin a ha, hget, if_neg hne]
    · intro k hk
      rw [List.map_cons, List.mem_cons, not_or] at hk
      rw [List.foldl_cons, hout k hk.2, hget, if_neg hk.1]

/-! ### Where the accumulators stand -/

theorem accKey_eq (q r c : Nat) : accKey q r c = (64 * q + r) * 64 + c := by
  unfold accKey; omega

/-- Two cells of output tiles share an accumulator only where quad, row and column agree. -/
theorem accKey_inj {q r c q' r' c' : Nat} (hr : r < 64) (hr' : r' < 64) (hc : c < 64) (hc' : c' < 64)
    (h : accKey q r c = accKey q' r' c') : q = q' ∧ r = r' ∧ c = c' := by
  rw [accKey_eq, accKey_eq] at h; omega

/-- A shot of no more than 640 output tiles computes each in a quad of its own (R121). -/
theorem Shot.quad_inj (d : Shot) {i j i' j' : Nat} (hfit : d.tilesM * d.tilesN ≤ 640) (hi : i < d.tilesM) (hj : j < d.tilesN)
    (hi' : i' < d.tilesM) (hj' : j' < d.tilesN) (h : d.quad i j = d.quad i' j') : i = i' ∧ j = j' := by
  have hplace : ∀ a b, a < d.tilesM → b < d.tilesN → a * d.tilesN + b < 640 := fun a b ha hb => by
    have := Nat.mul_le_mul_right d.tilesN (Nat.succ_le_of_lt ha)
    rw [Nat.succ_mul] at this
    omega
  have hsame : i * d.tilesN + j = i' * d.tilesN + j' := by
    have h1 := hplace i j hi hj
    have h2 := hplace i' j' hi' hj'
    unfold Shot.quad at h
    omega
  have hmod : j = j' := by
    have h : (i * d.tilesN + j) % d.tilesN = (i' * d.tilesN + j') % d.tilesN := congrArg (· % d.tilesN) hsame
    rwa [Nat.mul_add_mod', Nat.mul_add_mod', Nat.mod_eq_of_lt hj, Nat.mod_eq_of_lt hj'] at h
  subst hmod
  exact ⟨Nat.eq_of_mul_eq_mul_right (Nat.lt_of_le_of_lt (Nat.zero_le j) hj) (Nat.add_right_cancel hsame), rfl⟩

/-- The key of the accumulator of output element (i, j) among those of all tiles. -/
def Shot.cellKey (d : Shot) (e : Nat × Nat) : Nat := accKey (d.quad (e.1 / 64) (e.2 / 64)) (e.1 % 64) (e.2 % 64) * 4 + d.tile

/-- The cells of a shot's output tiles, in row-major order. -/
def Shot.cells (d : Shot) : List (Nat × Nat) :=
  (List.range (64 * d.tilesM)).flatMap fun i => (List.range (64 * d.tilesN)).map (Prod.mk i)

theorem Shot.mem_cells (d : Shot) (e : Nat × Nat) : e ∈ d.cells ↔ e.1 < 64 * d.tilesM ∧ e.2 < 64 * d.tilesN := by
  unfold Shot.cells
  constructor
  · intro he
    obtain ⟨i, hi, he⟩ := List.mem_flatMap.mp he
    obtain ⟨j, hj, rfl⟩ := List.mem_map.mp he
    exact ⟨List.mem_range.mp hi, List.mem_range.mp hj⟩
  · exact fun ⟨hi, hj⟩ => List.mem_flatMap.mpr ⟨e.1, List.mem_range.mpr hi, List.mem_map.mpr ⟨e.2, List.mem_range.mpr hj, rfl⟩⟩

theorem Shot.cells_nodup (d : Shot) : d.cells.Nodup := by
  refine List.pairwise_flatMap.mpr ⟨fun i _ => ?_, List.nodup_range.imp fun hne a ha b hb hab => ?_⟩
  · exact List.pairwise_map.mpr (List.nodup_range.imp fun hne h => hne (congrArg Prod.snd h))
  · obtain ⟨_, _, rfl⟩ := List.mem_map.mp ha
    obtain ⟨_, _, rfl⟩ := List.mem_map.mp hb
    exact hne (congrArg Prod.fst hab)

theorem Shot.cellKeys_nodup (d : Shot) (hfit : d.tilesM * d.tilesN ≤ 640) : (d.cells.map d.cellKey).Nodup := by
  refine List.pairwise_map.mpr (d.cells_nodup.imp_of_mem ?_)
  rintro ⟨i, j⟩ ⟨i', j'⟩ he he' hne h
  obtain ⟨hi, hj⟩ := (d.mem_cells _).mp he
  obtain ⟨hi', hj'⟩ := (d.mem_cells _).mp he'
  unfold Shot.cellKey at h
  obtain ⟨hq, hr, hc⟩ := accKey_inj (Nat.mod_lt _ (by decide)) (Nat.mod_lt _ (by decide)) (Nat.mod_lt _ (by decide))
    (Nat.mod_lt _ (by decide)) (Nat.eq_of_mul_eq_mul_right (by decide) (Nat.add_right_cancel h))
  dsimp only at hi hj hi' hj' hq hr hc
  obtain ⟨hI, hJ⟩ := d.quad_inj hfit (by omega) (by omega) (by omega) (by omega) hq
  exact hne (Prod.ext (by dsimp only; omega) (by dsimp only; omega))

/-! ### One cell -/

/-- Where a cell's accumulator starts in a shot, from what it reads as (R127, R129). -/
def Shot.startFrom (d : Shot) (bias : Blob) (j : Nat) (acc : Word) : Word :=
  if d.first = false then acc
  else if d.isInt then 0
  else if d.initBias = true ∧ j < d.colsN then toF32 (f32v (widenBf16 (leAt bias (2 * j) 2)))
  else 0x80000000

theorem State.accStart_eq (s : State) (d : Shot) (bias : Blob) (key j : Nat) :
    s.accStart d bias key j = d.startFrom bias j (s.accAt d.tile key) := by
  unfold State.accStart Shot.startFrom
  simp only [Bool.not_eq_true', Bool.and_eq_true, decide_eq_true_eq]

/-- A cell's products of a shot with the accumulator that they leave; beyond m or n the operands are zero (R121, R127-R129). -/
def Shot.product (d : Shot) (bias : Blob) (x y : Nat → Nat → Val) (e : Nat × Nat) (acc : Word) : Word × BitVec 4 :=
  d.cell (d.startFrom bias e.2 acc) (if e.1 < d.rowsM then x e.1 else fun _ => .fin false 0 0)
    (if e.2 < d.colsN then y e.2 else fun _ => .fin false 0 0)

/-- An operand of a row or column that may lie beyond m or n, element by element (R121). -/
theorem operand_at (p : Prop) [Decidable p] (x : Nat → Val) (z : Val) (k : Nat) :
    (if p then x else fun _ => z) k = if p then x k else z := by split <;> rfl

/-- The value that a cell's products leave is their sum in ascending k: the conditions met on the way do not enter it. -/
theorem Shot.cell_fst (d : Shot) (start : Word) (x y : Nat → Val) :
    (d.cell start x y).1 = (List.range d.kLen).foldl (fun (acc : Word) k =>
      (if d.isInt then accStepInt d.accWrap acc (x k) (y k) else accStep acc (x k) (y k)).1) start :=
  (List.foldl_hom Prod.fst fun _ _ => rfl).symm

/-- A cell of a shot: its accumulator takes the products, its output tile's nibble their conditions. -/
def State.accCell (d : Shot) (bias : Blob) (x y : Nat → Nat → Val) (s : State) (e : Nat × Nat) : State :=
  let key := accKey (d.quad (e.1 / 64) (e.2 / 64)) (e.1 % 64) (e.2 % 64)
  let p := d.product bias x y e (s.accAt d.tile key)
  (s.setAcc d.tile key p.1).orNibble d.tile (e.1 / 64 * d.tilesN + e.2 / 64) p.2

theorem State.accCell_acc (d : Shot) (bias : Blob) (x y : Nat → Nat → Val) (s : State) (e : Nat × Nat) :
    (State.accCell d bias x y s e).grid.acc =
      Sparse.update (fun _ => 0) s.grid.acc (d.cellKey e) fun acc => (d.product bias x y e acc).1 := rfl

/-! ### All cells -/

/-- The accumulation of a shot is its cells' one after another. -/
theorem State.accumulateOn_eq (s : State) (d : Shot) (bias : Blob) (x y : Nat → Nat → Val) :
    s.accumulateOn d bias x y = d.cells.foldl (State.accCell d bias x y) s := by
  unfold State.accumulateOn State.each Shot.cells
  simp only [State.accStart_eq, List.foldl_flatMap, List.foldl_map]
  rfl

/-- Every accumulator of the output tiles takes its products from its start value. -/
theorem State.accAt_accumulateOn (s : State) (d : Shot) (bias : Blob) (x y : Nat → Nat → Val) (i j : Nat)
    (hfit : d.tilesM * d.tilesN ≤ 640) (hwf : Sparse.wf (fun _ => (0 : Word)) s.grid.acc = true)
    (hi : i < 64 * d.tilesM) (hj : j < 64 * d.tilesN) :
    (s.accumulateOn d bias x y).accAt d.tile (accKey (d.quad (i / 64) (j / 64)) (i % 64) (j % 64)) =
      (d.product bias x y (i, j) (s.accAt d.tile (accKey (d.quad (i / 64) (j / 64)) (i % 64) (j % 64)))).1 := by
  have hacc : (d.cells.foldl (State.accCell d bias x y) s).grid.acc =
      d.cells.foldl (fun m e => Sparse.update (fun _ => 0) m (d.cellKey e) fun acc => (d.product bias x y e acc).1) s.grid.acc :=
    (List.foldl_hom (fun t : State => t.grid.acc) fun t e => (State.accCell_acc d bias x y t e).symm).symm
  have hget := (Sparse.get_foldl_update (fun _ => (0 : Word)) d.cellKey (fun e acc => (d.product bias x y e acc).1) d.cells s.grid.acc hwf
    (d.cellKeys_nodup hfit)).1 (i, j) ((d.mem_cells _).mpr ⟨hi, hj⟩)
  rw [State.accumulateOn_eq, State.accAt, hacc]
  exact hget

/-- From `s` to `t` only the grid differs, and of its tiles no more than the nibbles. -/
def State.accumulated (s t : State) : Prop :=
  t = { s with grid := t.grid } ∧ ∀ k, t.tile k = { s.tile k with nibbles := (t.tile k).nibbles }

theorem State.accumulated_trans {s t u : State} (h : s.accumulated t) (k : t.accumulated u) : s.accumulated u := by
  obtain ⟨h1, h2⟩ := h
  obtain ⟨k1, k2⟩ := k
  refine ⟨?_, fun n => ?_⟩
  · rw [h1] at k1; exact k1
  · have hn := k2 n
    rw [h2 n] at hn
    exact hn

theorem State.accumulated_orNibble (s : State) (t n : Nat) (c : BitVec 4) : s.accumulated (s.orNibble t n c) := by
  refine ⟨rfl, fun k => ?_⟩
  rw [State.orNibble, State.tile_setTile]
  split
  case isTrue h => rw [h.1]
  case isFalse => rfl

theorem State.accumulated_accumulateOn (s : State) (d : Shot) (bias : Blob) (x y : Nat → Nat → Val) :
    s.accumulated (s.accumulateOn d bias x y) := by
  rw [State.accumulateOn_eq]
  generalize d.cells = es
  induction es generalizing s with
  | nil => exact ⟨rfl, fun _ => rfl⟩
  | cons e es ih =>
    have hset : ∀ k w, s.accumulated (s.setAcc d.tile k w) := fun _ _ => ⟨rfl, fun _ => rfl⟩
    exact State.accumulated_trans (State.accumulated_trans (hset _ _) (State.accumulated_orNibble _ _ _ _)) (ih _)

/-! ### The shot -/

/-- The runs of bytes that a shot reads. -/
def State.shotRuns (s : State) (d : Shot) (b : Option Binding) : List (Nat × Nat) :=
  (s.shotAccesses d b).flatMap fun e => if e.2.2 = true then [] else e.1.run e.2.1

/-- The segment cycle at which a cue of track A has started. -/
def State.shotCycle (s : State) (o i : Nat) : Nat := ((s.ctx o).startOf .a i).getD 0

/-- The state after a shot's reads: its port is used from its start on for its k_cycles, and stored words in error are known (R260). -/
def State.shotReads (s : State) (o i : Nat) (c : Cue) (d : Shot) : State :=
  let runs := s.shotRuns d (s.cueBinding o c)
  let cyc := s.shotCycle o i
  (s.usePort (mkUse Rq.grid o false runs (s.cycleT o cyc) (s.cycleT o (cyc + d.kCycles)))).shotRead o c runs

/-- The tile of a shot that has started: in ACC for its operation; the operation's first shot starts with no conditions. -/
def AccTile.shotOn (t : AccTile) (o i : Nat) (d : Shot) : AccTile :=
  { t with state := .acc, op := d.opTag, shot := some (o, i), nibbles := if d.first then [] else t.nibbles }

/-- A shot whose accesses are allowed, on a tile that it may use, in a segment that its reads leave unfenced. -/
theorem State.playMma_eq (s : State) (o i : Nat) (x : Sheet) (c : Cue)
    (hacc : ∀ e ∈ s.shotAccesses (x.shot c) (s.cueBinding o c), s.accessOk o e.2.2 e.1 e.2.1 = true)
    (hfree : (s.tile (x.shot c).tile).collides (x.shot c) (s.shotCycle o i) = false)
    (hrun : ((s.shotReads o i c (x.shot c)).ctx o).state ≠ .void) :
    s.playMma o i x c = ((s.shotReads o i c (x.shot c)).setTile (x.shot c).tile ((s.tile (x.shot c).tile).shotOn o i (x.shot c))).accumulate
      (x.shot c) (s.cueBinding o c) := by
  have hall : ((s.shotAccesses (x.shot c) (s.cueBinding o c)).all fun e => s.accessOk o e.2.2 e.1 e.2.1) = true :=
    List.all_eq_true.mpr hacc
  have hcol : ¬ (s.tile (x.shot c).tile).collides (x.shot c) (((s.ctx o).startOf .a i).getD 0) = true := by
    rw [← State.shotCycle, hfree]; decide
  unfold State.playMma
  dsimp only
  rw [if_neg (by rw [hall]; decide), if_neg hcol]
  exact if_neg hrun

/-- The accumulation reads its operands and its bias as they stood before its tile was marked. -/
theorem State.accumulate_setTile (s : State) (n : Nat) (y : AccTile) (d : Shot) (b : Option Binding) :
    (s.setTile n y).accumulate d b = (s.setTile n y).accumulateOn d (s.readAt (s.resolve b d.biasRef) (2 * d.colsN))
      (s.elem (s.operandsOf d b).1) (s.elem (s.operandsOf d b).2) := rfl

theorem exec_mma (s : State) (o i start : Nat) (x : Sheet) (c : Cue)
    (h : s.mayStart o .a i x c (fun d => d.f 0 1 = 0 && d.op = 1) start) :
    exec (.mma o i) s = .next ((s.started o .a i c start).playMma o i x c) :=
  congrArg Host.Outcome.next (s.startCue_of_mayStart o i .a x c _ (fun s x c => s.playMma o i x c) start h)

theorem Shot.tile_lt (d : Shot) : d.tile < 4 := Nat.mod_lt _ (by decide)

/-- What a shot's accumulation on a marked tile leaves: the mark, every accumulator of the output tiles with its products in ascending k,
and beside the grid the state as it was. -/
theorem State.accumulate_marked (r : State) (o i : Nat) (d : Shot) (b : Option Binding) (y : AccTile)
    (hfit : d.tilesM * d.tilesN ≤ 640) (htiles : r.grid.tiles.length = 4) (hwf : Sparse.wf (fun _ => (0 : Word)) r.grid.acc = true) :
    let t := (r.setTile d.tile (y.shotOn o i d)).accumulate d b
    (t.tile d.tile).state = .acc ∧ (t.tile d.tile).op = d.opTag ∧ (t.tile d.tile).shot = some (o, i) ∧
    (∀ m n, m < 64 * d.tilesM → n < 64 * d.tilesN →
      t.accAt d.tile (accKey (d.quad (m / 64) (n / 64)) (m % 64) (n % 64)) =
        (d.product (r.readAt (r.resolve b d.biasRef) (2 * d.colsN)) (r.elem (r.operandsOf d b).1) (r.elem (r.operandsOf d b).2) (m, n)
          (r.accAt d.tile (accKey (d.quad (m / 64) (n / 64)) (m % 64) (n % 64)))).1) ∧
    t = { r with grid := t.grid } := by
  intro t
  obtain ⟨hframe, htile⟩ : (r.setTile d.tile (y.shotOn o i d)).accumulated t := State.accumulated_accumulateOn _ _ _ _ _
  have hmarked := htile d.tile
  rw [State.tile_setTile, if_pos ⟨rfl, by rw [htiles]; exact d.tile_lt⟩] at hmarked
  exact ⟨congrArg AccTile.state hmarked, congrArg AccTile.op hmarked, congrArg AccTile.shot hmarked,
    fun m n hm hn => State.accAt_accumulateOn _ d _ _ _ m n hfit hwf hm hn, hframe⟩

/-- Settles O26: the cells of a shot have accumulators of their own, so each takes its products from what stood there before the shot. -/
theorem matrixShotsAccumulateInAscendingOrder : Obligations.MatrixShotsAccumulateInAscendingOrder := by
  unfold Obligations.MatrixShotsAccumulateInAscendingOrder
  intro s o i start x c hstart s' d b cyc runs r hacc hfree hrun hfit htiles hwf
  have hplay := s'.playMma_eq o i x c hacc hfree hrun
  obtain ⟨hstate, hop, hshot, hcells, hframe⟩ := r.accumulate_marked o i d b (s'.tile d.tile) hfit htiles hwf
  refine ⟨_, (exec_mma s o i start x c hstart).trans (congrArg Host.Outcome.next hplay), hstate, hop, hshot, fun m n hm hn => ?_, hframe⟩
  refine (hcells m n hm hn).trans ((Shot.cell_fst d _ _ _).trans ?_)
  simp only [operand_at]
  rfl

end Sys2Proof.Machine
end
